-- ==== Sys2Proof/Word.lean ====
section
/-! DEFINITION. The word types of the Quozenas 848 model and the identifiers of its units (spec 01, R10, R32). -/

namespace Sys2Proof

/-- A byte of any memory of the device. -/
abbrev Byte := BitVec 8

/-- The 64-bit word of every register map and of every instruction. -/
abbrev W64 := BitVec 64

/-- Well number w (R10): die Cn holds wells 32n to 32n + 31. -/
abbrev WellId := Fin 128

/-- Pump number as in the unit IDs of R32: well Pump Pp of well w is 2w + p, bulk Pump BPn is 256 + n. -/
abbrev PumpId := Fin 272

/-- Translation front end (R282, R292): 0-3 the compute dies, 4 for BP0-BP7, 5 for BP8-BP15. -/
abbrev FrontId := Fin 6

/-- Faranaor link Ln (R354). -/
abbrev LinkId := Fin 36

/-- Stack Sn (R22). -/
abbrev StackId := Fin 24

/-- Confluence engine (R375). -/
abbrev EngineId := Fin 4

/-- Trigger counter (R375). -/
abbrev CtrId := Fin 4096

/-- Cistern half: 0 on M0, 1 on M1 (R293). -/
abbrev HalfId := Fin 2

/-- Slot of a well's stores (R234). -/
abbrev SlotId := Fin 14336

end Sys2Proof
end

