-- ==== Sys2Proof/Config.lean ====
section
/-! DEFINITION. What an implementation fixes and the spec does not state: free values and the published standards
whose content the spec only names. Every constant here is opaque: no proof can see a value of it. -/

namespace Sys2Proof

/-- The fuse-bank fields of R515, plus the other fields whose Reset column says "fuse" (R7, R30, R509). -/
structure Fuses where
  rootHash  : Vector (BitVec 512) 4
  revoke    : BitVec 4
  ownerHash : BitVec 512
  devSecret : BitVec 256
  serial    : W64
  locked    : Bool
  /-- DEV_CONFIG.WELLS_AVAILABLE (R30). -/
  wellsAvailable : BitVec 8
  /-- PW_DOMST0 and PW_DOMST1, two bits for each of PD0-PD43 (R509). -/
  domState  : BitVec 88
  deriving DecidableEq, Repr, Inhabited

/-- One firmware image of a flash bank (R517): its header, and the SHA-512 of its body is a function of the body. -/
structure Image where
  header : List Byte
  body   : List Byte
  deriving DecidableEq, Repr, Inhabited

/-- What a ring-0 monitor image gives each well (R417). -/
structure Monitor where
  ram     : List Byte
  entry   : W64
  xsp     : BitVec 24
  xbase   : BitVec 24
  xlimit  : BitVec 24
  sltbase : W64
  drlim   : BitVec 12
  deriving DecidableEq, Repr, Inhabited

/-- How Headwater sets up one post queue of a job (R380, R410): the descriptor of R416 does not say. -/
structure QueueLayout where
  priv : Bool
  base : BitVec 56
  size : BitVec 4
  /-- The post counter's place in the job's counter window. -/
  pctr : BitVec 12
  deriving DecidableEq, Repr, Inhabited

namespace Config

/-- The layout of a job's n-th post queue, from the job's handle. -/
opaque queueLayout : Nat → Nat → QueueLayout

/-- The fuse fields blown at manufacture in the primary bank and in the mirror (R515). -/
opaque fusesPrimary : Fuses
opaque fusesMirror : Fuses
/-- Bits of ARB0-ARB3 blown at manufacture, in the primary bank and in the mirror (R515, R521). -/
opaque arbPrimary : Vector (BitVec 128) 4
opaque arbMirror : Vector (BitVec 128) 4
/-- The contents of flash at the first power-on: banks A and B (images of TYPE 0x1-0x4), the boot bank and the
certificate chain (R516, R534). -/
opaque flashBanks : Vector (Vector Image 4) 2
opaque flashBootBank : Bool
opaque certChain : List Byte
/-- Version of the Wellhead ROM, which MEAS0 is extended with (R525). -/
opaque romVersion : List Byte

/-- SHA-512, named by R515-R525; the standard's content is not in the spec. -/
opaque sha512 : List Byte → BitVec 512
/-- RSASSA-PSS verification with SHA-512 (R518): modulus, exponent, message, signature. -/
opaque pssVerify : BitVec 4096 → BitVec 32 → List Byte → BitVec 4096 → Bool
/-- RSASSA-PSS signature under the identity key (R523, R526, R530); the salt is drawn per signature (the Nat). -/
opaque identitySign : Nat → List Byte → BitVec 4096
/-- RSAES-OAEP decryption under the transport key with label "QZN-LK" (R527); none when decryption or padding fails. -/
opaque oaepOpen : BitVec 4096 → Option (BitVec 512)
/-- The public key (modulus, exponent) with a given hash: the fuses hold hashes only (R515), and R530 does not say whence Wellhead takes
the key of an unlock. -/
opaque publicKeyOf : BitVec 512 → BitVec 4096 × BitVec 32
/-- The MCTP endpoint UUID (R512). -/
opaque endpointUuid : BitVec 128
/-- Whether the wrapped private keys authenticate (R523). -/
opaque wrappedKeysGood : Bool
/-- AES-256-GCM (R369, R487): key, nonce, additional data and body give the encrypted body with its 16 B tag. -/
opaque gcmSeal : BitVec 256 → BitVec 96 → List Byte → List Byte → List Byte
/-- AES-256-GCM opening; none when authentication fails. -/
opaque gcmOpen : BitVec 256 → BitVec 96 → List Byte → List Byte → Option (List Byte)

/-- The FLOW number that a Pump gives every access of a descriptor (R364): Pump, submission number. -/
opaque flowNumber : Nat → Nat → BitVec 10
/-- First element (or chunk) and one past the last of the share that a rank of a REDUCE_SCATTER receives: count, members, rank
(R386 names the kind; no rule states the shares). -/
opaque scatterShare : Nat → Nat → Nat → Nat × Nat
/-- What a verified ring-0 monitor image holds (R417): its body's layout is not in the spec. -/
opaque monitorOf : List Byte → Monitor
/-- Local address of the n-th page table that Headwater allocates; where it puts them is its firmware's choice. -/
opaque tableAddress : Nat → BitVec 44
/-- The images (TYPE 0x1-0x4) that a firmware bank holds after the factory contents and the FLASH_WRITEs: where images lie in a bank
is not in the spec. -/
opaque bankImages : Nat → List (Nat × List Byte) → Vector Image 4
/-- R0 of a unit's wear indicator (R459). -/
opaque wearAtManufacture : Nat → Nat → Nat
/-- Code of a job state of R415, and of a job's end status, in event words and the sounding record: the spec names them and numbers
neither. -/
opaque jobStateCode : Nat → BitVec 8
opaque endStatusCode : Nat → BitVec 32
/-- Bytes of the ledger records in a CHECKPOINT payload (R421): the spec gives their contents, not their layout. -/
opaque ledgerBytes : List Nat → List Byte
/-- The stream of free 64-bit values; the state's counter names the next one. -/
opaque freeWord : Nat → W64
/-- Bank and row of its pseudo-channel in which a stack line lies (R310 says that it lies in one row of one bank, not in which). -/
opaque bankRow : Nat → Nat × Nat
/-- One second of EM_STRESS of R459, from rail current in mA and temperature in 0.1 degC; the spec states no rounding. -/
opaque emStress : Nat → Nat → Nat → Nat

end Config

end Sys2Proof
end

