-- ==== Sys2Proof/Syntax.lean ====
section
/-! DEFINITION. The commands of the Quozenas 848 as a block: one constructor of Instr for each row of
spec/opcode_table.json. A row that is a Drudjax instruction carries the well that issues it and the whole 64-bit
instruction word (R158); a row that is an event carries what arrives from outside with it. -/

namespace Sys2Proof

/-- Who performs a register access (R25, R31, R248, R260, R375). -/
inductive Agent where
  | headwater | fabric | baseflow | wellhead | windlass
  deriving DecidableEq, Repr, Inhabited

/-- The AOP codes of R267. -/
inductive Aop where
  | add | and | or | xor | swap | cas | max | min | maxu | minu
  deriving DecidableEq, Repr, Inhabited

/-- What one access to one sector does (R297). -/
inductive CisternKind where
  | read (bytes : Nat)
  | write (data : List Byte)
  | atomic (op : Aop) (operand cmp : W64)
  | zero
  deriving DecidableEq, Repr, Inhabited

/-- Request class of R315. -/
inductive ReqClass where
  | latencyCritical | normal | baseflow
  deriving DecidableEq, Repr, Inhabited

/-- One access at a Cistern slice (R297): the local address, what it does, its class. -/
structure CisternReq where
  addr  : BitVec 44
  kind  : CisternKind
  cls   : ReqClass
  deriving DecidableEq, Repr, Inhabited

/-- One direction of a weir point (R318, R327): point 3 (WP3) exists in half 0 only. -/
structure WeirPath where
  half  : HalfId
  point : Fin 4
  dir   : Fin 2
  deriving DecidableEq, Repr, Inhabited

/-- One WEIR_CFG register (R327). -/
structure WeirAt where
  path  : WeirPath
  basin : Fin 4
  deriving DecidableEq, Repr, Inhabited

/-- The four words of a stage message (R337). -/
structure StageMsg where
  w0 : W64
  w1 : W64
  w2 : W64
  w3 : W64
  deriving DecidableEq, Repr, Inhabited

/-- A Faranaor flit as received (R356): header, the 244 B body, CRC-32C, and whether its FEC codeword was
uncorrectable. -/
structure Flit where
  hdr    : W64
  body   : List Byte
  crc    : BitVec 32
  fecBad : Bool
  deriving DecidableEq, Repr, Inhabited

/-- A Byvor flit as received (R476): header, the 248 B body, CRC-32C, and whether its codeword was uncorrectable. -/
structure ByFlit where
  hdr    : BitVec 32
  body   : List Byte
  crc    : BitVec 32
  fecBad : Bool
  deriving DecidableEq, Repr, Inhabited

/-- A fabric packet (R356): the two header words and the data. -/
structure Packet where
  w0   : W64
  w1   : W64
  data : List Byte
  deriving DecidableEq, Repr, Inhabited

/-- What a Rill round combines (R387, R389). -/
inductive RillOp where
  | sumInt (width : Nat) | sumFx | maxF (fmt : Nat) | minF (fmt : Nat) | maxS (width : Nat) | minS (width : Nat)
  | maxU (width : Nat) | minU (width : Nat) | and | or | key | signature
  deriving DecidableEq, Repr, Inhabited

/-- A Rill packet (R387): the round it belongs to, the sending rank, the sweep, the operation and its 8 B lanes. -/
structure RillMsg where
  group   : BitVec 16
  epoch   : BitVec 32
  attempt : BitVec 8
  stage   : W64
  round   : Nat
  fromRank : Nat
  down    : Bool
  op      : RillOp
  lanes   : List W64
  deriving DecidableEq, Repr, Inhabited

/-- A COLL packet (R396): the chunk of an operation with its header fields, residue and elements, and the link it
arrived on. -/
structure CollMsg where
  group   : BitVec 16
  seq     : BitVec 16
  attempt : BitVec 8
  stage   : W64
  chunk   : Nat
  result  : Bool
  exp     : BitVec 16
  zero    : Bool
  ovf     : Bool
  special : BitVec 512
  residue : BitVec 31
  elems   : List W64
  link    : LinkId
  deriving DecidableEq, Repr, Inhabited

/-- A source of trigger-counter increments (R375); increments of one source keep their order (R376). -/
inductive IncSource where
  | well (w : WellId) | pump (p : PumpId) | gauge | engine (e : EngineId) | inval
  deriving DecidableEq, Repr, Inhabited

/-- The memories that are scrubbed (R450). -/
inductive ScrubMem where
  | stackMem | cistern | stores
  deriving DecidableEq, Repr, Inhabited

/-- A reading of one wear indicator (R459): code, unit ID, the reading or the increment's inputs. -/
structure WearReading where
  code  : BitVec 8
  unit  : BitVec 16
  value : Nat
  deriving DecidableEq, Repr, Inhabited

/-- Whose temperature a sensor reading gives (R505). -/
inductive ThermalUnit where
  | domain (d : Fin 44) | aon | stack (n : StackId)
  deriving DecidableEq, Repr, Inhabited

/-- MCTP control messages (R512). -/
inductive McKind where
  | setEid | getEid | getVersion | getTypes | getUuid | other
  deriving DecidableEq, Repr, Inhabited

/-- Numeric sensors of R513. -/
inductive SensorId where
  | inputV | inputI | inputP | hotspot (d : Fin 44) | hotspotAon | stackTemp (n : StackId) | wearLow | wearEst | wearHigh
  deriving DecidableEq, Repr, Inhabited

/-- A leaf that a MAP writes (R413): an empty rights field withdraws it. -/
structure LeafReq where
  va     : BitVec 56
  pa     : BitVec 60
  big    : Bool
  rights : BitVec 3
  valid  : Bool
  deriving DecidableEq, Repr, Inhabited

/-- An ingress window that a MAP writes (R413, R366). -/
structure IngressReq where
  index : Fin 16
  w0 : W64
  w1 : W64
  w2 : W64
  deriving DecidableEq, Repr, Inhabited

/-- The host's commands with their arguments (R413). The spec fixes an argument layout for SOUND only (R480), so the
arguments are carried as values. -/
inductive HostCmd where
  | jobLoad (descriptor : BitVec 44)
  | jobStart (handle : BitVec 16)
  | jobKill (handle : BitVec 16)
  | map (handle : BitVec 16) (leaves : List LeafReq) (ingress : List IngressReq)
  | stageCfg (writes : List (BitVec 16 × W64)) (bind : List (BitVec 16))
  | basinCfg (layout : BitVec 2) (weirs : List (WeirAt × W64))
  | retire (wells : List WellId)
  | xlateResp (front : FrontId) (resume : Bool) (index : Fin 64) (asid : BitVec 16) (granule : BitVec 30)
  | faultAck (records : List Nat)
  | eventAck (seq : W64)
  | eventFetch (seq : W64)
  | sound (token : BitVec 32) (buffer : W64)
  | mgmt (write : Bool) (addr : BitVec 44) (value : W64)
  | other (code : BitVec 8)
  deriving DecidableEq, Repr, Inhabited

/-- The arguments that words 2-7 of a CMD body hold for a code (R480): the spec places those of SOUND alone, so the others' are free. -/
opaque Config.cmdArgs : BitVec 8 → List W64 → HostCmd

/-- What a start-up step finds (R535, R536): which units passed. -/
structure StartObs where
  regulatorOk : BitVec 44
  lockstepOk  : Bool
  stacksOk    : BitVec 24
  wellsOk     : BitVec 128
  slicesOk    : Bool
  ms          : BitVec 32
  deriving DecidableEq, Repr, Inhabited


/-- The commands of the block: one constructor for each row of spec/opcode_table.json, in the table's order. -/
inductive Instr where
  /-- HEADWATER_LOCKSTEP_DISAGREE (R15). -/
  | headwaterLockstepDisagree (pair : Fin 2)
  /-- SYNCHRONISED_EVENT_ARRIVAL (R550). -/
  | synchronisedEventArrival (w : WellId)
  /-- REGISTER_WRITE (R3). -/
  | registerWrite (src : Agent) (addr : BitVec 44) (val : W64)
  /-- MCLR (R99). -/
  | mclr (w : WellId) (word : W64)
  /-- MMAC (R100). -/
  | mmac (w : WellId) (word : W64)
  /-- MMAC_PASS (R100). -/
  | mmacPass (w : WellId) (upset : Option (Fin 256 × Fin 128))
  /-- MR_INSTRUCTION_START (R106). -/
  | mrInstructionStart (w : WellId)
  /-- MFIN (R101). -/
  | mfin (w : WellId) (word : W64)
  /-- MCOMB (R102). -/
  | mcomb (w : WellId) (word : W64)
  /-- MSTAT (R103). -/
  | mstat (w : WellId) (word : W64)
  /-- MTSAVE (R104). -/
  | mtsave (w : WellId) (word : W64)
  /-- MTLOAD (R104). -/
  | mtload (w : WellId) (word : W64)
  /-- MFENCE (R105). -/
  | mfence (w : WellId) (word : W64)
  /-- MHALT (R119). -/
  | mhalt (w : WellId) (word : W64)
  /-- MRESUME (R120). -/
  | mresume (w : WellId) (word : W64)
  /-- MDROP (R120). -/
  | mdrop (w : WellId) (word : W64)
  /-- MQSAVE (R121). -/
  | mqsave (w : WellId) (word : W64)
  /-- MQLOAD (R121). -/
  | mqload (w : WellId) (word : W64)
  /-- TILE_SIDEBAND_WRITE (R110). -/
  | tileSidebandWrite (w : WellId) (off : BitVec 24) (val : W64)
  /-- SETVL (R129). -/
  | setvl (w : WellId) (word : W64)
  /-- VFADD_VFSUB_VFMUL_VFDIV_VFSQRT (R133). -/
  | vfaddVfsubVfmulVfdivVfsqrt (w : WellId) (word : W64)
  /-- VFMA (R133). -/
  | vfma (w : WellId) (word : W64)
  /-- VFMS (R133). -/
  | vfms (w : WellId) (word : W64)
  /-- VFNMA (R133). -/
  | vfnma (w : WellId) (word : W64)
  /-- VFMIN_VFMAX (R82). -/
  | vfminVfmax (w : WellId) (word : W64)
  /-- VFSIGN_COPY_NEG_XOR (R133). -/
  | vfsignCopyNegXor (w : WellId) (word : W64)
  /-- VFEQ_VFLT_VFLE (R82). -/
  | vfeqVfltVfle (w : WellId) (word : W64)
  /-- VCVT (R135). -/
  | vcvt (w : WellId) (word : W64)
  /-- VQMX (R136). -/
  | vqmx (w : WellId) (word : W64)
  /-- VADD_VSUB_VMUL_VMULH_VMULHU (R133). -/
  | vaddVsubVmulVmulhVmulhu (w : WellId) (word : W64)
  /-- VAND_VOR_VXOR (R133). -/
  | vandVorVxor (w : WellId) (word : W64)
  /-- VSLL_VSRL_VSRA (R133). -/
  | vsllVsrlVsra (w : WellId) (word : W64)
  /-- VMIN_VMAX_VMINU_VMAXU (R133). -/
  | vminVmaxVminuVmaxu (w : WellId) (word : W64)
  /-- VSEQ_VSLT_VSLTU (R133). -/
  | vseqVsltVsltu (w : WellId) (word : W64)
  /-- MK_AND_OR_XOR_ANDN (R133). -/
  | mkAndOrXorAndn (w : WellId) (word : W64)
  /-- MK_SET (R133). -/
  | mkSet (w : WellId) (word : W64)
  /-- VTALLY_F (R142). -/
  | vtallyF (w : WellId) (word : W64)
  /-- VTALLY_FX (R143). -/
  | vtallyFx (w : WellId) (word : W64)
  /-- VTALLY_FMAX_FMIN (R144). -/
  | vtallyFmaxFmin (w : WellId) (word : W64)
  /-- VTALLY_INTEGER (R144). -/
  | vtallyInteger (w : WellId) (word : W64)
  /-- MCOUNT (R145). -/
  | mcount (w : WellId) (word : W64)
  /-- MFIND (R145). -/
  | mfind (w : WellId) (word : W64)
  /-- VGET (R145). -/
  | vget (w : WellId) (word : W64)
  /-- VLD_VLDS_VLDX (R147). -/
  | vldVldsVldx (w : WellId) (word : W64)
  /-- VST_VSTS_VSTX (R147). -/
  | vstVstsVstx (w : WellId) (word : W64)
  /-- MLD (R134). -/
  | mld (w : WellId) (word : W64)
  /-- MST (R134). -/
  | mst (w : WellId) (word : W64)
  /-- VMV (R134). -/
  | vmv (w : WellId) (word : W64)
  /-- VBCAST (R134). -/
  | vbcast (w : WellId) (word : W64)
  /-- VSHIFT_UP (R134). -/
  | vshiftUp (w : WellId) (word : W64)
  /-- VSHIFT_DOWN (R134). -/
  | vshiftDown (w : WellId) (word : W64)
  /-- VPICK (R134). -/
  | vpick (w : WellId) (word : W64)
  /-- VPACK (R134). -/
  | vpack (w : WellId) (word : W64)
  /-- VINS (R134). -/
  | vins (w : WellId) (word : W64)
  /-- VWAIT (R134). -/
  | vwait (w : WellId) (word : W64)
  /-- FLUME_COMPLETION (R141). -/
  | flumeCompletion (w : WellId) (k : Fin 8)
  /-- ADD_SUB (R169). -/
  | addSub (w : WellId) (word : W64)
  /-- AND_OR_XOR_ANDN (R169). -/
  | andOrXorAndn (w : WellId) (word : W64)
  /-- SLL_SRL_SRA (R169). -/
  | sllSrlSra (w : WellId) (word : W64)
  /-- SLT_SLTU (R169). -/
  | sltSltu (w : WellId) (word : W64)
  /-- MIN_MAX_MINU_MAXU (R169). -/
  | minMaxMinuMaxu (w : WellId) (word : W64)
  /-- CLZ_CTZ_POPC (R169). -/
  | clzCtzPopc (w : WellId) (word : W64)
  /-- SEXT_ZEXT (R169). -/
  | sextZext (w : WellId) (word : W64)
  /-- MUL_MULH_MULHU (R169). -/
  | mulMulhMulhu (w : WellId) (word : W64)
  /-- DIV_DIVU_REM_REMU (R169). -/
  | divDivuRemRemu (w : WellId) (word : W64)
  /-- LI (R169). -/
  | li (w : WellId) (word : W64)
  /-- LSH (R169). -/
  | lsh (w : WellId) (word : W64)
  /-- LD (R170). -/
  | ld (w : WellId) (word : W64)
  /-- LDQ (R170). -/
  | ldq (w : WellId) (word : W64)
  /-- ST (R170). -/
  | st (w : WellId) (word : W64)
  /-- STQ (R170). -/
  | stq (w : WellId) (word : W64)
  /-- LOAD_WINDOW_CLOSE (R173). -/
  | loadWindowClose (w : WellId)
  /-- STORE_BUFFER_DRAIN (R194). -/
  | storeBufferDrain (w : WellId)
  /-- SKIP (R180). -/
  | skip (w : WellId) (word : W64)
  /-- J (R181). -/
  | j (w : WellId) (word : W64)
  /-- JAL (R181). -/
  | jal (w : WellId) (word : W64)
  /-- JR (R181). -/
  | jr (w : WellId) (word : W64)
  /-- CSRR (R182). -/
  | csrr (w : WellId) (word : W64)
  /-- CSRW (R182). -/
  | csrw (w : WellId) (word : W64)
  /-- CSRS (R182). -/
  | csrs (w : WellId) (word : W64)
  /-- CSRC (R182). -/
  | csrc (w : WellId) (word : W64)
  /-- TRAP (R219). -/
  | trap (w : WellId) (word : W64)
  /-- RETG (R220). -/
  | retg (w : WellId) (word : W64)
  /-- RETE (R220). -/
  | rete (w : WellId) (word : W64)
  /-- BRK (R182). -/
  | brk (w : WellId) (word : W64)
  /-- FENCE (R183). -/
  | fence (w : WellId) (word : W64)
  /-- WFI (R183). -/
  | wfi (w : WellId) (word : W64)
  /-- ICINV (R183). -/
  | icinv (w : WellId) (word : W64)
  /-- XGET (R162). -/
  | xget (w : WellId) (word : W64)
  /-- XPUT (R162). -/
  | xput (w : WellId) (word : W64)
  /-- ICACHE_LINE_FILL (R188). -/
  | icacheLineFill (w : WellId) (va : BitVec 56)
  /-- QADD_QSUB_QMUL (R199). -/
  | qaddQsubQmul (w : WellId) (word : W64)
  /-- QMIN_QMAX_QMINU_QMAXU (R199). -/
  | qminQmaxQminuQmaxu (w : WellId) (word : W64)
  /-- QAND_QOR_QXOR (R199). -/
  | qandQorQxor (w : WellId) (word : W64)
  /-- QSLL_QSRL_QSRA (R199). -/
  | qsllQsrlQsra (w : WellId) (word : W64)
  /-- QFADD_QFSUB_QFMUL_QFDIV_QFSQRT (R199). -/
  | qfaddQfsubQfmulQfdivQfsqrt (w : WellId) (word : W64)
  /-- QFMA (R199). -/
  | qfma (w : WellId) (word : W64)
  /-- QFMIN_QFMAX (R199). -/
  | qfminQfmax (w : WellId) (word : W64)
  /-- QFEQ_QFLT_QFLE (R199). -/
  | qfeqQfltQfle (w : WellId) (word : W64)
  /-- QCVT (R199). -/
  | qcvt (w : WellId) (word : W64)
  /-- QPERM (R199). -/
  | qperm (w : WellId) (word : W64)
  /-- QSPLAT (R199). -/
  | qsplat (w : WellId) (word : W64)
  /-- QPUT (R199). -/
  | qput (w : WellId) (word : W64)
  /-- QGET (R199). -/
  | qget (w : WellId) (word : W64)
  /-- QMOV (R199). -/
  | qmov (w : WellId) (word : W64)
  /-- DJQ_COMPLETION (R200). -/
  | djqCompletion (w : WellId)
  /-- EXCEPTION_ENTRY (R213). -/
  | exceptionEntry (w : WellId)
  /-- INTERRUPT_LINE_ASSERT (R226). -/
  | interruptLineAssert (w : WellId) (line : Fin 11)
  /-- INTERRUPT_TAKE (R227). -/
  | interruptTake (w : WellId)
  /-- TIMER (R226). -/
  | timer (w : WellId)
  /-- COUNTER_OVF (R226). -/
  | counterOvf (w : WellId) (instret : Bool)
  /-- TAG_FILL (R242). -/
  | tagFill (w : WellId) (word : W64)
  /-- TAG_EMPTY (R242). -/
  | tagEmpty (w : WellId) (word : W64)
  /-- TAG_WAIT_FULL (R242). -/
  | tagWaitFull (w : WellId) (word : W64)
  /-- TAG_WAIT_EMPTY (R242). -/
  | tagWaitEmpty (w : WellId) (word : W64)
  /-- TAG_TAKE (R242). -/
  | tagTake (w : WellId) (word : W64)
  /-- TAG_GET (R242). -/
  | tagGet (w : WellId) (word : W64)
  /-- TAG_WAIT_GRANT (R240). -/
  | tagWaitGrant (w : WellId) (slot : SlotId)
  /-- TAG_STALL (R263). -/
  | tagStall (w : WellId) (slot : SlotId)
  /-- WS_MODE_TO_SCOREBOARD (R249). -/
  | wsModeToScoreboard (w : WellId) (src : Agent)
  /-- WS_MODE_TO_TAG_SERVICE (R250). -/
  | wsModeToTagService (w : WellId) (val : W64)
  /-- WS_MODE_WITHDRAW (R250). -/
  | wsModeWithdraw (w : WellId) (val : W64)
  /-- TAG_SERVICE_CHANGEOVER (R250). -/
  | tagServiceChangeover (w : WellId)
  /-- SCOREBOARD_CONFLICT_RELEASE (R246). -/
  | scoreboardConflictRelease (w : WellId)
  /-- BANK_CLOSE (R256). -/
  | bankClose (w : WellId) (mask : BitVec 28)
  /-- BANK_OFF (R256). -/
  | bankOff (w : WellId) (mask : BitVec 28)
  /-- BANK_CLEAR (R256). -/
  | bankClear (w : WellId) (mask : BitVec 28)
  /-- BANK_OPEN (R256). -/
  | bankOpen (w : WellId) (mask : BitVec 28)
  /-- BANK_DRAIN_COMPLETE (R257). -/
  | bankDrainComplete (w : WellId)
  /-- BANK_COMMAND_COMPLETE (R256). -/
  | bankCommandComplete (w : WellId)
  /-- PUMP_SUB (R271). -/
  | pumpSub (w : WellId) (word : W64)
  /-- CZERO (R270). -/
  | czero (w : WellId) (word : W64)
  /-- INV_AS (R290). -/
  | invAs (w : WellId) (word : W64)
  /-- TRIG_WAIT (R278). -/
  | trigWait (w : WellId) (word : W64)
  /-- TRIG_GET (R278). -/
  | trigGet (w : WellId) (word : W64)
  /-- TRIG_ADD (R278). -/
  | trigAdd (w : WellId) (word : W64)
  /-- PUMP_DESCRIPTOR_START (R273). -/
  | pumpDescriptorStart (p : PumpId)
  /-- PUMP_ACCESS_ISSUE (R274). -/
  | pumpAccessIssue (p : PumpId)
  /-- PUMP_PAGE_CROSSING (R284). -/
  | pumpPageCrossing (p : PumpId)
  /-- PUMP_DESCRIPTOR_COMPLETE (R276). -/
  | pumpDescriptorComplete (p : PumpId)
  /-- PUMP_ERROR_COMPLETE (R277). -/
  | pumpErrorComplete (p : PumpId)
  /-- TRANSLATION_WALK (R282). -/
  | translationWalk (f : FrontId)
  /-- PU_FRESP_RESUME (R289). -/
  | puFrespResume (f : FrontId) (index : Fin 64) (asid : BitVec 16) (granule : BitVec 30)
  /-- PU_FRESP_ABORT (R289). -/
  | puFrespAbort (f : FrontId) (index : Fin 64) (asid : BitVec 16) (granule : BitVec 30)
  /-- PU_CTL_DROP (R291). -/
  | puCtlDrop (w : WellId) (drop : BitVec 2)
  /-- INVALIDATION_CUT (R290). -/
  | invalidationCut
  /-- INVALIDATION_COMPLETE (R290). -/
  | invalidationComplete
  /-- CISTERN_ACCESS (R297). -/
  | cisternAccess (req : CisternReq)
  /-- CISTERN_MISS_FILL (R295). -/
  | cisternMissFill (addr : BitVec 44)
  /-- FRAME_CLOSE (R305). -/
  | frameClose (h : HalfId) (mask : BitVec 16)
  /-- FRAME_OFF (R305). -/
  | frameOff (h : HalfId) (mask : BitVec 16)
  /-- FRAME_CLEAR (R305). -/
  | frameClear (h : HalfId) (mask : BitVec 16)
  /-- TOSCRATCH (R305). -/
  | toscratch (h : HalfId) (mask : BitVec 16)
  /-- TOCACHE (R305). -/
  | tocache (h : HalfId) (mask : BitVec 16)
  /-- FRAME_OPEN (R305). -/
  | frameOpen (h : HalfId) (mask : BitVec 16)
  /-- FRAME_DRAIN_COMPLETE (R306). -/
  | frameDrainComplete (h : HalfId)
  /-- FRAME_COMMAND_COMPLETE (R305). -/
  | frameCommandComplete (h : HalfId)
  /-- CI_MAINT_WRITEBACK (R328). -/
  | ciMaintWriteback (h : HalfId)
  /-- CI_MAINT_WRITEBACK_INVALIDATE (R328). -/
  | ciMaintWritebackInvalidate (h : HalfId)
  /-- CI_MAINT_COMPLETE (R328). -/
  | ciMaintComplete (h : HalfId)
  /-- STACK_TEMPERATURE_READ (R312). -/
  | stackTemperatureRead (n : StackId) (celsius : BitVec 8)
  /-- WEIR_CFG_WRITE (R321). -/
  | weirCfgWrite (at_ : WeirAt) (val : W64)
  /-- ST_CFG_WRITE (R333). -/
  | stCfgWrite (val : W64)
  /-- WIRE_MARK_FRAME (R334). -/
  | wireMarkFrame (frame : BitVec 100) (edge : W64)
  /-- STAGE_MESSAGE_ADVANCE (R337). -/
  | stageMessageAdvance (msg : StageMsg)
  /-- STAGE_MESSAGE_REPEAT (R337). -/
  | stageMessageRepeat (msg : StageMsg)
  /-- STAGE_ACK (R345). -/
  | stageAck (msg : StageMsg)
  /-- REPEAT_REQ (R345). -/
  | repeatReq (msg : StageMsg)
  /-- HELD_MARK_TIMEOUT (R339). -/
  | heldMarkTimeout
  /-- STAGE_LATE (R343). -/
  | stageLate
  /-- ST_ACKCTL_READY (R344). -/
  | stAckctlReady (attempt : BitVec 8) (number : BitVec 48)
  /-- ST_ACKCTL_REQREP (R344). -/
  | stAckctlReqrep (attempt : BitVec 8) (number : BitVec 48)
  /-- MASTER_ADVANCE (R345). -/
  | masterAdvance
  /-- MASTER_DEADLINE (R345). -/
  | masterDeadline
  /-- MEMBER_LOST (R345). -/
  | memberLost (dev : BitVec 16)
  /-- EVENT_SLOT_FIRE (R350). -/
  | eventSlotFire (n : Fin 256)
  /-- EVENT_SLOT_WRITE (R348). -/
  | eventSlotWrite (n : Fin 256) (word : Fin 4) (val : W64)
  /-- DATA_FLIT (R358). -/
  | dataFlit (l : LinkId) (f : Flit)
  /-- IDLE_FLIT (R357). -/
  | idleFlit (l : LinkId) (f : Flit)
  /-- MAINT_FLIT (R357). -/
  | maintFlit (l : LinkId) (f : Flit) (counts : Vector (BitVec 16) 8) (keyReady : Option Bool)
  /-- TRAIN_FLIT (R360). -/
  | trainFlit (l : LinkId) (f : Flit)
  /-- RETRY_TIMEOUT (R358). -/
  | retryTimeout (l : LinkId)
  /-- TRAINING_STEP_COMPLETE (R359). -/
  | trainingStepComplete (l : LinkId) (bias txpwr rxpwr : BitVec 16)
  /-- TRAINING_STEP_TIMEOUT (R359). -/
  | trainingStepTimeout (l : LinkId)
  /-- LINK_RETRY_TIMER (R359). -/
  | linkRetryTimer (l : LinkId)
  /-- FB_LCTL_TRAIN (R374). -/
  | fbLctlTrain (l : LinkId)
  /-- FB_LCTL_DISABLE (R374). -/
  | fbLctlDisable (l : LinkId)
  /-- FB_LCTL_RETRAIN (R374). -/
  | fbLctlRetrain (l : LinkId)
  /-- ROUTE_REMOVE (R371). -/
  | routeRemove (l : LinkId)
  /-- ROUTE_RESTORE (R365). -/
  | routeRestore (l : LinkId)
  /-- LINK_HEALTH_CHECK (R370). -/
  | linkHealthCheck (l : LinkId) (received corrected uncorrectable : Nat) (rxpwr bias : BitVec 16)
  /-- LOSS_OF_SIGNAL (R370). -/
  | lossOfSignal (l : LinkId)
  /-- KEY_CHANGE_REQUEST (R369). -/
  | keyChangeRequest (l : LinkId)
  /-- KEYEXH (R369). -/
  | keyexh (l : LinkId)
  /-- READ_PACKET (R366). -/
  | readPacket (p : Packet)
  /-- WRITE_PACKET (R366). -/
  | writePacket (p : Packet)
  /-- ATOMIC_PACKET (R366). -/
  | atomicPacket (p : Packet)
  /-- RESP_PACKET (R365). -/
  | respPacket (p : Packet)
  /-- RILL_PACKET (R387). -/
  | rillPacket (m : RillMsg)
  /-- STAGE_PACKET (R337). -/
  | stagePacket (p : Packet)
  /-- MGMT_PACKET (R356). -/
  | mgmtPacket (p : Packet)
  /-- COLL_PACKET (R397). -/
  | collPacket (m : CollMsg)
  /-- UNREACHABLE (R365). -/
  | unreachable (dev : BitVec 16)
  /-- REMOTE_RESPONSE_TIMEOUT (R365). -/
  | remoteResponseTimeout (tag : BitVec 12)
  /-- EPOCH_PREP (R368). -/
  | epochPrep (group : BitVec 16) (epoch : BitVec 32) (stage : W64) (list : BitVec 44) (members : List (BitVec 16)) (master : BitVec 16)
  /-- EPOCH_OK (R368). -/
  | epochOk (group : BitVec 16) (epoch : BitVec 32) (dev : BitVec 16)
  /-- EPOCH_CANCEL (R368). -/
  | epochCancel (group : BitVec 16)
  /-- TRIGGER_INCREMENT (R376). -/
  | triggerIncrement (src : IncSource)
  /-- CF_CTR_WRITE (R376). -/
  | cfCtrWrite (c : CtrId) (staged : Bool) (value : BitVec 32)
  /-- POST_QUEUE_READ (R380). -/
  | postQueueRead (e : EngineId) (q : Fin 16)
  /-- OPERATION_FIRE (R383). -/
  | operationFire (c : CtrId)
  /-- ALLREDUCE (R394). -/
  | allreduce (e : EngineId) (k : Nat) (others : List (List Byte))
  /-- REDUCE (R394). -/
  | reduce (e : EngineId) (k : Nat) (others : List (List Byte))
  /-- REDUCE_SCATTER (R394). -/
  | reduceScatter (e : EngineId) (k : Nat) (others : List (List Byte))
  /-- ALLGATHER (R382). -/
  | allgather (e : EngineId) (k : Nat) (others : List (List Byte))
  /-- BROADCAST (R382). -/
  | broadcast (e : EngineId) (k : Nat) (others : List (List Byte))
  /-- ALLTOALL (R392). -/
  | alltoall (e : EngineId) (k : Nat) (others : List (List Byte)) (anyOver : Bool)
  /-- BARRIER (R382). -/
  | barrier (e : EngineId) (k : Nat)
  /-- RILL (R387). -/
  | rill (e : EngineId) (k : Nat) (others : List (List Byte))
  /-- CHANNEL (R391). -/
  | channel (e : EngineId) (k : Nat)
  /-- OPERATION_COMPLETE (R384). -/
  | operationComplete (e : EngineId) (k : Nat)
  /-- GROUP_TIMEOUT (R400). -/
  | groupTimeout (e : EngineId) (k : Nat) (rank : BitVec 16)
  /-- FAULT_REPORT (R406). -/
  | faultReport (l : Option LinkId) (words : Vector W64 4)
  /-- COALESCE_ENTRY_EXPIRE (R408). -/
  | coalesceEntryExpire (k : Fin 4096)
  /-- JOB_LOAD (R417). -/
  | jobLoad (ring : Fin 4)
  /-- JOB_START (R415). -/
  | jobStart (ring : Fin 4)
  /-- JOB_KILL (R433). -/
  | jobKill (ring : Fin 4)
  /-- MAP (R413). -/
  | map (ring : Fin 4)
  /-- STAGE_CFG (R413). -/
  | stageCfg (ring : Fin 4)
  /-- BASIN_CFG (R413). -/
  | basinCfg (ring : Fin 4)
  /-- RETIRE (R425). -/
  | retire (ring : Fin 4)
  /-- XLATE_RESP (R289). -/
  | xlateResp (ring : Fin 4)
  /-- FAULT_ACK (R437). -/
  | faultAck (ring : Fin 4)
  /-- EVENT_ACK (R443). -/
  | eventAck (ring : Fin 4)
  /-- EVENT_FETCH (R443). -/
  | eventFetch (ring : Fin 4)
  /-- SOUND (R439). -/
  | sound (ring : Fin 4)
  /-- MGMT (R413). -/
  | mgmt (ring : Fin 4)
  /-- REACH_DONE (R420). -/
  | reachDone (w : WellId)
  /-- STAGE_DONE (R426). -/
  | stageDone (w : WellId)
  /-- JOB_DONE (R433). -/
  | jobDone (w : WellId)
  /-- FAULT (R436). -/
  | fault (w : WellId)
  /-- FAULT_RECORD (R437). -/
  | faultRecord
  /-- XLATE_TIMEOUT (R438). -/
  | xlateTimeout (f : FrontId) (index : Fin 64)
  /-- FAULT_RECORD_EXPIRE (R437). -/
  | faultRecordExpire (k : Nat)
  /-- JOB_CLEAR_COMPLETE (R434). -/
  | jobClearComplete (slot : Fin 32)
  /-- SCRUB_PASS_START (R450). -/
  | scrubPassStart (core : Fin 2) (mem : ScrubMem)
  /-- STORE_SCRUB_READ (R451). -/
  | storeScrubRead (core : Fin 2) (mem : ScrubMem) (addr : BitVec 44)
  /-- SCRUB_LATE (R448). -/
  | scrubLate (core : Fin 2) (mem : ScrubMem)
  /-- SCRUB_STACKS (R449). -/
  | scrubStacks (core : Fin 4)
  /-- SCRUB_CISTERN (R449). -/
  | scrubCistern (core : Fin 4)
  /-- SCRUB_STORES (R449). -/
  | scrubStores (core : Fin 4)
  /-- LINK_RETRAIN (R449). -/
  | linkRetrain (core : Fin 4)
  /-- WEAR_UPDATE (R449). -/
  | wearUpdate (core : Fin 4) (readings : List WearReading)
  /-- WEAR_SAVE (R463). -/
  | wearSave (core : Fin 4) (ok : Bool)
  /-- LASER_BIAS_TRIM (R453). -/
  | laserBiasTrim (l : LinkId) (txpwr : BitVec 16) (trained : BitVec 16)
  /-- RECEIVER_TUNING (R453). -/
  | receiverTuning (l : LinkId)
  /-- PHY_TRACKING (R453). -/
  | phyTracking (n : StackId) (moved inRange : Bool)
  /-- MARGIN_CONTROL (R454). -/
  | marginControl (d : Fin 44) (slackPs : Int)
  /-- WEAR_HOURLY_UPDATE (R461). -/
  | wearHourlyUpdate (readings : List WearReading)
  /-- WEAR_DAILY_SAMPLE (R461). -/
  | wearDailySample
  /-- WEAR_LOG_WRITE (R463). -/
  | wearLogWrite (ok : Bool)
  /-- BASEFLOW_RESTART (R445). -/
  | baseflowRestart (core : Fin 4)
  /-- TELEMETRY_RECORD_WRITE (R467). -/
  | telemetryRecordWrite
  /-- BYVOR_DATA_FLIT (R477). -/
  | byvorDataFlit (f : ByFlit)
  /-- BYVOR_IDLE_FLIT (R471). -/
  | byvorIdleFlit (f : ByFlit)
  /-- BYVOR_MAINT_FLIT (R476). -/
  | byvorMaintFlit (f : ByFlit) (counts : Vector (BitVec 16) 7) (keyReady : Option Bool)
  /-- BYVOR_TRAIN_FLIT (R474). -/
  | byvorTrainFlit (f : ByFlit)
  /-- BYVOR_RETRY_TIMEOUT (R477). -/
  | byvorRetryTimeout
  /-- BYVOR_TRAINING_STEP_COMPLETE (R472). -/
  | byvorTrainingStepComplete (lanes : BitVec 8)
  /-- BYVOR_TRAINING_STEP_TIMEOUT (R472). -/
  | byvorTrainingStepTimeout
  /-- BYVOR_LINK_RETRY_TIMER (R472). -/
  | byvorLinkRetryTimer
  /-- BY_LCTL_TRAIN (R493). -/
  | byLctlTrain
  /-- BY_LCTL_DISABLE (R493). -/
  | byLctlDisable
  /-- BY_LCTL_RETRAIN (R493). -/
  | byLctlRetrain
  /-- HOST_LINK_DOWN (R491). -/
  | hostLinkDown
  /-- CMD (R490). -/
  | cmd (ring : Fin 4) (cseq : W64) (cmd : HostCmd)
  /-- WWRITE (R484). -/
  | wwrite (aperture : W64) (data : List Byte)
  /-- WREAD (R484). -/
  | wread (aperture : W64) (len : BitVec 10) (tag : BitVec 12)
  /-- TIME (R479). -/
  | time (ns : W64)
  /-- CREDIT (R481). -/
  | credit (class_ : BitVec 4) (amount : W64)
  /-- INPUT_UV (R494). -/
  | inputUv
  /-- INPUT_TURN_OFF (R494). -/
  | inputTurnOff
  /-- RAIL_FAULT (R495). -/
  | railFault (d : Fin 44)
  /-- PW_DOMCTL_ON (R499). -/
  | pwDomctlOn (mask : BitVec 44)
  /-- PW_DOMCTL_OFF (R499). -/
  | pwDomctlOff (mask : BitVec 44)
  /-- DOMAIN_SWITCH_COMPLETE (R499). -/
  | domainSwitchComplete (trained : BitVec 24)
  /-- POWER_EVALUATION (R501). -/
  | powerEvaluation (watts : BitVec 16) (volts : BitVec 16) (amps : BitVec 16)
  /-- CURRENT_LIMIT (R501). -/
  | currentLimit
  /-- CAP_THROTTLE (R501). -/
  | capThrottle
  /-- PW_CAP_WRITE (R502). -/
  | pwCapWrite (val : W64)
  /-- REFCLK_A_LOSS (R503). -/
  | refclkALoss
  /-- REFCLK_B_LOSS (R503). -/
  | refclkBLoss
  /-- THERMAL_SENSOR_READ (R506). -/
  | thermalSensorRead (unit : ThermalUnit) (deci : BitVec 16)
  /-- HWTRIP (R506). -/
  | hwtrip
  /-- MCTP_CONTROL_MESSAGE (R512). -/
  | mctpControlMessage (type_ : BitVec 8) (cmd : McKind) (arg : Byte)
  /-- I3C_DYNAMIC_ADDRESS (R512). -/
  | i3cDynamicAddress (setdasa : Bool) (static_ addr : BitVec 7)
  /-- GETTID_SETTID (R513). -/
  | gettidSettid (set : Option Byte)
  /-- GETPLDMVERSION_TYPES_COMMANDS (R513). -/
  | getpldmversionTypesCommands (which : Fin 3)
  /-- GETPDRREPOSITORYINFO_GETPDR (R513). -/
  | getpdrrepositoryinfoGetpdr (handle : Option Nat)
  /-- GETSENSORREADING (R513). -/
  | getsensorreading (s : SensorId)
  /-- GETSTATESENSORREADINGS (R513). -/
  | getstatesensorreadings (dom : Option (Fin 44))
  /-- SETNUMERICEFFECTERVALUE (R513). -/
  | setnumericeffectervalue (watts : BitVec 16)
  /-- GETNUMERICEFFECTERVALUE (R513). -/
  | getnumericeffectervalue
  /-- SETEVENTRECEIVER (R513). -/
  | seteventreceiver (eid : Byte)
  /-- POLLFORPLATFORMEVENTMESSAGE (R513). -/
  | pollforplatformeventmessage
  /-- PLATFORMEVENTMESSAGE (R513). -/
  | platformeventmessage
  /-- BYPASS (R514). -/
  | bypass
  /-- IDCODE (R514). -/
  | idcode
  /-- SAMPLE_PRELOAD (R514). -/
  | samplePreload (preload : List Bool)
  /-- EXTEST (R514). -/
  | extest
  /-- HIGHZ (R514). -/
  | highz
  /-- CLAMP (R514). -/
  | clamp
  /-- TRST_N (R514). -/
  | trstN
  /-- GET_CERTS (R524). -/
  | getCerts (req : W64)
  /-- ATTEST (R526). -/
  | attest (req : W64)
  /-- KEY_LOAD (R527). -/
  | keyLoad (req : W64)
  /-- DEBUG_CHALLENGE (R530). -/
  | debugChallenge (req : W64)
  /-- DEBUG_UNLOCK (R531). -/
  | debugUnlock (req : W64)
  /-- DEBUG_RELOCK (R531). -/
  | debugRelock (req : W64)
  /-- ARB_ADVANCE (R522). -/
  | arbAdvance (req : W64)
  /-- FLASH_WRITE (R520). -/
  | flashWrite (req : W64)
  /-- FLASH_COMMIT (R520). -/
  | flashCommit (req : W64)
  /-- POR_N_ASSERT (R533). -/
  | porNAssert
  /-- POR_N_RELEASE (R535). -/
  | porNRelease
  /-- INPUT_TURN_ON (R533). -/
  | inputTurnOn
  /-- START_UP_STEP (R535). -/
  | startUpStep (obs : StartObs)
  /-- WARM_N (R546). -/
  | warmN
  /-- WARM (R546). -/
  | warm
  /-- BASIN (R548). -/
  | basin
  /-- WELL (R549). -/
  | well (w : WellId) (pass : Bool)
  /-- PHASE_UPDATE (R342). -/
  | phaseUpdate
  /-- WEIR_REGULATOR_CYCLE (R319). -/
  | weirRegulatorCycle (at_ : WeirPath)
  /-- FLIT_SLOT (R362). -/
  | flitSlot (l : LinkId)
  /-- BYVOR_FLIT_SLOT (R471). -/
  | byvorFlitSlot
  /-- STAGE_IN_TRANSITION (R335). -/
  | stageInTransition (level : Bool)
  /-- BYVOR_LOSS_OF_SIGNAL (R472). -/
  | byvorLossOfSignal
  /-- SOUNDING_COMPLETE (R439). -/
  | soundingComplete
  /-- WELLHEAD_REQUEST_COMPLETE (R532). -/
  | wellheadRequestComplete
  /-- TRIG_GET_REQUEST_ARRIVAL (R278). -/
  | trigGetRequestArrival (w : WellId)
  /-- MEMBERSHIP_CHANGE (R368). -/
  | membershipChange (group : BitVec 16) (stage : W64) (list : BitVec 44) (members : List (BitVec 16))
  /-- CONTROL_PROCESSOR_MEMORY_ERROR (R455). -/
  | controlProcessorMemoryError (core : Fin 5)
  /-- CHUNK_CAPTURE_COMPLETE (R428). -/
  | chunkCaptureComplete (addr : BitVec 44)
  deriving DecidableEq, Repr

end Sys2Proof
end

