-- ==== Sys2Proof/Machine/State.lean ====
section
/-! DEFINITION. The state of the Quozenas 848: every register, buffer, queue and mode that spec 00-18 give it, as
plain data, and State.reset, the device right after power-on reset (R7, R533). -/

namespace Sys2Proof.Machine

/-- Why a step stops with a fault. -/
inductive Fault where
  /-- Raised by the shared issue operation when the sender gives an instruction word of one row under the command of
  another row; no such command exists. Safe: the model stops. -/
  | wrongRow (mnemonic : String)
  deriving DecidableEq, Repr

/-- Why a command is refused. -/
inductive Refusal where
  /-- Raised by Dispatch for a command that has no meaning yet. Safe: the model stops. -/
  | notModelled (mnemonic : String)
  deriving DecidableEq, Repr

/-- A fault report on its way to the Headwater fault pair (R436): unit ID of R32, class, the stage it names and a
detail word of the reporting unit. -/
structure Report where
  unit   : BitVec 16
  cls    : BitVec 8
  stage  : W64
  detail : W64
  /-- The job concerned where the reporter knows it, else 0xFFFF. -/
  job    : BitVec 16
  /-- Jobs whose replay under way it has joined (R423, R437). -/
  joined : List (Fin 32)
  deriving DecidableEq, Repr, Inhabited

/-- A named register of the Windlass or Flume that carries parity (R164, R125). -/
inductive RegRef where
  | g (shadow : Bool) (n : Fin 32) | q (n : Fin 16) | csr (addr : BitVec 12) | v (n : Fin 32) | m (n : Fin 8)
  deriving DecidableEq, Repr, Inhabited

/-- What an open load writes (R173, R175). -/
inductive LoadDest where
  | g (shadow : Bool) (n : Fin 32) | q (n : Fin 16)
  deriving DecidableEq, Repr, Inhabited

/-- An open load window (R173): the value, or none when an uncorrectable error was found in the data (R179), and the
instructions left in the window. -/
structure LoadWindow where
  dest  : LoadDest
  value : Option (BitVec 128)
  ea    : W64
  left  : Nat
  deriving DecidableEq, Repr, Inhabited

/-- VTYPE (R126). -/
structure VType where
  tset   : Bool
  falt   : Bool
  ebytes : BitVec 4
  deriving DecidableEq, Repr, Inhabited

/-- The modes that change late (R184): STATUS.IE, STATUS.BANK, RING, FFLAGS.FRM, VTYPE. -/
structure Modes where
  ie    : Bool
  bank  : Bool
  ring  : BitVec 2
  frm   : BitVec 3
  vtype : VType
  deriving DecidableEq, Repr, Inhabited

/-- The mode that one open mode-change window will put in effect (R184). -/
inductive ModeVal where
  | ie (b : Bool) | ring (r : BitVec 2) | frm (f : BitVec 3) | vtype (t : VType)
  deriving DecidableEq, Repr, Inhabited

/-- An open mode-change window (R184). -/
structure ModeWindow where
  val  : ModeVal
  left : Nat
  deriving DecidableEq, Repr, Inhabited

/-- A store-buffer entry (R194): an aligned 8 B word with byte enables. -/
structure SbEntry where
  word : BitVec 24
  be   : BitVec 8
  data : W64
  deriving DecidableEq, Repr, Inhabited

/-- A line of the I-cache (R188): ASID, line address (VA[55:6]), its 64 bytes, and whether its parity is bad (R190). -/
structure ICacheLine where
  asid : BitVec 16
  line : BitVec 50
  data : List Byte
  bad  : Bool
  deriving DecidableEq, Repr, Inhabited

/-- Why the Windlass waits at an instruction; the instruction is sent again when the wait may be over (R177). -/
inductive Stall where
  | mrQueueFull | mfence | tagWait | scoreboard | wsModePend | pumpQueueFull | pumpResolve | counterWait | counterGet
  | mailWait | flumeWindow | flumeWrite | flumeSpan | flumeCheck | vwait | csrWait | wfi | icinv | mhalt | refetch | parity | heldForInterrupt | invBusy | walkFault
  deriving DecidableEq, Repr, Inhabited

/-- A synchronous fault found before or at issue: CAUSE.CODE and EINFO. -/
structure FaultInfo where
  code : BitVec 8
  info : W64
  deriving DecidableEq, Repr, Inhabited

/-- The exception and interrupt registers of R209 held in words with their map positions. -/
structure ExcRegs where
  cause   : W64
  epc     : W64
  einfo   : W64
  estatus : W64
  entry   : W64
  entryR1 : W64
  xsp     : BitVec 24
  xbase   : BitVec 24
  xlimit  : BitVec 24
  edepth  : BitVec 16
  sltbase : W64
  ienable : BitVec 11
  ipend   : BitVec 11
  ideleg  : BitVec 11
  edeleg  : W64
  timecmp : BitVec 48
  deriving DecidableEq, Repr, Inhabited

/-- A count with its sticky overflow bit (R166, R263). -/
structure Counter48 where
  ovf   : Bool
  count : BitVec 48
  deriving DecidableEq, Repr, Inhabited

/-- The Windlass core (R161-R209). -/
structure Windlass where
  gN        : Vector W64 32
  gS        : Vector W64 32
  q         : Vector (BitVec 128) 16
  pc        : BitVec 56
  running   : Bool
  wedged    : Bool
  badRegs   : List RegRef
  skipNext  : Bool
  /-- Modes as a CSR read returns them. -/
  wr        : Modes
  /-- Modes in effect (R184). -/
  eff       : Modes
  modeWins  : List ModeWindow
  loads     : List LoadWindow
  stall     : Option Stall
  storeBuf  : List SbEntry
  /-- FI DZ NX UF OF NV (R43). -/
  flags     : BitVec 6
  /-- Flags of issued DJ-Q instructions that have not completed, oldest first (R200). -/
  djq       : List (BitVec 6)
  wasid     : BitVec 16
  fetchAsid : BitVec 16
  drlim     : BitVec 12
  cycle     : Counter48
  instret   : Counter48
  exc       : ExcRegs
  icache    : List ICacheLine
  /-- A fetch fault that waits for its boundary (R190). -/
  fetchFault : Option FaultInfo
  /-- Deferred Millrace and Flume faults that are due (R117, R153). -/
  deferred  : List FaultInfo
  stageNumber : W64
  stagePhase  : BitVec 16
  /-- Destinations of issued `trig.get` instructions not yet written, oldest first (R278). -/
  getPend   : List (Bool × Fin 32)
  /-- REG_PARITY has been taken: only its ring-0 handler issues until the well is cleared (R164). -/
  parityStop : Bool
  /-- I-cache hits whose parity was bad and whose lines were refetched (R190). -/
  refetches : Counter48
  deriving DecidableEq, Repr, Inhabited

/-- A byte span of the well window and whether the holder writes it. -/
structure Span where
  lo    : BitVec 24
  hi    : BitVec 24
  write : Bool
  deriving DecidableEq, Repr, Inhabited

/-- The queues in which the Flume's function units take their instructions (R138): the store port reads and writes side by side. -/
inductive FUnit where
  | fma | integer | convert | permute | load | store
  deriving DecidableEq, Repr, Inhabited

/-- An issued, incomplete Flume instruction (R139, R151): its address, the flags it will OR into FFLAGS, the g register
it still has to write, the span it holds, and a deferred fault it will raise with the vector or mask register or the well-window
offset concerned (R153, R156). -/
structure FlumeEntry where
  addr  : BitVec 56
  flags : BitVec 6
  gdest : Option (Bool × Fin 32 × W64)
  span  : Option Span
  err   : Option (BitVec 8 × W64)
  unit  : FUnit
  /-- Vector and mask registers it reads and writes. -/
  reads : List RegRef
  writes : List RegRef
  /-- It waits for its sources to be complete (R139). -/
  whole : Bool
  /-- Bytes of a vector register that it works through. -/
  bytes : Nat
  /-- Its place in the order of issue, the model's own count. -/
  seq   : Nat
  deriving DecidableEq, Repr, Inhabited

/-- The Flume (R125-R157). -/
structure Flume where
  v       : Vector (BitVec 16384) 32
  m       : Vector (BitVec 2048) 8
  vl      : BitVec 12
  vstart  : BitVec 11
  window  : List FlumeEntry
  /-- V_STORE_ERR or V_PARITY has stopped the Flume (R156): the code and the address of the instruction. -/
  stopped : Option (BitVec 8 × W64)
  /-- The vector register or well-window offset that the record of that fault names (R156). -/
  stopDetail : W64
  /-- Flume instructions issued so far, the model's own count. -/
  issued : Nat
  deriving DecidableEq, Repr, Inhabited

/-- MR_TSTAT.STATE (R91). -/
inductive TileState where
  | uninit | empty | active
  deriving DecidableEq, Repr, Inhabited

/-- The sideband of one accumulator index (R108-R110). BUSY is not stored: it follows from the queue (R92). -/
structure Tile where
  st       : TileState
  mode     : BitVec 4
  ea       : Bool
  eb       : Bool
  ovfm     : Bool
  preset   : Bool
  anchored : Bool
  anchor   : BitVec 16
  sc       : BitVec 4
  poison   : Bool
  tovf     : Bool
  raLoss   : Bool
  sticky   : Bool
  special  : Bool
  fi       : Bool
  anv      : Bool
  /-- F_NX, F_UF, F_OF, F_NV in bits 3:0. -/
  fin      : BitVec 4
  fvalid   : Bool
  frow     : BitVec 8
  fcol     : BitVec 7
  pbound   : BitVec 16
  tpanels  : BitVec 34
  nan      : BitVec 8192
  posInf   : BitVec 8192
  negInf   : BitVec 8192
  deriving DecidableEq, Repr, Inhabited

/-- An entry of the Millrace queue as R121 lays it out, with the FI and NV that its passes have met so far (R100) and how many Flume
instructions had issued before it (R152). -/
structure MrEntry where
  word : W64
  s1   : W64
  s2   : W64
  s3   : W64
  addr : BitVec 56
  rm   : BitVec 3
  pass : BitVec 8
  ctr  : BitVec 12
  flags : BitVec 6
  fseq : Nat
  deriving DecidableEq, Repr, Inhabited

/-- MR_PROGRESS.REASON (R118). -/
inductive MrReason where
  | none | halted | fault
  deriving DecidableEq, Repr, Inhabited

/-- The Millrace (R83-R124). -/
structure Millrace where
  tiles    : Vector Tile 16
  queue    : List MrEntry
  frozen   : Bool
  reason   : MrReason
  fcode    : BitVec 8
  /-- Operand bytes that the head's pass has read, in order: weight block, B scales, then the rows (R83, R107). -/
  loaded   : List Byte
  /-- Bytes of the next pass's weight block and B scales that the loader has read ahead (R83, R106). -/
  ahead    : List Byte
  /-- The head is held by a tag wait inside a pass, or inside `mfin` (R107, R119). -/
  inPass   : Bool
  /-- Destination slots that the head `mfin` has written (R101). -/
  finDone  : Nat
  /-- An `mhalt` or a wedge waits for the next stopping point (R119, R224, R230). -/
  haltReq  : Bool
  /-- Pass, row and column of the last MR_RESIDUE or MR_STORE_ERR (R115). -/
  badPass  : BitVec 8
  badRow   : BitVec 8
  badCol   : BitVec 7
  /-- MR_TRIGWIN (R111). -/
  trigBase : BitVec 12
  trigCount : BitVec 13
  deriving DecidableEq, Repr, Inhabited

/-- An agent that honours tags (R238): a Pump's descriptor by its submission number, an engine's operation by its name. -/
inductive TagAgent where
  | windlass | flume | millrace | pump (p : PumpId) (seq : BitVec 32) | engine (e : EngineId) (op : Nat)
  deriving DecidableEq, Repr, Inhabited

/-- How a tag-honouring access uses a slot (R239). -/
inductive TagUse where
  | produce | consume | leaveFull
  deriving DecidableEq, Repr, Inhabited

/-- A wait on a slot (R240), in the order the waits began. -/
structure Waiter where
  slot  : SlotId
  agent : TagAgent
  use   : TagUse
  deriving DecidableEq, Repr, Inhabited

/-- Bank states of R254. -/
inductive BankState where
  | off | open | closed | changing
  deriving DecidableEq, Repr, Inhabited

/-- Commands of R256. -/
inductive BankCmd where
  | close | off | clear | open
  deriving DecidableEq, Repr, Inhabited

/-- A bank command in progress: its mask and whether the drain is complete. -/
structure BankOp where
  cmd     : BankCmd
  mask    : BitVec 28
  drained : Bool
  deriving DecidableEq, Repr, Inhabited

/-- The well stores' registers and tags (R234-R263); their bytes lie in the device memory. -/
structure Stores where
  /-- Bit s: slot s is full. -/
  tags      : BitVec 14336
  claims    : List (SlotId × TagAgent)
  waiters   : List Waiter
  /-- WS_MODE: MODE (true: scoreboard mode), PEND, ERR, IMAGE, INIT. -/
  scoreboard : Bool
  pend      : Bool
  modeErr   : BitVec 3
  image     : BitVec 24
  init      : BitVec 2
  banks     : Vector BankState 28
  bankOp    : Option BankOp
  bankErr   : BitVec 3
  peak      : BitVec 4
  stalled   : Bool
  limit     : BitVec 16
  woff      : BitVec 24
  cecnt     : Counter48
  elast     : W64
  /-- Groups of 64 tags whose parity is bad, and whether the record has been sent (R253). -/
  tagBad    : List (Fin 224 × Bool)
  /-- Words of data RAM (offset divided by 8) whose next write meets an uncorrectable write error (R224). -/
  wbad      : List (BitVec 24)
  deriving DecidableEq, Repr, Inhabited

/-- A well: its Windlass, Flume, Millrace and stores (R14). -/
structure Well where
  cpu    : Windlass
  flume  : Flume
  mr     : Millrace
  st     : Stores
  /-- WM_OUT holds a message that Headwater has not taken (R419). -/
  mailOut : Option W64
  /-- WM_IN (R419). -/
  mailIn  : W64
  deriving DecidableEq, Repr, Inhabited

/-- VTYPE with no type set (R126). -/
def VType.reset : VType := { tset := false, falt := false, ebytes := 0 }

/-- Modes after reset (R166, R43, R126): ring 0, normal bank, IE 0, FRM RNE. -/
def Modes.reset : Modes := { ie := false, bank := false, ring := 0, frm := 1, vtype := VType.reset }

/-- R209's Reset column. -/
def ExcRegs.reset : ExcRegs :=
  { cause := 0, epc := 0, einfo := 0, estatus := 0, entry := 0, entryR1 := 0, xsp := 0, xbase := 0, xlimit := 0,
    edepth := 0, sltbase := 0, ienable := 0, ipend := 0, ideleg := 0, edeleg := 0, timecmp := 0 }

/-- A counter at zero. -/
def Counter48.reset : Counter48 := { ovf := false, count := 0 }

/-- R166, R205, R209. The pc and the fetch ASID have no reset value in the spec: zero (DESIGN CHOICE, log 3). -/
def Windlass.reset : Windlass :=
  { gN := Vector.replicate 32 0, gS := Vector.replicate 32 0, q := Vector.replicate 16 0, pc := 0, running := false,
    wedged := false, badRegs := [], skipNext := false, wr := Modes.reset, eff := Modes.reset, modeWins := [],
    loads := [], stall := none, storeBuf := [], flags := 0, djq := [], wasid := 0, fetchAsid := 0, drlim := 0x720,
    cycle := Counter48.reset, instret := Counter48.reset, exc := ExcRegs.reset, icache := [], fetchFault := none,
    deferred := [], stageNumber := 0, stagePhase := 0, getPend := [], parityStop := false,
    refetches := Counter48.reset }

/-- R157. -/
def Flume.reset : Flume :=
  { v := Vector.replicate 32 0, m := Vector.replicate 8 0, vl := 0, vstart := 0, window := [], stopped := none, stopDetail := 0,
    issued := 0 }

/-- A sideband that reads as zero (R94, R108). -/
def Tile.reset : Tile :=
  { st := .uninit, mode := 0, ea := false, eb := false, ovfm := false, preset := false, anchored := false, anchor := 0,
    sc := 0, poison := false, tovf := false, raLoss := false, sticky := false, special := false, fi := false,
    anv := false, fin := 0, fvalid := false, frow := 0, fcol := 0, pbound := 0, tpanels := 0, nan := 0, posInf := 0,
    negInf := 0 }

/-- R94, R111, R118. -/
def Millrace.reset : Millrace :=
  { tiles := Vector.replicate 16 Tile.reset, queue := [], frozen := false, reason := .none, fcode := 0, loaded := [], ahead := [],
    inPass := false, finDone := 0, haltReq := false, badPass := 0, badRow := 0, badCol := 0, trigBase := 0, trigCount := 0 }

/-- R248, R261-R263: scoreboard mode, every bank OFF, no error. -/
def Stores.reset : Stores :=
  { tags := 0, claims := [], waiters := [], scoreboard := true, pend := false, modeErr := 0, image := 0, init := 0,
    banks := Vector.replicate 28 .off, bankOp := none, bankErr := 0, peak := 0, stalled := false,
    limit := 0, woff := 0, cecnt := Counter48.reset, elast := 0, tagBad := [], wbad := [] }

/-- A well after power-on reset. -/
def Well.reset : Well :=
  { cpu := Windlass.reset, flume := Flume.reset, mr := Millrace.reset, st := Stores.reset, mailOut := none,
    mailIn := 0 }

/-- A queued descriptor (R265, R283): its submitted words, what hand-over captured, and how far it has run. -/
structure Desc where
  words   : Vector W64 8
  seq     : BitVec 32
  asid    : BitVec 16
  ring    : BitVec 2
  /-- Absolute counters formed at hand-over (R112). -/
  ctr     : BitVec 12
  wctr    : BitVec 12
  /-- Resolved source and destination (R283); zero while unresolved. -/
  rsrc    : W64
  rdst    : W64
  /-- Virtual pages that RSRC and RDST translate. -/
  vpS     : Nat
  vpD     : Nat
  started : Bool
  /-- Bytes of the shape whose accesses have issued (R266, R274). -/
  pos     : Nat
  /-- Status of the first error met (R277). -/
  err     : Option (BitVec 8)
  /-- The endpoint is held by a translation fault: front end and record (R286). -/
  heldS   : Option (FrontId × Fin 64)
  heldD   : Option (FrontId × Fin 64)
  /-- A translation of the endpoint has been asked for and has not come: source, destination. -/
  walkS   : Bool
  walkD   : Bool
  /-- The page after the one that the endpoint's field holds has been asked for (R284). -/
  aheadS  : Bool
  aheadD  : Bool
  /-- Hand-over to the front end waits for the cut of an earlier `inv.as` of the same Windlass (R290). -/
  waitCut : Bool
  /-- Waits on a tag (PU_STAT.WAITING). -/
  waiting : Bool
  /-- Remote accesses outstanding (R274). -/
  remote  : Nat
  /-- Spans of the well's own stores that the descriptor holds in scoreboard mode (R245). -/
  spans   : List Span
  deriving DecidableEq, Repr, Inhabited

/-- A Pump (R264, R291). -/
structure Pump where
  queue   : List Desc
  nextSeq : BitVec 32
  doneSeq : BitVec 32
  errValid : Bool
  errStatus : BitVec 8
  errSeq  : BitVec 32
  nerr    : BitVec 16
  /-- A translation record that held the hand-over of the next submission was aborted (R245, R289). -/
  abortHand : Bool
  deriving DecidableEq, Repr, Inhabited

/-- Who asks a front end for a translation (R282, R386): a Pump endpoint (source or destination) of a submission, which asks early while
it works on the page before (R284), the fetch port of a well, or an operation of a Confluence engine. -/
inductive Requester where
  | pump (p : PumpId) (seq : BitVec 32) (dst early : Bool)
  | fetch (w : WellId)
  | engine (e : EngineId) (op : Nat)
  deriving DecidableEq, Repr, Inhabited

/-- A cached translation (R282): ASID, size (true: 4 GiB), VA page, global frame address, rights A W R. -/
structure TlbEntry where
  asid   : BitVec 16
  big    : Bool
  page   : Nat
  frame  : Nat
  rights : BitVec 3
  deriving DecidableEq, Repr, Inhabited

/-- A walk-cache entry (R282): the pointer read at a level (0 ASID table, 1 L1, 2 L2) for the VA prefix. -/
structure WalkEntry where
  asid  : BitVec 16
  level : Fin 3
  pre   : Nat
  next  : Nat
  deriving DecidableEq, Repr, Inhabited

/-- A walk in flight (R282): the requesters that wait for it with their needed rights, first requester first. -/
structure Walk where
  asid : BitVec 16
  va   : BitVec 56
  reqs : List (Requester × BitVec 3)
  deriving DecidableEq, Repr, Inhabited

/-- A translation fault record (R286, R292). REQ and FETCHREQ follow from the requesters held. -/
structure FaultRec where
  ftype  : BitVec 3
  rights : BitVec 3
  level  : BitVec 2
  asid   : BitVec 16
  va     : BitVec 56
  held   : List (Requester × BitVec 56 × BitVec 3)
  fetches : BitVec 32
  joins  : BitVec 16
  deriving DecidableEq, Repr, Inhabited

/-- A translation front end (R282, R288, R292). -/
structure Front where
  tlb      : List TlbEntry
  walkCache : List WalkEntry
  walks    : List Walk
  records  : Vector (Option FaultRec) 64
  /-- Requesters whose walk has failed and that wait, unrecorded, for a free record (R288): what they need, and the fault. -/
  waiters  : List (Requester × BitVec 16 × BitVec 56 × BitVec 3 × BitVec 3 × BitVec 2)
  fullwait : BitVec 8
  badresp  : Bool
  deriving DecidableEq, Repr, Inhabited

/-- An admitted invalidation (R290): its ASID, the counter its completion increments, the well that issued it (none for
Headwater), and whether its cut has passed. -/
structure Inval where
  asid : BitVec 16
  ctr  : Option (BitVec 12)
  well : Option WellId
  cut  : Bool
  /-- Tags of the remote accesses that were outstanding under a translation from before the cut. -/
  tags : List (BitVec 12)
  deriving DecidableEq, Repr, Inhabited

/-- A Pump with an empty queue (R291). -/
def Pump.reset : Pump :=
  { queue := [], nextSeq := 0, doneSeq := 0xFFFFFFFF, errValid := false, errStatus := 0, errSeq := 0, nerr := 0,
    abortHand := false }

/-- A front end after reset (R292). -/
def Front.reset : Front :=
  { tlb := [], walkCache := [], walks := [], records := Vector.replicate 64 none, waiters := [], fullwait := 0,
    badresp := false }


/-- Frame states of R299. -/
inductive FrameState where
  | off | cache | scratch | closed | changing
  deriving DecidableEq, Repr, Inhabited

/-- Commands of R305. -/
inductive FrameCmd where
  | close | off | clear | toscratch | tocache | open
  deriving DecidableEq, Repr, Inhabited

/-- A frame command in progress: the frames it changes, the states they came from, and whether the drain is complete. -/
structure FrameOp where
  cmd     : FrameCmd
  mask    : BitVec 16
  drained : Bool
  deriving DecidableEq, Repr, Inhabited

/-- A Cistern half's registers and frames (R293, R299, R327-R329). -/
structure CisternHalf where
  /-- Frame index 8j + f (R328). -/
  frames : Vector FrameState 16
  op     : Option FrameOp
  err    : BitVec 3
  /-- A CI_MAINT command in progress; true invalidates. -/
  maint  : Option Bool
  lcrun  : BitVec 8
  cecnt  : Counter48
  elast  : W64
  hits   : Counter48
  misses : Counter48
  wbacks : Counter48
  lcreqs : Counter48
  /-- Trees of the sets that have been used (R296): slice, set, one bit for each inner node of the 16-way tree, node 0 the root. -/
  plru   : List (Fin 32 × Fin 4096 × BitVec 15)
  deriving DecidableEq, Repr, Inhabited

/-- A line held by a CACHE frame (R293-R295): its place, its line address PA[43:8], and the valid and dirty bits of its
sectors. The coherent bytes lie in the device memory. -/
structure CLine where
  half  : HalfId
  slice : Fin 32
  set   : Fin 4096
  way   : Fin 16
  line  : BitVec 36
  valid : BitVec 4
  dirty : BitVec 4
  deriving DecidableEq, Repr, Inhabited

/-- What is wrong with a stack sector (R311, R313). -/
inductive StackErr where
  | oneSymbol | symbols | addrCheck | poison
  deriving DecidableEq, Repr, Inhabited

/-- A request that waits at its pseudo-channel (R315, R316): its sector (address divided by 64), whether bytes are merged into the sector
when it comes, its class, and how many LC reads in a row have passed it. -/
structure StackReq where
  sector : Nat
  merge  : Bool
  cls    : ReqClass
  passed : Nat
  deriving DecidableEq, Repr, Inhabited

/-- The row last opened in a bank of a pseudo-channel, and the row hits it has served (R316). -/
structure OpenRow where
  pc   : Fin 64
  bank : Nat
  row  : Nat
  hits : Nat
  deriving DecidableEq, Repr, Inhabited

/-- A stack controller (R330). -/
structure StackCtl where
  trained : Bool
  hot     : Bool
  temp    : BitVec 8
  retrain : BitVec 16
  cecnt   : Counter48
  odecc   : Counter48
  elast   : W64
  rdbytes : Counter48
  wrbytes : Counter48
  /-- Requests that wait at the pseudo-channels, oldest first (R316). -/
  queue   : List StackReq
  rows    : List OpenRow
  deriving DecidableEq, Repr, Inhabited

/-- Whose request waits at a weir (R318): an access of a Pump's descriptor or of an engine's operation, a walk of a front end, a fetch, a
packet of the fabric, an access through a host window (a read by its tag). -/
inductive WeirUser where
  | pump (p : PumpId) (seq : BitVec 32) | engine (e : EngineId) (op : Nat) | walk (f : FrontId) | fetch (w : WellId)
  | packet (src : BitVec 16) (tag : BitVec 12) | host (tag : Option (BitVec 12))
  deriving DecidableEq, Repr, Inhabited

/-- WEIR_CFG, WEIR_CNT and the buckets of one basin at one direction of a weir (R319, R331), its waiting requests with their sizes, and
the users whose requests have been granted and have not crossed yet. -/
structure Weir where
  en    : Bool
  ceil  : BitVec 9
  floor : BitVec 9
  depth : BitVec 8
  cnt   : Counter48
  fl    : Nat
  ce    : Nat
  queue : List (WeirUser × Nat)
  granted : List WeirUser
  deriving DecidableEq, Repr, Inhabited

/-- A physical run of a protected buffer (R427). -/
structure ProtRun where
  job : Fin 32
  lo  : Nat
  hi  : Nat
  deriving DecidableEq, Repr, Inhabited

/-- A half after reset (R299, R328, R329): every frame OFF. -/
def CisternHalf.reset : CisternHalf :=
  { frames := Vector.replicate 16 .off, op := none, err := 0, maint := none, lcrun := 0x20, cecnt := Counter48.reset,
    elast := 0, hits := Counter48.reset, misses := Counter48.reset, wbacks := Counter48.reset, lcreqs := Counter48.reset, plru := [] }

/-- A stack controller after reset (R330). -/
def StackCtl.reset : StackCtl :=
  { trained := false, hot := false, temp := 0, retrain := 0, cecnt := Counter48.reset, odecc := Counter48.reset,
    elast := 0, rdbytes := Counter48.reset, wrbytes := Counter48.reset, queue := [], rows := [] }

/-- A weir register pair after reset (R331). -/
def Weir.reset : Weir :=
  { en := false, ceil := 0x100, floor := 0, depth := 0x10, cnt := Counter48.reset, fl := 0, ce := 0, queue := [], granted := [] }

/-- An event packet's contents (R488): sequence number, TYPE, job handle, payload words 2-7. -/
structure Evt where
  seq   : W64
  type_ : BitVec 8
  job   : BitVec 16
  words : List W64
  deriving DecidableEq, Repr, Inhabited
/-- A trigger counter (R375, R410). -/
structure TrigCounter where
  value  : BitVec 32
  sat    : Bool
  staged : Bool
  deriving DecidableEq, Repr, Inhabited

/-- What is under way to a trigger counter (R376, R278): an addition, or a `trig.get` request of a well. -/
inductive InFlight where
  | inc (src : IncSource) (ctr : BitVec 12) (amount : BitVec 32)
  | get (w : WellId) (ctr : BitVec 12)
  deriving DecidableEq, Repr, Inhabited

/-- An event on its way through a well's synchroniser (R550): an interrupt line, the arrival of which sets IPEND. -/
structure SyncEvent where
  well : WellId
  line : Fin 11
  deriving DecidableEq, Repr, Inhabited


/-- Job states of R415. -/
inductive JobState where
  | free | loading | loaded | running | paused | stopping | clearing
  deriving DecidableEq, Repr, Inhabited

/-- A reach record (R421). -/
structure ReachRec where
  reach    : W64
  number   : BitVec 48
  attempt  : BitVec 8
  vmap     : List WellId
  counters : List (BitVec 32)
  consumed : List (BitVec 32)
  deriving DecidableEq, Repr, Inhabited

/-- What Headwater continues with once a job's units have stopped: the replay of its reach (R423), the rollback of its stage (R431), or
its end (R433). -/
inductive JobCont where
  | replay | rollback | finish
  deriving DecidableEq, Repr, Inhabited

/-- A job slot (R415-R432). -/
structure Job where
  state      : JobState
  gen        : BitVec 11
  basin      : BitVec 2
  stageBound : Bool
  double     : Bool
  groups     : BitVec 32
  /-- Physical well of each virtual well. -/
  vmap       : List WellId
  banks      : BitVec 28
  frames     : List (HalfId × Fin 16)
  ctrBase    : BitVec 12
  ctrCount   : BitVec 13
  queues     : List (EngineId × Fin 16)
  monitor    : BitVec 44
  protVa     : W64
  nprot      : BitVec 11
  xtimeout   : BitVec 16
  preimg     : W64
  reach      : W64
  cur        : ReachRec
  ckpt       : ReachRec
  /-- The reach has escaped (R422). -/
  escaped    : Bool
  replays    : BitVec 16
  replaysAll : BitVec 16
  lastStage  : W64
  reachDone  : List WellId
  stageDone  : List WellId
  jobDone    : List WellId
  endStatus  : BitVec 32
  /-- Generation G, the chunks captured in it, and the pre-image log (R428-R430). -/
  genG       : W64
  captured   : List Nat
  log        : List (Nat × List Byte)
  /-- Commands and fault decisions, newest first (R421). -/
  history    : List (BitVec 8 × W64)
  /-- Leaves that MAP has written and not withdrawn: VA, global address, 4 GiB. -/
  leaves     : List (BitVec 56 × BitVec 60 × Bool)
  /-- Paused for want of event buffer (R444): the reach it waits to start. -/
  paused     : Bool
  /-- Replays of the current reach in the attempt (R424). -/
  reachReplays : Nat
  /-- What Headwater does next with the job, once the units that it is stopping have stopped. -/
  cont       : Option JobCont
  /-- The ring-0 monitor as JOB_LOAD verified it (R417). -/
  mon        : Monitor
  /-- Stack pages that are still to be handed to the bulk Pumps as ZERO descriptors (R434). -/
  zeroes     : List (Nat × Nat)
  deriving DecidableEq, Repr, Inhabited

/-- An empty record. -/
def ReachRec.reset : ReachRec := { reach := 0, number := 0, attempt := 0, vmap := [], counters := [], consumed := [] }

/-- An empty monitor. -/
def noMonitor : Monitor := { ram := [], entry := 0, xsp := 0, xbase := 0, xlimit := 0, sltbase := 0, drlim := 0 }

/-- A job slot at power-on. -/
def Job.reset : Job :=
  { state := .free, gen := 0, basin := 0, stageBound := false, double := false, groups := 0, vmap := [], banks := 0,
    frames := [], ctrBase := 0, ctrCount := 0, queues := [], monitor := 0, protVa := 0, nprot := 0, xtimeout := 0,
    preimg := 0, reach := 0, cur := ReachRec.reset, ckpt := ReachRec.reset, escaped := false, replays := 0, replaysAll := 0,
    lastStage := 0, reachDone := [], stageDone := [], jobDone := [], endStatus := 0, genG := 0, captured := [],
    log := [], history := [], leaves := [], paused := false, reachReplays := 0, cont := none, mon := noMonitor, zeroes := [] }

/-- An event slot (R348): its words in force, writes that wait for the next mark, and its firings. -/
structure Slot where
  w0 : W64
  w1 : W64
  w2 : W64
  p0 : Option W64
  p1 : Option W64
  p2 : Option W64
  fired   : Bool
  lastAtt : BitVec 8
  lastNum : BitVec 48
  /-- Fired in the current attempt; fired in an earlier attempt of the same stage (R350). -/
  now     : Bool
  earlier : Bool
  deriving DecidableEq, Repr, Inhabited

/-- A mark: REPEAT or ADVANCE, its number, attempt and time (R334, R338). -/
structure Mark where
  rep     : Bool
  number  : W64
  attempt : BitVec 8
  time    : W64
  deriving DecidableEq, Repr, Inhabited

/-- A firing that waits for its dispatch (R350): the slot, its words 0 and 2 as it fired, and the NUMBER and ATTEMPT it belongs to. -/
structure Firing where
  slot    : Fin 256
  w0      : W64
  w2      : W64
  number  : W64
  attempt : BitVec 8
  deriving DecidableEq, Repr, Inhabited

/-- The stage time base (R332-R353). -/
structure Stage where
  role    : BitVec 2
  source  : BitVec 2
  basin   : BitVec 2
  maxrep  : BitVec 8
  group   : BitVec 16
  number  : W64
  sync    : BitVec 2
  clamped : Bool
  late    : Bool
  attempt : BitVec 8
  lastKind : BitVec 4
  phase   : BitVec 16
  l       : BitVec 40
  linit   : BitVec 40
  timeout : BitVec 8
  deadline : BitVec 24
  minstep : BitVec 24
  wirecomp : BitVec 16
  rillhop : BitVec 16
  sLate   : Bool
  mismatch : Bool
  stuck   : Bool
  acked   : Bool
  stalew  : BitVec 8
  wiremiss : BitVec 8
  repeats : BitVec 16
  conflict : BitVec 8
  tmark   : W64
  /-- ST_TIMER.T. -/
  t       : W64
  /-- A mark has been adopted since the last ROLE write (R341). -/
  marked  : Bool
  badslot : Bool
  badidx  : BitVec 8
  latefire : BitVec 16
  dropped : BitVec 16
  slots   : Vector Slot 256
  /-- Firings that wait for their dispatch, oldest first (R350). -/
  dispatch : List Firing
  /-- Rill marks that wait for their wire copies, oldest first (R339). -/
  held    : List Mark
  /-- The master has refused a REPEAT past MAXREPEAT: it emits no mark until ST_CFG is written (R345). -/
  halted  : Bool
  /-- The last adopted mark came from the wire (R339). -/
  byWire  : Bool
  expected : List (BitVec 16)
  ackedBy : List (BitVec 16)
  stageIn  : Bool
  stageOut : Bool
  /-- Frames that the master drives on STAGE_OUT, oldest first (R335). -/
  wireOut : List (BitVec 100)
  deriving DecidableEq, Repr, Inhabited

/-- An empty slot. -/
def Slot.reset : Slot :=
  { w0 := 0, w1 := 0, w2 := 0, p0 := none, p1 := none, p2 := none, fired := false, lastAtt := 0, lastNum := 0, now := false,
    earlier := false }

/-- R353's Reset column. -/
def Stage.reset : Stage :=
  { role := 0, source := 0, basin := 0, maxrep := 3, group := 0, number := 0, sync := 0, clamped := false, late := false,
    attempt := 0, lastKind := 0, phase := 0, l := 0, linit := 0, timeout := 0x10, deadline := 0, minstep := 0,
    wirecomp := 0, rillhop := 0x5F, sLate := false, mismatch := false, stuck := false, acked := false, stalew := 0,
    wiremiss := 0, repeats := 0, conflict := 0, tmark := 0, t := 0, marked := false, badslot := false, badidx := 0,
    latefire := 0, dropped := 0, slots := Vector.replicate 256 Slot.reset, dispatch := [], held := [], halted := false, byWire := false,
    expected := [], ackedBy := [], stageIn := false, stageOut := false, wireOut := [] }

/-- Link states of R359 and R472. -/
inductive LinkState where
  | disabled | training | active | retrain | down
  deriving DecidableEq, Repr, Inhabited

/-- A sent DATA flit that waits for its ACK (R358); it is resent bit for bit. -/
structure SentFlit where
  seq  : BitVec 12
  flit : Flit
  deriving DecidableEq, Repr, Inhabited

/-- What waits for transmission on a virtual channel (R356, R387). -/
inductive TxItem where
  | packet (p : Packet) | rill (dst : BitVec 16) (m : RillMsg)
  deriving DecidableEq, Repr, Inhabited

/-- A key slot: key and salt (R369). -/
structure LinkKey where
  key  : BitVec 256
  salt : BitVec 32
  deriving DecidableEq, Repr, Inhabited

/-- A Faranaor link (R354-R374). -/
structure Link where
  state  : LinkState
  /-- Training step 0-4: OPTICAL, EQUALISE, FEC_LOCK, EXCHANGE, KEY (R359). -/
  step   : Fin 5
  reason : BitVec 4
  peerLink : BitVec 8
  peerId : BitVec 16
  peerMaj : BitVec 8
  peerMin : BitVec 8
  /-- The peer's last TRAIN flit: ENCREQ, encryption supported, fabric tag; none until it arrives. -/
  peerTrain : Option (Bool × Bool × BitVec 32)
  enc    : Bool
  keyslot : Bool
  degraded : Bool
  encReq : Bool
  retryMs : BitVec 16
  /-- FB_VCCRED.CRED as written. -/
  cred   : BitVec 40
  cap0   : BitVec 8
  cap4   : BitVec 8
  w1     : BitVec 8
  w2     : BitVec 8
  w3     : BitVec 8
  bias   : BitVec 16
  bias0  : BitVec 16
  txpwr  : BitVec 16
  rxpwr  : BitVec 16
  corr   : Counter48
  uncorr : Counter48
  retry  : Counter48
  crcerr : Counter48
  autherr : Counter48
  drop   : Counter48
  weirs  : Vector Weir 4
  weirRr : Fin 4
  nextSeq : BitVec 12
  expSeq : BitVec 12
  /-- A NAK is to be sent; a NAK has been sent and its SEQ is awaited (R358). -/
  nakOwed : Bool
  nakSent : Bool
  nakSeq : BitVec 12
  nakCount : Nat
  replay : List SentFlit
  /-- How many replayed flits are still to be resent. -/
  resend : Nat
  /-- Credits held per VC, and credits that this end returned per VC modulo 2^16 (R357). -/
  credits : Vector Nat 5
  returned : Vector (BitVec 16) 5
  /-- Credits that the peer has returned per VC modulo 2^16, as counted here. -/
  seen   : Vector (BitVec 16) 5
  /-- Credits owed to the peer per VC. -/
  owed   : Vector Nat 5
  /-- Items that wait, with the basin that sends them. -/
  txq    : Vector (List (Fin 4 × TxItem)) 5
  /-- The unsent bytes of a packet whose transmission has started, per VC. -/
  txRem  : Vector (Fin 4 × List Byte) 5
  /-- The bytes of a packet that has begun to arrive, per VC. -/
  rxRem  : Vector (List Byte) 5
  /-- Flit slots in the current 256-flit window, and flits of VC0 and VC4 in it (R362). -/
  winCount : Nat
  win0   : Nat
  win4   : Nat
  deficit : Vector Nat 3
  /-- Slots since the last MAINT flit (R355). -/
  sinceMaint : Nat
  /-- Transmit slots 0 and 1, receive slots 0 and 1. -/
  keys   : Vector (Option LinkKey) 4
  peerReady : Vector Bool 2
  authRun : Nat
  keyFlits : Vector Nat 2
  extTx  : Nat
  extRx  : Nat
  keyReq : Bool
  /-- The fabric cores have yet to retrain a degraded link (R370). -/
  retrainDue : Bool
  /-- The bucket of R407, in thousandths of a report, as it stood at `rptTime`. -/
  rptTokens : Nat
  rptTime : W64
  rptDrop : Counter48
  /-- The last flit sent. -/
  out    : Option Flit
  deriving DecidableEq, Repr, Inhabited

/-- A pending membership change at this device (R368). -/
structure PendEpoch where
  epoch : BitVec 32
  stage : W64
  list  : BitVec 44
  members : List (BitVec 16)
  master : BitVec 16
  /-- Devices that have answered, at the master. -/
  oks   : List (BitVec 16)
  moves : Nat
  deriving DecidableEq, Repr, Inhabited

/-- A Rill round in progress at this device (R387): its own lanes, what its children sent, the operation that waits for it. -/
structure RillRound where
  round  : Nat
  op     : RillOp
  own    : Option (List W64)
  kids   : List (Nat × List W64)
  result : Option (List W64)
  deriving DecidableEq, Repr, Inhabited

/-- A group table entry with its CF_GRP registers (R367, R411). State: none when FREE. -/
structure Group where
  inUse   : Bool
  gid     : BitVec 16
  epoch   : BitVec 32
  members : List (BitVec 16)
  rank    : BitVec 16
  master  : BitVec 16
  list    : BitVec 44
  pend    : Option PendEpoch
  timeout : BitVec 16
  chanKind : BitVec 8
  chanValid : BitVec 8
  chanCap : Vector W64 8
  /-- Engine and post queue whose CHANNEL descriptor configured each slot: a slot goes with its job's queues (R412). -/
  chanQueue : Vector (EngineId × Fin 16) 8
  /-- SEQ of R390: collectives fired in the attempt. -/
  seq     : BitVec 16
  rounds  : List RillRound
  deriving DecidableEq, Repr, Inhabited

/-- An ingress window (R373). -/
structure Ingress where
  base   : BitVec 44
  limit  : BitVec 44
  valid  : Bool
  rights : BitVec 3
  basin  : BitVec 2
  anysrc : Bool
  group  : BitVec 16
  deriving DecidableEq, Repr, Inhabited

/-- What a RESP completes (R365): the Pump's descriptor or a host or engine access is not told apart. -/
structure RemoteReq where
  tag   : BitVec 12
  pump  : PumpId
  seq   : BitVec 32
  link  : LinkId
  dev   : BitVec 16
  bytes : Nat
  /-- Where the data of a READ goes: global address, and the address on the descriptor's destination side where the write honours the
  slot's tag; none for WRITE and ATOMIC. -/
  dest  : Option (BitVec 64 × Option Nat)
  /-- Where an ATOMIC's old value goes. -/
  ret   : Option (BitVec 24)
  deriving DecidableEq, Repr, Inhabited

/-- The fabric state of the device (R364-R374). -/
structure Far where
  links   : Vector Link 36
  fabric  : BitVec 32
  cfgId   : BitVec 16
  maxhop  : BitVec 5
  /-- FB_FABCFG has been written since DEVICE_ID was last assigned (R361). -/
  cfgNew  : Bool
  respto  : BitVec 16
  ingrej  : Counter48
  ingress : Vector Ingress 16
  groups  : Vector Group 64
  /-- Route entries that the host has written, and links that the fabric cores have taken out of every entry (R365). -/
  routes  : List (BitVec 16 × W64)
  removed : BitVec 36
  remote  : List RemoteReq
  nextTag : BitVec 12
  /-- Links whose packets R365's notices have gone out for: (SRC, DST) pairs and the time of the last notice. -/
  notices : List (BitVec 16 × BitVec 16 × W64)
  /-- READs, WRITEs and ATOMICs for this device that wait at the weirs of an I/O die's bridge, in arrival order (R318). -/
  waiting : List (Fin 2 × Packet)
  deriving DecidableEq, Repr, Inhabited

/-- R374's Reset column. -/
def Link.reset : Link :=
  { state := .disabled, step := 0, reason := 0, peerLink := 0, peerId := 0, peerMaj := 0, peerMin := 0, peerTrain := none,
    enc := false, keyslot := false, degraded := false, encReq := false, retryMs := 0x3E8, cred := 0x0204162002,
    cap0 := 0x20, cap4 := 0x10, w1 := 8, w2 := 4, w3 := 1, bias := 0, bias0 := 0, txpwr := 0, rxpwr := 0,
    corr := Counter48.reset, uncorr := Counter48.reset, retry := Counter48.reset, crcerr := Counter48.reset,
    autherr := Counter48.reset, drop := Counter48.reset, weirs := Vector.replicate 4 Weir.reset, weirRr := 0, nextSeq := 0,
    expSeq := 0, nakOwed := false, nakSent := false, nakSeq := 0, nakCount := 0, replay := [], resend := 0, credits := Vector.replicate 5 0,
    returned := Vector.replicate 5 0, seen := Vector.replicate 5 0, owed := Vector.replicate 5 0, txq := Vector.replicate 5 [],
    txRem := Vector.replicate 5 (0, []), rxRem := Vector.replicate 5 [], winCount := 0, win0 := 0, win4 := 0,
    deficit := Vector.replicate 3 0, sinceMaint := 0, keys := Vector.replicate 4 none,
    peerReady := Vector.replicate 2 false, authRun := 0, keyFlits := Vector.replicate 2 0, extTx := 0, extRx := 0, keyReq := false, retrainDue := false,
    rptTokens := 64000, rptTime := 0, rptDrop := Counter48.reset, out := none }

/-- A FREE group entry (R373, R411). -/
def Group.reset : Group :=
  { inUse := false, gid := 0, epoch := 0, members := [], rank := 0, master := 0, list := 0, pend := none, timeout := 0x7D0,
    chanKind := 0, chanValid := 0, chanCap := Vector.replicate 8 0,
    chanQueue := Vector.replicate 8 (0, 0), seq := 0, rounds := [] }

/-- R373's Reset column. -/
def Far.reset : Far :=
  { links := Vector.replicate 36 Link.reset, fabric := 0, cfgId := 0, maxhop := 0x10, cfgNew := false, respto := 0x3E8,
    ingrej := Counter48.reset,
    ingress := Vector.replicate 16 { base := 0, limit := 0, valid := false, rights := 0, basin := 0, anysrc := false, group := 0 },
    groups := Vector.replicate 64 Group.reset, routes := [], removed := 0, remote := [], nextTag := 0, notices := [], waiting := [] }

/-- Phases of an armed operation (R383, R389): waiting for its counter, in its signature round, in its KEY round, moving data,
and with its results written. -/
inductive OpPhase where
  | armed | fired | signature | key | data | written
  deriving DecidableEq, Repr, Inhabited

/-- A collective operation that an engine holds (R382-R385). -/
structure CollOp where
  /-- A name of the armed instance: the model's own. -/
  id     : Nat
  words  : Vector W64 8
  queue  : Fin 16
  wthr   : BitVec 32
  phase  : OpPhase
  status : BitVec 8
  /-- Word 1 of the status record: DROPS, or the rank of a TIMEOUT. -/
  word1  : W64
  seq    : BitVec 16
  /-- Stage and attempt in which it was armed or last fired (R385). -/
  ran    : W64 × BitVec 8
  /-- What it has read of its source: the blocks with the lengths that their headers gave (R392). -/
  got    : Option (List (Nat × List Byte))
  /-- The Rill round it waits for. -/
  round  : Nat
  /-- Agreed X of each chunk, and result chunks that have passed their check (R394, R397). -/
  agreed : List (Nat × BitVec 16)
  passed : List Nat
  /-- Rank 0's signature as the signature round gave it. -/
  sig0   : BitVec 128
  deriving DecidableEq, Repr, Inhabited

/-- A post queue (R380, R410). -/
structure PostQueue where
  w0 : W64
  w1 : W64
  consumed : BitVec 32
  deriving DecidableEq, Repr, Inhabited

/-- An engine's snapshot (R379). -/
structure Snapshot where
  ctrs : List (CtrId × BitVec 32 × Bool)
  ops  : List CollOp
  consumed : List (Fin 16 × BitVec 32)
  deriving DecidableEq, Repr, Inhabited

/-- A Confluence engine (R375-R411). -/
structure Engine where
  ops    : List CollOp
  queues : Vector PostQueue 16
  stray  : BitVec 16
  drops  : List (Fin 512 × Counter48)
  abortV : Bool
  abortRank : BitVec 16
  abortGroup : BitVec 16
  abortSeq : BitVec 16
  sig0   : BitVec 128
  sigR   : BitVec 128
  snap   : Option Snapshot
  deriving DecidableEq, Repr, Inhabited

/-- A coalescing entry (R406, R411), whether its event has been delivered. -/
structure Coal where
  delivered : Bool
  /-- The event that reports the entry, once it has been raised. -/
  evt    : Option W64
  cls    : BitVec 8
  dev    : BitVec 16
  unit   : BitVec 16
  stage  : W64
  count  : BitVec 32
  firstDev : BitVec 16
  lastDev : BitVec 16
  firstT : BitVec 32
  lastT  : BitVec 32
  deriving DecidableEq, Repr, Inhabited

/-- The Confluence engines and the fabric cores' coalescing table (R406-R411). -/
structure Conf where
  engines : Vector Engine 4
  /-- The name of the next operation to be armed: names keep the order of arming (R383). -/
  nextId  : Nat
  coal    : Vector (Option Coal) 4096
  coalOvf : Counter48
  ovfFirst : W64
  deriving DecidableEq, Repr, Inhabited

/-- An engine after reset (R410, R411). -/
def Engine.reset : Engine :=
  { ops := [], queues := Vector.replicate 16 { w0 := 0, w1 := 0, consumed := 0 }, stray := 0, drops := [], abortV := false,
    abortRank := 0, abortGroup := 0, abortSeq := 0, sig0 := 0, sigR := 0, snap := none }

/-- Confluence after reset. -/
def Conf.reset : Conf :=
  { engines := Vector.replicate 4 Engine.reset, nextId := 0, coal := Vector.replicate 4096 none, coalOvf := Counter48.reset, ovfFirst := 0 }

/-- A receive ring of Headwater (R413, R490): BY_CSEQn and the commands that wait. -/
structure HwRing where
  last : W64
  cmds : List (W64 × HostCmd)
  deriving DecidableEq, Repr, Inhabited

/-- A fault-ledger record (R435): its place among the 16,384, whether delivered and since when, the event that reports it. -/
structure LedgerRec where
  idx    : Nat
  delivered : Bool
  since  : W64
  evt    : W64
  cls    : BitVec 8
  unit   : BitVec 16
  job    : BitVec 16
  stage  : W64
  count  : BitVec 32
  detail : BitVec 32
  firstT : BitVec 32
  lastT  : BitVec 32
  deriving DecidableEq, Repr, Inhabited

/-- A SOUND that is outstanding (R439). -/
structure SoundReq where
  ring  : Fin 4
  cseq  : W64
  token : BitVec 32
  buffer : W64
  start : W64
  deriving DecidableEq, Repr, Inhabited

/-- The Headwater pairs (R413-R444) but for the jobs and the event buffer. -/
structure Headwater where
  rings   : Vector HwRing 4
  jobHalted   : Bool
  faultHalted : Bool
  ledger  : List LedgerRec
  ledgerOvf : W64
  sounds  : List SoundReq
  soundSeq : W64
  /-- Flag bit 2 of the next sounding header. -/
  lostLink : Bool
  /-- An event that the buffer could not keep has been lost since the last power-on (flag bit 3). -/
  wallTime : W64
  basinCfg : Option (BitVec 2 × List (WeirAt × W64))
  retired : BitVec 128
  /-- Attributable faults (R425): the well, true for TAG_PARITY, the stage timer. -/
  faults  : List (WellId × Bool × W64)
  /-- Store words (local address divided by 8) that have been cleared after an uncorrectable error (R425). -/
  ueWords : List Nat
  wellReplays : Vector (BitVec 32) 128
  wellCause : Vector (BitVec 8) 128
  /-- The last READY or REQREP written (R440). -/
  lastAck : W64
  /-- Page tables that Headwater has allocated. -/
  tables  : Nat
  /-- Fabric cores 0-3 and Wellhead that an error in their memory has stopped (R455). -/
  coreStopped : BitVec 5
  /-- Invalidations that Headwater runs once fewer than four are admitted (R290), oldest first. -/
  invWait : List (BitVec 16)
  /-- Wells that are being retired and have not stopped yet (R425). -/
  retiring : List WellId
  /-- A REPEAT has been adopted and its engines' snapshot is still to be restored (R431). -/
  rolling : Bool
  deriving DecidableEq, Repr, Inhabited

/-- What waits in the ordered stream to the host (R482): a completion, an event by its sequence number, a write. -/
inductive HostItem where
  | cpl (ring : Fin 4) (cseq : W64) (status : BitVec 8) (result : BitVec 56)
  | evt (seq : W64)
  | hostwr (addr : W64) (data : List Byte)
  deriving DecidableEq, Repr, Inhabited

/-- A packet from the host that waits behind a capture, or behind a window write that does (R428, R482). -/
inductive HeldPkt where
  | write (aperture : W64) (data : List Byte)
  | read (aperture : W64) (len : BitVec 10) (tag : BitVec 12)
  | cmd (ring : Fin 4) (cseq : W64) (cmd : HostCmd)
  deriving DecidableEq, Repr, Inhabited

/-- A memory window (R483). -/
structure Window where
  w0 : W64
  w1 : W64
  w2 : W64
  deriving DecidableEq, Repr, Inhabited

/-- The Byvor Link (R470-R493). -/
structure ByLink where
  state  : LinkState
  /-- SIGNAL, EQUALISE, FEC_LOCK, DESKEW, EXCHANGE, KEY. -/
  step   : Fin 6
  reason : BitVec 4
  width  : BitVec 2
  lanebad : BitVec 8
  enc    : Bool
  keyslot : Bool
  gen    : BitVec 16
  peerMaj : BitVec 8
  peerMin : BitVec 8
  /-- The adapter's ENCREQ, its encryption feature bit, and its Headwater interface major version, once a TRAIN flit has come. -/
  peerTrain : Option (Bool × Bool × BitVec 8)
  encReq : Bool
  retryMs : BitVec 16
  werr   : W64
  corr   : Counter48
  uncorr : Counter48
  retry  : Counter48
  crcerr : Counter48
  wfail  : Counter48
  downs  : W64
  /-- HOST_LINK_DOWN is due when the link is next ACTIVE (R491). -/
  downSeen : Bool
  nextSeq : BitVec 11
  expSeq : BitVec 11
  nakOwed : Bool
  nakSent : Bool
  nakSeq : BitVec 11
  nakCount : Nat
  replay : List (BitVec 11 × ByFlit)
  resend : Nat
  /-- Credits held: classes 0 and 5 of R481. -/
  linkCred : Nat
  hostCred : Nat
  /-- Cumulative credits returned by this end and seen from the adapter, per class. -/
  returned : Vector (BitVec 16) 7
  seen   : Vector (BitVec 16) 7
  /-- Credits that CREDIT packets have yet to return, per class. -/
  owed   : Vector Nat 7
  stream : List HostItem
  /-- WRESP packets that wait: header and body. -/
  resps  : List (List Byte)
  /-- Window accesses and commands that wait for a capture or at a weir, in arrival order (R318, R428, R482). -/
  held   : List HeldPkt
  txRem  : List Byte
  rxRem  : List Byte
  sinceMaint : Nat
  sinceIdle : Nat
  keys   : Vector (Option LinkKey) 4
  peerReady : Vector Bool 2
  authRun : Nat
  keyFlits : Vector Nat 2
  extTx  : Nat
  extRx  : Nat
  keyReq : Bool
  /-- The record area of R474 and R489: address, size, next offset, and the payloads in it with the event that names each. -/
  recBase : W64
  recSize : W64
  recOff : W64
  recUsed : List (W64 × Nat)
  windows : Vector Window 16
  /-- When each window's last WINDOW_ERROR was raised (R484). -/
  winTimes : Vector (Option W64) 16
  out    : Option ByFlit
  deriving DecidableEq, Repr, Inhabited

/-- A scrub pass that runs (R450): core, memory, when it started, whether SCRUB_LATE has been raised, whether R447's end rule has
been counted. -/
structure ScrubPass where
  core  : Fin 2
  mem   : ScrubMem
  start : W64
  late  : Bool
  counted : Bool
  deriving DecidableEq, Repr, Inhabited

/-- A latched telemetry sample that waits to be written (R466, R467): its header words and its entries. -/
structure TelSample where
  w0 : W64
  w1 : W64
  entries : List (W64 × W64)
  deriving DecidableEq, Repr, Inhabited

/-- A wear entry (R459-R461): unit, indicator, reading, reading at manufacture, daily numerators of USED with the newest last. -/
structure WearEntry where
  unit    : BitVec 16
  code    : BitVec 8
  reading : W64
  hist    : List Nat
  at90    : Bool
  at100   : Bool
  valid   : Bool
  deriving DecidableEq, Repr, Inhabited

/-- A sector that scrubbing has corrected (R452): the memory whose passes correct it, passes in a row, and whether the current pass has
corrected it. -/
structure WeakSector where
  core   : Fin 2
  mem    : ScrubMem
  sector : Nat
  passes : Nat
  now    : Bool
  deriving DecidableEq, Repr, Inhabited

/-- The baseflow cores (R445-R469). -/
structure Baseflow where
  ctl : W64
  budget : W64
  period : W64
  phasewin : W64
  scrubLate : Bool
  wsaveErr : Bool
  winmiss : BitVec 8
  teldrop : BitVec 8
  poisonSeen : BitVec 16
  noop : BitVec 8
  telWrapped : Bool
  telHead : BitVec 24
  telSeq : W64
  samples : List TelSample
  passes : List ScrubPass
  weak : List WeakSector
  /-- Tasks that BASEFLOW_TASK firings have started: core and task number. -/
  tasks : List (Fin 4 × BitVec 16)
  wear : List WearEntry
  /-- The two copies of the wear log: sequence number and entries; none where the copy is not good. -/
  wearLog : Vector (Option (W64 × List WearEntry)) 2
  /-- PLATFORM conditions held for the next stage, and those raised: unit, stage, time (R456). -/
  held : List Report
  raised : List (BitVec 16 × W64 × W64)
  /-- 48-bit counters whose OVF baseflow has seen set: unit and counter (R457). -/
  wrapSeen : List (BitVec 16 × Nat)
  /-- WS_CECNT summed over clearings, and the WS_ELAST of the last one, per well (R259). -/
  wellWear : Vector (Counter48 × W64) 128
  deriving DecidableEq, Repr, Inhabited

/-- Power, clocks and thermal state (R494-R509). -/
structure Power where
  changing : BitVec 44
  fault : BitVec 44
  /-- A domain command in progress: ON, the mask. -/
  pend : Option (Bool × BitVec 44)
  domErr : BitVec 3
  domDom : BitVec 6
  active : BitVec 3
  bmcLimit : BitVec 16
  duty : BitVec 7
  fast : Bool
  holder : BitVec 6
  watts : BitVec 16
  volts : BitVec 16
  amps : BitVec 16
  profiles : Vector W64 8
  /-- Profiles that gauge actions have named since the last evaluation, oldest first. -/
  profReq : List (BitVec 3)
  /-- D of the power controller itself, before thermal and input limits lower it. -/
  ownDuty : BitVec 7
  uv : Bool
  /-- When CAP_THROTTLE was last raised (R501). -/
  capAt : Option W64
  /-- Rail voltages in mV (R495). -/
  rail : Vector Nat 44
  /-- Hotspots of PD0-PD43 and the always-on domain, and stack sensors, in 0.1 degC. -/
  temps : Vector (BitVec 16) 45
  stackTemps : Vector (BitVec 16) 24
  /-- Units that hold WARN, CRIT and TRIP (R506). -/
  warn : List (BitVec 16)
  crit : List (BitVec 16)
  trip : List (BitVec 16)
  hwtrip : Bool
  /-- Pins. -/
  thermtrip : Bool
  /-- Turning points of R459: rising, and the extreme since. -/
  rising : Vector Bool 45
  extreme : Vector (BitVec 16) 45
  refALost : Bool
  refBLost : Bool
  inputOn : Bool
  /-- Stage 1 and VAON in range: PWR_GOOD. -/
  pwrGood : Bool
  /-- THERMAL_TRIP has acted and no reset has returned the device to service since (R506). -/
  tripped : Bool
  /-- A temperature sensor has been read since the reset. -/
  sensed : Bool
  /-- Step 2 has loaded the fuse value of PW_DOMST, and the domains that have switched since (R7, R509). -/
  fuseLoaded : Bool
  switched : BitVec 44
  deriving DecidableEq, Repr, Inhabited

/-- What the I3C endpoint has answered last (R512, R513). -/
inductive BmcResp where
  | none
  | unsupported
  | eid (e : Byte)
  | version
  | types (l : List Byte)
  | uuid (w : BitVec 128)
  | tid (t : Byte)
  | pldm (which : Fin 3)
  | repositoryInfo (records : Nat)
  | pdr (handle : Nat)
  | reading (v : Int)
  | states (l : List (BitVec 4))
  | effecter (watts : BitVec 16)
  | event (r : Report)
  | done
  deriving DecidableEq, Repr, Inhabited

/-- The board management endpoint (R512, R513). -/
structure Bmc where
  dynAddr  : Option (BitVec 7)
  eid      : Byte
  tid      : Byte
  receiver : Option Byte
  /-- ALERT_N is asserted, with the in-band interrupt. -/
  alert    : Bool
  events   : List Report
  resp     : BmcResp
  deriving DecidableEq, Repr, Inhabited

/-- Instructions of the boundary-scan port (R514). -/
inductive JtagIr where
  | bypass | idcode | samplePreload | extest | highz | clamp
  deriving DecidableEq, Repr, Inhabited

/-- The boundary-scan port (R514): the instruction in force, the boundary register, and what the selected identification or bypass
register shifts out. -/
structure Jtag where
  ir : JtagIr
  boundary : List Bool
  captured : BitVec 32
  deriving DecidableEq, Repr, Inhabited

/-- A debug challenge (R530): the 128 bytes, the scope, the basin, the stage timer of its expiry. -/
structure Challenge where
  bytes  : List Byte
  scope  : BitVec 2
  basin  : BitVec 2
  expiry : W64
  deriving DecidableEq, Repr, Inhabited

/-- Wellhead (R515-R532). -/
structure Wellhead where
  /-- Anti-rollback bits blown in the primary bank and in the mirror. -/
  arbP : Vector (BitVec 128) 4
  arbM : Vector (BitVec 128) 4
  meas : Vector (BitVec 512) 16
  /-- The request in progress: WH_REQ as written. -/
  req    : Option W64
  status : BitVec 8
  rlen   : BitVec 16
  param  : BitVec 32
  /-- WH_BUF by offset, canonical form. -/
  buf    : List Host.Cell
  recovery : Bool
  /-- The boot bank, and the bank that the images in force were booted from. -/
  bank   : Bool
  booted : Option Bool
  dbgScope : BitVec 2
  unlocks : BitVec 16
  challenge : Option Challenge
  /-- Challenges that a newer one has replaced (R530). -/
  oldChallenges : List Challenge
  /-- An accepted unlock whose jobs are still being cleared, and the hash of its signer's key (R531). -/
  opening : Option (Challenge × BitVec 512)
  /-- Hash of the key that signed the last unlock (R531). -/
  signer : BitVec 512
  /-- Last accepted key sequence number of a link (0xFF: Byvor) and direction (true: receive). -/
  keySeqs : List (BitVec 8 × Bool × W64)
  rptSeq : W64
  /-- FLASH_WRITEs into each bank since manufacture: 64 KiB unit and data, oldest first. -/
  flashW : Vector (List (Nat × List Byte)) 2
  /-- The fabric record of the flash (R534): FB_FABCFG and each link's FB_LCTL. -/
  fabricRec : Option (W64 × List W64)
  resetErr : BitVec 3
  deriving DecidableEq, Repr, Inhabited

/-- DEV_START and the pins of R533. -/
structure StartUp where
  step   : BitVec 4
  st     : BitVec 2
  last   : BitVec 2
  reason : BitVec 8
  warms  : BitVec 16
  readyMs : BitVec 32
  /-- POR_N is low. -/
  porLow : Bool
  /-- Milliseconds since the start of step 2. -/
  elapsed : Nat
  /-- Step 6 has found a bad slice; the start goes on to step 8 and then fails. -/
  stopped : Bool
  deriving DecidableEq, Repr, Inhabited

/-- Headwater at power-on. -/
def Headwater.reset : Headwater :=
  { rings := Vector.replicate 4 { last := 0, cmds := [] }, jobHalted := false, faultHalted := false, ledger := [], ledgerOvf := 0,
    sounds := [], soundSeq := 0, lostLink := false, wallTime := 0, basinCfg := none, retired := 0, faults := [], ueWords := [],
    wellReplays := Vector.replicate 128 0, wellCause := Vector.replicate 128 0, lastAck := 0, tables := 0, coreStopped := 0, invWait := [], retiring := [], rolling := false }

/-- R493's Reset column. -/
def ByLink.reset : ByLink :=
  { state := .disabled, step := 0, reason := 0, width := 0, lanebad := 0, enc := false, keyslot := false, gen := 0, peerMaj := 0,
    peerMin := 0, peerTrain := none, encReq := false, retryMs := 0x64, werr := 0, corr := Counter48.reset, uncorr := Counter48.reset,
    retry := Counter48.reset, crcerr := Counter48.reset, wfail := Counter48.reset, downs := 0, downSeen := false, nextSeq := 0,
    expSeq := 0, nakOwed := false, nakSent := false, nakSeq := 0, nakCount := 0, replay := [], resend := 0, linkCred := 0,
    hostCred := 0, returned := Vector.replicate 7 0, seen := Vector.replicate 7 0, owed := Vector.replicate 7 0, stream := [],
    resps := [], held := [], txRem := [], rxRem := [], sinceMaint := 0, sinceIdle := 0,
    keys := Vector.replicate 4 none, peerReady := Vector.replicate 2 false, authRun := 0, keyFlits := Vector.replicate 2 0, extTx := 0, extRx := 0,
    keyReq := false, recBase := 0, recSize := 0, recOff := 0, recUsed := [],
    windows := Vector.replicate 16 { w0 := 0, w1 := 0, w2 := 0 }, winTimes := Vector.replicate 16 none, out := none }

/-- R469's Reset column. -/
def Baseflow.reset : Baseflow :=
  { ctl := 0x17, budget := 0x140A000000000000, period := 0x0018000A000A0000, phasewin := 0x0000FFFF00000000, scrubLate := false,
    wsaveErr := false, winmiss := 0, teldrop := 0, poisonSeen := 0, noop := 0, telWrapped := false, telHead := 0, telSeq := 0,
    samples := [], passes := [], weak := [], tasks := [], wear := [], wearLog := Vector.replicate 2 none, held := [], raised := [], wrapSeen := [], wellWear := Vector.replicate 128 (Counter48.reset, 0) }

/-- R509's Reset column, rails at their nominal voltage (R495), the input present. -/
def Power.reset : Power :=
  { changing := 0, fault := 0, pend := none, domErr := 0, domDom := 0, active := 0, bmcLimit := 0, duty := 64, fast := false, holder := 0,
    watts := 0, volts := 0, amps := 0, profiles := Vector.replicate 8 0x0AF0080000000000, profReq := [], ownDuty := 64, uv := false, capAt := none,
    rail := Vector.ofFn (fun (d : Fin 44) => if d.val < 40 then 750 else 800), temps := Vector.replicate 45 0,
    stackTemps := Vector.replicate 24 0, warn := [], crit := [], trip := [], hwtrip := false, thermtrip := false,
    rising := Vector.replicate 45 true, extreme := Vector.replicate 45 0, refALost := false, refBLost := false, inputOn := true,
    pwrGood := false, tripped := false, sensed := false, fuseLoaded := false, switched := 0 }

/-- The endpoint after power-on. -/
def Bmc.reset : Bmc :=
  { dynAddr := none, eid := 0, tid := 0, receiver := none, alert := false, events := [], resp := .none }

/-- The boundary-scan port after TRST_N. -/
def Jtag.reset : Jtag := { ir := .idcode, boundary := [], captured := 0x10848B93 }

/-- Wellhead at power-on, before it has read the fuses. -/
def Wellhead.reset : Wellhead :=
  { arbP := Config.arbPrimary, arbM := Config.arbMirror, meas := Vector.replicate 16 0, req := none, status := 0, rlen := 0, param := 0,
    buf := [], recovery := false, bank := Config.flashBootBank, booted := none, dbgScope := 0, unlocks := 0, challenge := none, oldChallenges := [], opening := none, signer := 0, keySeqs := [],
    rptSeq := 0, flashW := Vector.replicate 2 [], fabricRec := none, resetErr := 0 }

/-- R538's Reset column, POR_N held low by the board. -/
def StartUp.reset : StartUp :=
  { step := 1, st := 0, last := 0, reason := 0, warms := 0, readyMs := 0, porLow := true, elapsed := 0, stopped := false }
/-- The state of the device. -/
structure State where
  /-- Commands that wait, first in, first out. -/
  pending : List Instr
  /-- Index of the next free value of Config.freeWord: the model's own field, not the spec's (log 2). -/
  free    : Nat
  /-- Device memory by local physical address, in canonical form (R22). -/
  mem     : List Host.Cell
  /-- Aligned 8 B words (local address divided by 8) with an uncorrectable error (R251, R313), strictly rising. -/
  ue      : List Nat
  /-- Aligned 8 B words with a correctable error (R251). -/
  ce      : List Nat
  wells   : Vector Well 128
  /-- Power domains that are on (R19). -/
  domainOn : BitVec 44
  /-- Fault reports under way to the fault pair (R437). -/
  reports : List Report
  stg     : Stage
  far     : Far
  cf      : Conf
  /-- DEV_CONFIG.BASIN_MODE (R16). -/
  basinMode : BitVec 2
  /-- Pumps: well Pump Pp of well w at 2w + p, BPn at 256 + n. -/
  pumps   : Vector Pump 272
  fronts  : Vector Front 6
  /-- Admitted invalidations, oldest first, at most four (R290). -/
  invals  : List Inval
  /-- PU_ASIDBASE (R279). -/
  asidBase : BitVec 44
  halves  : Vector CisternHalf 2
  lines   : List CLine
  /-- Sectors (local address divided by 64) of the Cistern arrays with an error; true when uncorrectable (R313). -/
  cErr    : List (Nat × Bool)
  /-- Sets with a tag or state parity error (R313). -/
  cTagErr : List (HalfId × Fin 32 × Fin 4096)
  /-- Sectors that the Cistern holds poisoned (R313, R314). -/
  poison  : List Nat
  stErr   : List (Nat × StackErr)
  stks    : Vector StackCtl 24
  /-- DEV_CONFIG.STACK_MASK (R30). -/
  stackMask : BitVec 24
  /-- Weirs: index ((half * 4 + point) * 2 + direction) * 4 + basin. -/
  weirs   : Vector Weir 64
  /-- The rr of R319 for each path. -/
  weirRr  : Vector (Fin 4) 16
  prot    : List ProtRun
  /-- 4 KiB chunks whose capture is in progress (R428). -/
  capturing : List Nat
  /-- DEVICE_ID (R31). -/
  devValid : Bool
  devId   : BitVec 16
  /-- Events that the fault pair keeps, oldest first (R443). -/
  events  : List Evt
  evtSeq  : W64
  evtLost : W64
  evtFirstLost : Option W64
  jobs    : Vector Job 32
  /-- The job slot that owns each well. -/
  wellJob : Vector (Option (Fin 32)) 128
  counters : Vector TrigCounter 4096
  /-- Increments and requests under way to the counters, oldest first (R376). -/
  inflight : List InFlight
  /-- Events under way through the wells' synchronisers, oldest first (R550). -/
  sync    : List SyncEvent
  hw      : Headwater
  by_     : ByLink
  bf      : Baseflow
  pw      : Power
  bmc     : Bmc
  jtag    : Jtag
  wh      : Wellhead
  su      : StartUp
  deriving DecidableEq, Repr

/-- The device right after power-on reset, no command waiting. -/
def State.reset : State :=
  { pending := [], free := 0, mem := [], ue := [], ce := [], wells := Vector.replicate 128 Well.reset, domainOn := 0,
    reports := [], stg := Stage.reset, far := Far.reset, cf := Conf.reset, basinMode := 0, pumps := Vector.replicate 272 Pump.reset,
    fronts := Vector.replicate 6 Front.reset, invals := [], asidBase := 0,
    halves := Vector.replicate 2 CisternHalf.reset, lines := [], cErr := [], cTagErr := [], poison := [], stErr := [],
    stks := Vector.replicate 24 StackCtl.reset, stackMask := 0, weirs := Vector.replicate 64 Weir.reset,
    weirRr := Vector.replicate 16 0, prot := [], capturing := [], devValid := false, devId := 0, events := [], evtSeq := 0,
    evtLost := 0, evtFirstLost := none,
    jobs := Vector.replicate 32 Job.reset, wellJob := Vector.replicate 128 none, counters := Vector.replicate 4096 { value := 0, sat := false, staged := false }, inflight := [], sync := [], hw := Headwater.reset,
    by_ := ByLink.reset, bf := Baseflow.reset, pw := Power.reset, bmc := Bmc.reset, jtag := Jtag.reset, wh := Wellhead.reset,
    su := StartUp.reset }

end Sys2Proof.Machine
end

