-- ==== Sys2Proof/Machine/Fields.lean ====
section
/-! DEFINITION. Bit fields, sign extension, byte order and list updates shared by every family (R158, R160, R3). -/

namespace Sys2Proof.Machine

/-- Bits [lo + n - 1 : lo] of a word as a number. -/
def fieldN (w : W64) (lo n : Nat) : Nat := (w.extractLsb' lo n).toNat

/-- Bit i of a word. -/
def bitB (w : W64) (i : Nat) : Bool := w.getLsbD i

/-- A 64-bit word from a number, modulo 2^64. -/
def w64 (n : Nat) : W64 := BitVec.ofNat 64 n

/-- A Boolean as bit i of a word. -/
def putB (i : Nat) (b : Bool) : W64 := if b then w64 (2 ^ i) else 0

/-- A number placed at bit lo of a word. -/
def putN (lo : Nat) (n : Nat) : W64 := w64 (n * 2 ^ lo)

/-- Writing v through the mask of the writable bits m over old. -/
def maskWrite (old v m : W64) : W64 := (old &&& ~~~m) ||| (v &&& m)

/-- The n low bits of v as a little-endian list of k bytes. -/
def toBytes (k : Nat) (v : Nat) : List Byte :=
  match k with
  | 0 => []
  | k + 1 => BitVec.ofNat 8 v :: toBytes k (v / 256)

/-- The number a little-endian list of bytes holds. -/
def ofBytes : List Byte → Nat
  | [] => 0
  | b :: r => b.toNat + 256 * ofBytes r

/-- The eight bytes of a word, little-endian (R158). -/
def wordBytes (v : W64) : List Byte := toBytes 8 v.toNat

/-- A word from its little-endian bytes. -/
def bytesWord (l : List Byte) : W64 := w64 (ofBytes l)

/-- Signed value of the n-bit number v. -/
def signedN (n v : Nat) : Int := if v < 2 ^ (n - 1) then (v : Int) else (v : Int) - (2 ^ n : Nat)

/-- An integer as an n-bit number, modulo 2^n. -/
def wrapN (n : Nat) (v : Int) : Nat := (v % ((2 ^ n : Nat) : Int)).toNat

/-- An index below 32 from a 5-bit field. -/
def reg5 (w : W64) (lo : Nat) : Fin 32 := ⟨fieldN w lo 5, (w.extractLsb' lo 5).isLt⟩

/-- A counter advanced by n with its sticky wrap bit. -/
def countUp (c : Counter48) (n : Nat) : Counter48 :=
  { ovf := c.ovf || decide (2 ^ 48 ≤ c.count.toNat + n), count := c.count + BitVec.ofNat 48 n }

/-- The first index below n at which p holds. -/
def findBelow (n : Nat) (p : Nat → Bool) : Option Nat := (List.range n).find? p

/-- The elements of a list without the first one that satisfies p. -/
def removeFirst {α : Type} (p : α → Bool) : List α → List α
  | [] => []
  | a :: r => if p a then r else a :: removeFirst p r

/-- Replacing the k-th element. -/
def modNth {α : Type} (f : α → α) : Nat → List α → List α
  | _, [] => []
  | 0, a :: r => f a :: r
  | k + 1, a :: r => a :: modNth f k r

end Sys2Proof.Machine
end

