-- ==== Sys2Proof/Machine/Flags.lean ====
section
/-! DEFINITION. Formats, rounding, flags and the arithmetic of the Flume and DJ-Q (R37-R53, R81, R82). A finite non-zero
value is m * 2^e with its sign; every operation is exact and rounds once. -/

namespace Sys2Proof.Machine

/-- FFLAGS bits 5:0 (R43). -/
def flNV : BitVec 6 := 1
def flOF : BitVec 6 := 2
def flUF : BitVec 6 := 4
def flNX : BitVec 6 := 8
def flDZ : BitVec 6 := 16
def flFI : BitVec 6 := 32
/-- A flag raised on a condition. -/
def flIf (b : Bool) (f : BitVec 6) : BitVec 6 := if b then f else 0

/-- Element formats by the codes of R135. -/
inductive Fmt where
  | fp64 | fp32 | fp16 | bf16 | e4m3 | e5m2 | e2m1 | mxint8 | int32 | int8 | int4
  deriving DecidableEq, Repr

/-- Format codes of R135. -/
def Fmt.ofCode : Nat → Option Fmt
  | 0 => some .fp64 | 1 => some .fp32 | 2 => some .fp16 | 3 => some .bf16 | 4 => some .e4m3 | 5 => some .e5m2
  | 6 => some .e2m1 | 7 => some .mxint8 | 8 => some .int32 | 9 => some .int8 | 10 => some .int4 | _ => none

/-- Width in bits (R37). -/
def Fmt.bits : Fmt → Nat
  | .fp64 => 64 | .fp32 => 32 | .fp16 => 16 | .bf16 => 16 | .e4m3 => 8 | .e5m2 => 8 | .e2m1 => 4 | .mxint8 => 8
  | .int32 => 32 | .int8 => 8 | .int4 => 4

/-- Integer formats; an MXINT8 element n stands for n * 2^-6. -/
def Fmt.isInt : Fmt → Bool
  | .int32 | .int8 | .int4 | .mxint8 => true
  | _ => false

/-- Exponent and fraction bits (R37). -/
def Fmt.eb : Fmt → Nat
  | .fp64 => 11 | .fp32 => 8 | .fp16 => 5 | .bf16 => 8 | .e4m3 => 4 | .e5m2 => 5 | .e2m1 => 2 | _ => 0
def Fmt.fb : Fmt → Nat
  | .fp64 => 52 | .fp32 => 23 | .fp16 => 10 | .bf16 => 7 | .e4m3 => 3 | .e5m2 => 2 | .e2m1 => 1 | _ => 0
def Fmt.bias : Fmt → Nat
  | .fp64 => 1023 | .fp32 => 127 | .fp16 => 15 | .bf16 => 127 | .e4m3 => 7 | .e5m2 => 15 | .e2m1 => 1 | _ => 0

/-- Whether the format has infinities (R37). -/
def Fmt.hasInf : Fmt → Bool
  | .fp64 | .fp32 | .fp16 | .bf16 | .e5m2 => true
  | _ => false

/-- Encoding of the largest finite magnitude (R37). -/
def Fmt.maxFin (f : Fmt) : Nat :=
  match f with
  | .e4m3 => 0x7E
  | .e2m1 => 0x7
  | f => (2 ^ f.eb - 2) * 2 ^ f.fb + (2 ^ f.fb - 1)

/-- Encoding of infinity. -/
def Fmt.infBits (f : Fmt) : Nat := (2 ^ f.eb - 1) * 2 ^ f.fb

/-- Canonical NaN (R48); E2M1 has none and takes +0 (R50). -/
def Fmt.nanBits (f : Fmt) : Nat :=
  match f with
  | .e4m3 => 0x7F
  | .e2m1 => 0
  | f => (2 ^ f.eb - 1) * 2 ^ f.fb + 2 ^ (f.fb - 1)

/-- A value read from a format. -/
inductive FVal where
  | zero (neg : Bool)
  | fin (neg : Bool) (m : Nat) (e : Int)
  | inf (neg : Bool)
  | nan (signalling : Bool)
  deriving DecidableEq, Repr

/-- A signed integer times 2^e as a value. -/
def FVal.ofInt (n e : Int) : FVal := if n = 0 then .zero false else .fin (decide (n < 0)) n.natAbs e

/-- Reading an element as an arithmetic input: a subnormal reads as a zero of its sign with FI (R46). -/
def readF (f : Fmt) (b : Nat) : FVal × BitVec 6 :=
  if f.isInt then (FVal.ofInt (signedN f.bits (b % 2 ^ f.bits)) (if f = .mxint8 then -6 else 0), 0)
  else
    let fr := b % 2 ^ f.fb
    let ex := b / 2 ^ f.fb % 2 ^ f.eb
    let neg := decide (b / 2 ^ (f.fb + f.eb) % 2 = 1)
    if ex = 0 then (.zero neg, flIf (decide (fr ≠ 0)) flFI)
    else if f.hasInf && ex = 2 ^ f.eb - 1 then
      if fr = 0 then (.inf neg, 0)
      else (.nan (decide (f ≠ .e5m2) && decide (fr < 2 ^ (f.fb - 1))), 0)
    else if f = .e4m3 && ex = 15 && fr = 7 then (.nan false, 0)
    else (.fin neg (2 ^ f.fb + fr) ((ex : Int) - f.bias - f.fb), 0)

/-- NV of a signalling NaN input (R48). -/
def FVal.nvIn : FVal → BitVec 6
  | .nan true => flNV
  | _ => 0

/-- Resolving a rounding-mode field: DYN takes FRM (R44). -/
def resolveRm (field : Nat) (frm : BitVec 3) : Nat := if field = 0 then frm.toNat else field

/-- Whether rounding goes away from zero: codes of R44, sign, last kept bit, and the discarded part against one half. -/
def roundsUp (rm : Nat) (neg odd : Bool) (rem half : Nat) : Bool :=
  if rem = 0 then false
  else if rm = 1 then decide (half < rem) || (decide (half = rem) && odd)
  else if rm = 3 then !neg
  else if rm = 4 then neg
  else false

/-- A magnitude m shifted right by sh with rounding: the result and whether bits were lost. -/
def roundShift (rm : Nat) (neg : Bool) (m sh : Nat) : Nat × Bool :=
  if sh = 0 then (m, false)
  else
    let q := m / 2 ^ sh
    let r := m % 2 ^ sh
    (if roundsUp rm neg (decide (q % 2 = 1)) r (2 ^ (sh - 1)) then q + 1 else q, decide (r ≠ 0))

/-- A magnitude m * 2^e rounded to an integer. -/
def roundToInt (rm : Nat) (neg : Bool) (m : Nat) (e : Int) : Nat × Bool :=
  if 0 ≤ e then (m * 2 ^ e.toNat, false) else roundShift rm neg m (-e).toNat

/-- Bits of a signed zero. -/
def Fmt.zeroBits (f : Fmt) (neg : Bool) : Nat := if neg && !f.isInt then 2 ^ (f.fb + f.eb) else 0

/-- Largest magnitude of a sign in an integer format. -/
def Fmt.intLimit (f : Fmt) (neg : Bool) : Nat := if neg then 2 ^ (f.bits - 1) else 2 ^ (f.bits - 1) - 1

/-- Rounding m * 2^e, m > 0, to a floating format (R47, R50, R51). -/
def packFloat (f : Fmt) (rm : Nat) (sat neg : Bool) (m : Nat) (e : Int) : Nat × BitVec 6 :=
  let p := f.fb + 1
  let len := Nat.log2 m + 1
  let (q, lost, e1) : Nat × Bool × Int :=
    if len ≤ p then (m * 2 ^ (p - len), false, e - ((p - len : Nat) : Int))
    else let r := roundShift rm neg m (len - p); (r.1, r.2, e + ((len - p : Nat) : Int))
  let (q, e1) := if q = 2 ^ p then (2 ^ (p - 1), e1 + 1) else (q, e1)
  let ex : Int := e1 + (p - 1 : Nat)
  let sgn := f.zeroBits neg
  let nx := flIf lost flNX
  let biased : Int := ex + f.bias
  if biased < 1 then (sgn, flUF ||| flNX)
  else
    let enc := biased.toNat * 2 ^ f.fb + (q - 2 ^ (p - 1))
    if f.maxFin < enc then
      (sgn + (if f.hasInf && !sat then f.infBits else f.maxFin), flOF ||| flNX)
    else (sgn + enc, nx)

/-- Writing a value in a format with one rounding (R48, R50-R52). -/
def packF (f : Fmt) (rm : Nat) (sat : Bool) (v : FVal) : Nat × BitVec 6 :=
  if f.isInt then
    match v with
    | .zero _ => (0, 0)
    | .nan _ => (0, flNV)
    | .inf neg => (if neg then f.intLimit true else f.intLimit false, flNV)
    | .fin neg m e =>
      let r := roundToInt rm neg m (e + if f = .mxint8 then 6 else 0)
      if f.intLimit neg < r.1 then ((if neg then 2 ^ f.bits - f.intLimit true else f.intLimit false) % 2 ^ f.bits, flOF ||| flNX)
      else ((if neg then 2 ^ f.bits - r.1 else r.1) % 2 ^ f.bits, flIf r.2 flNX)
  else
    match v with
    | .zero neg => (f.zeroBits neg, 0)
    | .nan s => (f.nanBits, if f = .e2m1 then flNV else flIf s flNV)
    | .inf neg => if f.hasInf then (f.zeroBits neg + f.infBits, 0) else (f.zeroBits neg + f.maxFin, flNV)
    | .fin neg m e => packFloat f rm sat neg m e

/-- Conversion of one element (R50). -/
def convertF (src dst : Fmt) (rm : Nat) (sat : Bool) (b : Nat) : Nat × BitVec 6 :=
  let (v, fl) := readF src b
  let (r, fl2) := packF dst rm sat v
  (r, fl ||| fl2)

/-- Sign of a value. -/
def FVal.neg : FVal → Bool
  | .zero n | .fin n _ _ | .inf n => n
  | .nan _ => false

/-- The value with its sign flipped. -/
def FVal.negate : FVal → FVal
  | .zero n => .zero (!n)
  | .fin n m e => .fin (!n) m e
  | .inf n => .inf (!n)
  | .nan s => .nan s

/-- Exact sum of two dyadic numbers; an exact zero is +0, or -0 under RNI, unless both addends were zeros of one sign. -/
def addV (rm : Nat) (a b : FVal) : FVal × BitVec 6 :=
  match a, b with
  | .nan s, x => (.nan false, flIf s flNV ||| x.nvIn)
  | x, .nan s => (.nan false, flIf s flNV ||| x.nvIn)
  | .inf x, .inf y => if x = y then (.inf x, 0) else (.nan false, flNV)
  | .inf x, _ => (.inf x, 0)
  | _, .inf y => (.inf y, 0)
  | .zero x, .zero y => (.zero (if x = y then x else decide (rm = 4)), 0)
  | .zero _, y => (y, 0)
  | x, .zero _ => (x, 0)
  | .fin x m e, .fin y n g =>
    let lo := min e g
    let i : Int := (if x then -1 else 1) * ((m * 2 ^ (e - lo).toNat : Nat) : Int)
    let j : Int := (if y then -1 else 1) * ((n * 2 ^ (g - lo).toNat : Nat) : Int)
    if i + j = 0 then (.zero (decide (rm = 4)), 0) else (.fin (decide (i + j < 0)) (i + j).natAbs lo, 0)

/-- Exact product (R82). -/
def mulV (a b : FVal) : FVal × BitVec 6 :=
  match a, b with
  | .nan s, x => (.nan false, flIf s flNV ||| x.nvIn)
  | x, .nan s => (.nan false, flIf s flNV ||| x.nvIn)
  | .inf _, .zero _ => (.nan false, flNV)
  | .zero _, .inf _ => (.nan false, flNV)
  | .inf x, y => (.inf (x != y.neg), 0)
  | y, .inf x => (.inf (x != y.neg), 0)
  | .zero x, y => (.zero (x != y.neg), 0)
  | y, .zero x => (.zero (x != y.neg), 0)
  | .fin x m e, .fin y n g => (.fin (x != y) (m * n) (e + g), 0)

/-- Quotient to 128 bits with the remainder folded into the last bit, enough for one rounding (R81, R82). -/
def divV (a b : FVal) : FVal × BitVec 6 :=
  match a, b with
  | .nan s, x => (.nan false, flIf s flNV ||| x.nvIn)
  | x, .nan s => (.nan false, flIf s flNV ||| x.nvIn)
  | .inf _, .inf _ => (.nan false, flNV)
  | .zero _, .zero _ => (.nan false, flNV)
  | .inf x, y => (.inf (x != y.neg), 0)
  | y, .inf x => (.zero (x != y.neg), 0)
  | .zero x, y => (.zero (x != y.neg), 0)
  | y, .zero x => (.inf (x != y.neg), flDZ)
  | .fin x m e, .fin y n g =>
    let q := m * 2 ^ 128 / n
    let st := if q * n = m * 2 ^ 128 then 0 else 1
    (.fin (x != y) (2 * q + st) (e - g - 129), 0)

/-- Integer square root of m below 2^(2k), bit by bit. -/
def isqrt : Nat → Nat → Nat → Nat
  | 0, _, r => r
  | k + 1, m, r => isqrt k m (if (r + 2 ^ k) * (r + 2 ^ k) ≤ m then r + 2 ^ k else r)

/-- Square root with the remainder folded into the last bit (R81, R82). -/
def sqrtV (a : FVal) : FVal × BitVec 6 :=
  match a with
  | .nan s => (.nan false, flIf s flNV)
  | .zero n => (.zero n, 0)
  | .inf false => (.inf false, 0)
  | .inf true => (.nan false, flNV)
  | .fin true _ _ => (.nan false, flNV)
  | .fin false m e =>
    let s : Nat := if e % 2 = 0 then 128 else 129
    let x := m * 2 ^ s
    let r := isqrt 128 x 0
    (.fin false (2 * r + if r * r = x then 0 else 1) ((e - s) / 2 - 1), 0)

/-- Fused multiply-add (R81, R82): 0 x inf is invalid whatever the addend. -/
def fmaV (rm : Nat) (a b c : FVal) : FVal × BitVec 6 :=
  let (p, fl) := mulV a b
  let (r, fl2) := addV rm p c
  (r, fl ||| fl2)

/-- Rounding an exact result into its format with the flags of its inputs. -/
def finishF (f : Fmt) (rm : Nat) (flIn : BitVec 6) (r : FVal × BitVec 6) : Nat × BitVec 6 :=
  let (b, fl) := packF f rm false r.1
  (b, flIn ||| r.2 ||| fl)

/-- Two-operand arithmetic on encodings. -/
def arith2 (f : Fmt) (rm : Nat) (op : FVal → FVal → FVal × BitVec 6) (a b : Nat) : Nat × BitVec 6 :=
  let (x, fx) := readF f a
  let (y, fy) := readF f b
  finishF f rm (fx ||| fy) (op x y)

/-- Add, subtract, multiply, divide, square root by the order of the opcodes 0 to 4 (R133, R199). -/
def arithOp (f : Fmt) (rm k : Nat) (a b : Nat) : Nat × BitVec 6 :=
  match k with
  | 0 => arith2 f rm (addV rm) a b
  | 1 => arith2 f rm (fun x y => addV rm x y.negate) a b
  | 2 => arith2 f rm mulV a b
  | 3 => arith2 f rm divV a b
  | _ => let (x, fx) := readF f a; finishF f rm fx (sqrtV x)

/-- Fused multiply-add on encodings, with the product or the addend negated. -/
def fmaOp (f : Fmt) (rm : Nat) (negP negC : Bool) (a b c : Nat) : Nat × BitVec 6 :=
  let (x, fx) := readF f a
  let (y, fy) := readF f b
  let (z, fz) := readF f c
  finishF f rm (fx ||| fy ||| fz) (fmaV rm (if negP then x.negate else x) y (if negC then z.negate else z))

/-- Order of two non-NaN values; zeros are equal. -/
def ltV (a b : FVal) : Bool :=
  let key (v : FVal) : Int := match v with
    | .zero _ => 0
    | .fin n _ _ => if n then -1 else 1
    | .inf n => if n then -2 else 2
    | .nan _ => 0
  match a, b with
  | .fin x m e, .fin y n g =>
    let lo := min e g
    let i : Int := (if x then -1 else 1) * ((m * 2 ^ (e - lo).toNat : Nat) : Int)
    let j : Int := (if y then -1 else 1) * ((n * 2 ^ (g - lo).toNat : Nat) : Int)
    decide (i < j)
  | a, b => decide (key a < key b)

/-- Equality of two non-NaN values. -/
def eqV (a b : FVal) : Bool := !ltV a b && !ltV b a

/-- feq, flt, fle by k = 0, 1, 2 (R82). -/
def compareOp (f : Fmt) (k : Nat) (a b : Nat) : Bool × BitVec 6 :=
  let (x, fx) := readF f a
  let (y, fy) := readF f b
  let fl := fx ||| fy ||| x.nvIn ||| y.nvIn
  match x, y with
  | .nan _, _ => (false, if k = 0 then fl else fl ||| flNV)
  | _, .nan _ => (false, if k = 0 then fl else fl ||| flNV)
  | x, y => (if k = 0 then eqV x y else if k = 1 then ltV x y else !ltV y x, fl)

/-- minimumNumber and maximumNumber of values; -0 orders below +0 (R82). -/
def minMaxV (isMax : Bool) (x y : FVal) : FVal × BitVec 6 :=
  let nv := x.nvIn ||| y.nvIn
  match x, y with
  | .nan _, .nan _ => (.nan false, nv)
  | .nan _, y => (y, nv)
  | x, .nan _ => (x, nv)
  | .zero p, .zero q => (.zero (if isMax then p && q else p || q), nv)
  | x, y => (if (if isMax then ltV x y else ltV y x) then y else x, nv)

/-- fmin, fmax on encodings (R82). -/
def minMaxOp (f : Fmt) (isMax : Bool) (a b : Nat) : Nat × BitVec 6 :=
  let (x, fx) := readF f a
  let (y, fy) := readF f b
  finishF f 1 (fx ||| fy) (minMaxV isMax x y)

/-- Unbiased exponent of a finite non-zero value. -/
def FVal.exponent? : FVal → Option Int
  | .fin _ m e => some (e + Nat.log2 m)
  | _ => none

/-- trunc(v * 2^k) toward zero; zero where v is not finite (R78). -/
def FVal.truncScaled (v : FVal) (k : Int) : Int :=
  match v with
  | .fin n m e =>
    let q : Nat := if 0 ≤ e + k then m * 2 ^ (e + k).toNat else m / 2 ^ (-(e + k)).toNat
    if n then -(q : Int) else q
  | _ => 0

/-- The exponent X of R78 and R143: one above the largest exponent of finite non-zero values. -/
def fxExponent (vs : List FVal) : Option Int :=
  vs.foldl (fun acc v => match v.exponent?, acc with
    | some e, none => some (e + 1)
    | some e, some x => some (max x (e + 1))
    | none, x => x) none

/-- One MX block of 32 values (R53): the scale byte, the element encodings and the flags. Absent elements take part as
zeros; src gives values, some flags of reading included. -/
def mxQuantise (dst : Fmt) (rm : Nat) (vs : List FVal) : Byte × List (Nat × BitVec 6) × BitVec 6 :=
  if vs.any (fun v => match v with | .nan _ | .inf _ => true | _ => false) then
    (0xFF, vs.map (fun _ => (0, 0)), flNV)
  else match fxExponent vs with
  | none => (0, vs.map (fun v => packF dst rm true v), 0)
  | some x =>
    let eel : Int := match dst with | .e4m3 => 8 | .e5m2 => 15 | .e2m1 => 2 | _ => 0
    let sc := max 0 (min 254 (x - 1 - eel + 127))
    (BitVec.ofInt 8 sc, vs.map (fun v => match v with
      | .fin n m e => packF dst rm true (.fin n m (e - (sc - 127)))
      | v => packF dst rm true v), 0)

end Sys2Proof.Machine
end

