-- ==== Sys2Proof/Machine/Mem.lean ====
section
/-! DEFINITION. Device memory as one list of cells in canonical form (R22, R23), with the aligned 8 B words that hold an
uncorrectable error (R252). A byte that nothing has written reads as zero (DESIGN CHOICE, log 1). -/

namespace Sys2Proof.Machine

/-- What an unlisted address reads as. -/
def memDefault : Byte := 0

/-- Reading one byte. -/
def memRead : List Host.Cell → Nat → Byte
  | [], _ => memDefault
  | (a, b) :: r, x => if a = x then b else memRead r x

/-- Writing one byte, keeping the canonical form. -/
def memWrite : List Host.Cell → Nat → Byte → List Host.Cell
  | [], x, v => if v = memDefault then [] else [(x, v)]
  | (a, b) :: r, x, v =>
    if x < a then (if v = memDefault then (a, b) :: r else (x, v) :: (a, b) :: r)
    else if x = a then (if v = memDefault then r else (x, v) :: r)
    else (a, b) :: memWrite r x v

/-- The canonical form: addresses strictly rising, no cell at the default. -/
def memWf : List Host.Cell → Bool
  | [] => true
  | [(_, b)] => b != memDefault
  | (a, b) :: (c, d) :: r => b != memDefault && decide (a < c) && memWf ((c, d) :: r)

/-- Writing bytes at rising addresses from x. -/
def memWrites (m : List Host.Cell) (x : Nat) : List Byte → List Host.Cell
  | [] => m
  | b :: r => memWrites (memWrite m x b) (x + 1) r

/-- Reading n bytes at rising addresses from x. -/
def memReads (m : List Host.Cell) (x : Nat) : Nat → List Byte
  | 0 => []
  | n + 1 => memRead m x :: memReads m (x + 1) n

/-- Every byte of [lo, hi) returns to the default. -/
def memClear (m : List Host.Cell) (lo hi : Nat) : List Host.Cell := m.filter (fun c => !(decide (lo ≤ c.1) && decide (c.1 < hi)))

/-- Whether any of the n bytes from x lies in a word with an uncorrectable error. -/
def ueHit (ue : List Nat) (x n : Nat) : Bool := ue.any (fun k => decide (k * 8 < x + n) && decide (x < k * 8 + 8))

/-- The words with an uncorrectable error after one access wrote n bytes from x: a word written whole returns to
normal (R252). -/
def ueWrite (ue : List Nat) (x n : Nat) : List Nat := ue.filter (fun k => !(decide (x ≤ k * 8) && decide (k * 8 + 8 ≤ x + n)))

/-- The words with a correctable error after one access wrote n bytes from x: every word it touches gets new check bits, a part of a
word through its read-modify-write (R251). -/
def ceWrite (ce : List Nat) (x n : Nat) : List Nat := ce.filter (fun k => !(decide (k * 8 < x + n) && decide (x < k * 8 + 8)))

/-- Adding a word with an uncorrectable error. -/
def ueAdd : List Nat → Nat → List Nat
  | [], k => [k]
  | a :: r, k => if k < a then k :: a :: r else if k = a then a :: r else a :: ueAdd r k

/-- Writing bytes by one access. -/
def State.writeBytes (s : State) (x : Nat) (bs : List Byte) : State :=
  { s with mem := memWrites s.mem x bs, ue := ueWrite s.ue x bs.length, ce := ceWrite s.ce x bs.length }

/-- Reading n bytes. -/
def State.readBytes (s : State) (x n : Nat) : List Byte := memReads s.mem x n

/-- Zeroing [lo, hi) with correct ECC. -/
def State.clearBytes (s : State) (lo hi : Nat) : State :=
  let keep (k : Nat) : Bool := !(decide (lo ≤ k * 8) && decide (k * 8 < hi))
  { s with mem := memClear s.mem lo hi, ue := s.ue.filter keep, ce := s.ce.filter keep }

/-- Reading an aligned word. -/
def State.readWord (s : State) (x : Nat) : W64 := bytesWord (s.readBytes x 8)

/-- Writing an aligned word. -/
def State.writeWord (s : State) (x : Nat) (v : W64) : State := s.writeBytes x (wordBytes v)

/-- Local physical address of offset o of well w's window (R22). -/
def wellAddr (w : WellId) (o : Nat) : Nat := 0x30000000000 + w.val * 0x1000000 + o

end Sys2Proof.Machine
end

