-- ==== Sys2Proof/Machine/Ops.lean ====
section
/-! DEFINITION. The named operations over wells and registers: register access, windows, the store buffer, taking an
exception or interrupt, wedging, and the return (R161-R231). -/

namespace Sys2Proof.Machine

/-- A step's outcome. -/
abbrev Out := Host.Outcome State Fault Refusal

/-- Changing one well. -/
def State.modWell (s : State) (w : WellId) (f : Well → Well) : State := { s with wells := s.wells.set w (f s.wells[w]) }

/-- Changing one well's Windlass. -/
def State.modCpu (s : State) (w : WellId) (f : Windlass → Windlass) : State :=
  s.modWell w (fun x => { x with cpu := f x.cpu })

/-- Changing one well's Flume. -/
def State.modFlume (s : State) (w : WellId) (f : Flume → Flume) : State :=
  s.modWell w (fun x => { x with flume := f x.flume })

/-- Changing one well's Millrace. -/
def State.modMr (s : State) (w : WellId) (f : Millrace → Millrace) : State :=
  s.modWell w (fun x => { x with mr := f x.mr })

/-- Changing one well's store registers. -/
def State.modSt (s : State) (w : WellId) (f : Stores → Stores) : State :=
  s.modWell w (fun x => { x with st := f x.st })

/-- The Windlass of a well. -/
def State.cpu (s : State) (w : WellId) : Windlass := s.wells[w].cpu

/-- Taking the next free value. -/
def State.takeFree (s : State) : W64 × State := (Config.freeWord s.free, { s with free := s.free + 1 })

/-- STAGE.NUMBER as it reads: zero while ROLE is OFF (R332, R435). -/
def State.stageNumber (s : State) : W64 := if s.stg.role = 0 then 0 else s.stg.number

/-- Sending a fault report naming the stage in progress (R436). -/
def State.report (s : State) (unit : BitVec 16) (cls : BitVec 8) (detail : W64) : State :=
  { s with reports := s.reports ++ [{ unit := unit, cls := cls, stage := s.stageNumber, detail := detail, job := 0xFFFF, joined := [] }] }

/-- A fault report that names the job concerned. -/
def State.reportJob (s : State) (unit : BitVec 16) (cls : BitVec 8) (detail : W64) (job : BitVec 16) : State :=
  { s with reports := s.reports ++ [{ unit := unit, cls := cls, stage := s.stageNumber, detail := detail, job := job, joined := [] }] }

/-- Unit ID of a well (R32). -/
def wellUnit (w : WellId) : BitVec 16 := BitVec.ofNat 16 (0x1000 + w.val)

/-- Whether the power domain that holds a well is on (R19). -/
def State.wellOn (s : State) (w : WellId) : Bool := s.domainOn.getLsbD (w.val / 4)

/-- Whether the compute and memory-side dies have their clock: they stop after the loss of REFCLK_A (R503). -/
def State.dieClocked (s : State) : Bool := !s.pw.refALost

/-- An event from another clock domain starts through a well's synchroniser; its arrival sets the line (R550). -/
def syncLine (w : WellId) (line : Fin 11) (s : State) : State := { s with sync := s.sync ++ [{ well := w, line := line }] }

/-- Reading a g register of a bank: g0 reads as zero (R161). -/
def Windlass.gGet (c : Windlass) (shadow : Bool) (n : Fin 32) : W64 :=
  if n = 0 then 0 else if shadow then c.gS[n] else c.gN[n]

/-- Writing a g register of a bank: a write to g0 is discarded (R161). A write restores parity (R164). -/
def Windlass.gSet (c : Windlass) (shadow : Bool) (n : Fin 32) (v : W64) : Windlass :=
  if n = 0 then c
  else if shadow then { c with gS := c.gS.set n v, badRegs := c.badRegs.filter (· != .g true n) }
  else { c with gN := c.gN.set n v, badRegs := c.badRegs.filter (· != .g false n) }

/-- Reading g of the bank in use. -/
def Windlass.rd (c : Windlass) (n : Fin 32) : W64 := c.gGet c.eff.bank n

/-- Writing g of the bank in use. -/
def Windlass.wr_ (c : Windlass) (n : Fin 32) (v : W64) : Windlass := c.gSet c.eff.bank n v

/-- A write to a g register at a later point in program order than a Flume result or a `trig.get` that has not been written yet: the
earlier write is lost (R175). -/
def Well.dropLate (u : Well) (shadow : Bool) (n : Fin 32) : Well :=
  if n = 0 then u
  else
    let hit (d : Bool × Fin 32) : Bool := d.1 == shadow && d.2 == n
    { u with
      flume := { u.flume with window := u.flume.window.map (fun e => match e.gdest with
        | some d => if hit (d.1, d.2.1) then { e with gdest := none } else e
        | none => e) }
      cpu := { u.cpu with getPend := u.cpu.getPend.map (fun d => if hit d then (shadow, 0) else d) } }

/-- An instruction writes a g register of a bank (R161, R175). -/
def Well.gWrite (u : Well) (shadow : Bool) (n : Fin 32) (v : W64) : Well :=
  let u := u.dropLate shadow n
  { u with cpu := u.cpu.gSet shadow n v }

/-- Writing a q register. -/
def Windlass.qSet (c : Windlass) (n : Fin 16) (v : BitVec 128) : Windlass :=
  { c with q := c.q.set n v, badRegs := c.badRegs.filter (· != .q n) }

/-- Writing a load's destination (R173). -/
def Windlass.loadSet (c : Windlass) (d : LoadDest) (v : BitVec 128) : Windlass :=
  match d with
  | .g sh n => c.gSet sh n (v.truncate 64)
  | .q n => c.qSet n v

/-- Putting one mode in effect (R184). -/
def Modes.put (m : Modes) : ModeVal → Modes
  | .ie b => { m with ie := b }
  | .ring r => { m with ring := r }
  | .frm f => { m with frm := f }
  | .vtype t => { m with vtype := t }

/-- Every open load window completes in order (R178); a load whose data is bad writes nothing. -/
def Windlass.finishLoads (c : Windlass) : Windlass :=
  c.loads.foldl (fun c l => match l.value with | some v => c.loadSet l.dest v | none => c) { c with loads := [] }

/-- The effective address of the first open load with bad data (R179). -/
def Windlass.badLoad (c : Windlass) : Option W64 := (c.loads.find? (fun l => l.value.isNone)).map (·.ea)

/-- The load windows that are due close (R173): loads with nothing left write their destinations, in order. -/
def Windlass.closeDue (c : Windlass) : Windlass :=
  (c.loads.filter (·.left == 0)).foldl
    (fun c l => match l.value with | some v => c.loadSet l.dest v | none => c)
    { c with loads := c.loads.filter (·.left != 0) }

/-- The first due load with bad data. -/
def Windlass.badDue (c : Windlass) : Option W64 :=
  (c.loads.find? (fun l => l.left == 0 && l.value.isNone)).map (·.ea)

/-- The g registers that loads write prevail over results still under way (R175). -/
def Well.dropLoads (u : Well) (ls : List LoadWindow) : Well :=
  ls.foldl (fun u l => match l.dest with | .g sh n => if l.value.isSome then u.dropLate sh n else u | .q _ => u) u

/-- The due load windows of a well close (R173, R175). -/
def State.closeDue (s : State) (w : WellId) : State :=
  s.modWell w (fun u =>
    let u := u.dropLoads (u.cpu.loads.filter (·.left == 0))
    { u with cpu := u.cpu.closeDue })

/-- Every open load window of a well completes (R178, R175). -/
def State.finishLoads (s : State) (w : WellId) : State :=
  s.modWell w (fun u =>
    let u := u.dropLoads u.cpu.loads
    { u with cpu := u.cpu.finishLoads })

/-- Set index of an I-cache line (R188). -/
def icacheSet (l : BitVec 50) : BitVec 8 := l.extractLsb' 0 8 ^^^ l.extractLsb' 8 8 ^^^ l.extractLsb' 16 8 ^^^ l.extractLsb' 24 8

/-- A line enters the cache, or is used in it, as the most recently used of its set; the set keeps four (R188). -/
def icachePut (l : ICacheLine) (c : List ICacheLine) : List ICacheLine :=
  let same (x : ICacheLine) : Bool := icacheSet x.line == icacheSet l.line
  let others := c.filter (fun x => !same x)
  let mine := l :: (c.filter (fun x => same x && !(x.line == l.line && x.asid == l.asid)))
  mine.take 4 ++ others

/-- The line that a fetch at pc under an ASID hits (R188). -/
def Windlass.hitLine (c : Windlass) (asid : BitVec 16) (pc : BitVec 56) : Option ICacheLine :=
  c.icache.find? (fun l => l.asid == asid && l.line == pc.extractLsb' 6 50)

/-- The line that a fetch hits becomes the most recently used of its set (R188). -/
def Windlass.useLine (c : Windlass) (asid : BitVec 16) (pc : BitVec 56) : Windlass :=
  match c.hitLine asid pc with
  | some l => { c with icache := icachePut l c.icache }
  | none => c

/-- The instruction at the pc is fetched from a line with bad parity (R190). -/
def Windlass.lineBad (c : Windlass) : Bool := match c.hitLine c.fetchAsid c.pc with | some l => l.bad | none => false

/-- A line with bad parity leaves the cache to be fetched again, and is counted (R190). -/
def Windlass.dropLine (c : Windlass) : Windlass :=
  { c with icache := c.icache.filter (fun l => !(l.asid == c.fetchAsid && l.line == c.pc.extractLsb' 6 50))
           refetches := countUp c.refetches 1, stall := some .refetch }

/-- Every open mode change completes (R185). -/
def Windlass.finishModes (c : Windlass) : Windlass := { c with eff := c.wr, modeWins := [] }

/-- One instruction counts against every open window (R174); a mode change whose window ends takes effect (R184). -/
def Windlass.countWindows (c : Windlass) : Windlass :=
  let ms := c.modeWins.map (fun m => { m with left := m.left - 1 })
  { c with
    loads := c.loads.map (fun l => { l with left := l.left - 1 })
    modeWins := ms.filter (·.left != 0)
    eff := (ms.filter (·.left == 0)).foldl (fun e m => e.put m.val) c.eff }

/-- Opening a mode-change window: three instructions after this one run under the old mode (R184). The count includes
the instruction that opens it, which counts itself when it completes. -/
def Windlass.openMode (c : Windlass) (v : ModeVal) : Windlass :=
  { c with wr := c.wr.put v, modeWins := c.modeWins ++ [{ val := v, left := 4 }] }

/-- The masked bytes of a store-buffer entry as single-byte writes at well-window offsets. -/
def SbEntry.bytes (e : SbEntry) : List (Nat × Byte) :=
  ((List.range 8).filter (fun i => e.be.getLsbD i)).map (fun i => (e.word.toNat + i, (e.data.extractLsb' (8 * i) 8)))

/-- One entry drains into its memory (R194): a full word restores a bad word, a merge does not (R252). -/
def State.drainEntry (s : State) (w : WellId) (e : SbEntry) : State :=
  if e.be = 0xFF then s.writeBytes (wellAddr w e.word.toNat) (wordBytes e.data)
  else e.bytes.foldl (fun s p => s.writeBytes (wellAddr w p.1) [p.2]) s

/-- The store buffer drains in full (R196). -/
def State.drainAll (s : State) (w : WellId) : State :=
  ((s.cpu w).storeBuf.foldl (fun s e => s.drainEntry w e) s).modCpu w (fun c => { c with storeBuf := [] })

/-- A word of the CAUSE register (R209). -/
def causeWord (intr : Bool) (ring : BitVec 2) (info code : BitVec 8) : W64 :=
  putB 63 intr ||| putN 58 ring.toNat ||| putN 32 info.toNat ||| putN 0 code.toNat

/-- ESTATUS as entry writes it (R213, R209). -/
def estatusWord (skip : Bool) (m : Modes) : W64 := putB 4 skip ||| putN 2 m.ring.toNat ||| putB 1 m.bank ||| putB 0 m.ie

/-- Bits of ESTATUS that hold fields (R209). -/
def estatusMask : W64 := 0x1F

/-- The 35 words of shadow g1-g31, EPC, ESTATUS, CAUSE, EINFO (R221, R225); reserved bits are written as zero (R35). -/
def Windlass.contextWords (c : Windlass) : List W64 :=
  (List.range 31).map (fun i => c.gS.getD (i + 1) 0) ++ [c.exc.epc, c.exc.estatus &&& estatusMask, c.exc.cause, c.exc.einfo]

/-- The registers that the last-resort record copies, the event's words between them: a register with bad parity is written as zero
(R225). -/
def Windlass.recordWords (c : Windlass) (event : List W64) : List W64 :=
  let z (r : RegRef) (v : W64) : W64 := if c.badRegs.contains r then 0 else v
  (List.range 31).map (fun i => z (.g true (Fin.ofNat 32 (i + 1))) (c.gS.getD (i + 1) 0)) ++
    [z (.csr 0x021) c.exc.epc, z (.csr 0x02B) (c.exc.estatus &&& estatusMask), z (.csr 0x020) c.exc.cause, z (.csr 0x022) c.exc.einfo] ++
    event ++ [z (.csr 0x024) (c.exc.xsp.setWidth 64), z (.csr 0x025) (c.exc.xbase.setWidth 64), z (.csr 0x026) (c.exc.xlimit.setWidth 64),
      z (.csr 0x02F) (c.exc.edepth.setWidth 64)]

/-- Writing words at rising addresses. -/
def State.writeWords (s : State) (a : Nat) : List W64 → State
  | [] => s
  | v :: r => (s.writeWord a v).writeWords (a + 8) r

/-- The event whose entry failed, as the last-resort record names it (R225). -/
structure WedgeEvent where
  cause : W64
  pc    : BitVec 56
  info  : W64
  deriving DecidableEq, Repr

/-- A stop request (R119, R224): a queue that is neither empty nor frozen freezes at its head's next stopping point, at once where no
pass or `mfin` is under way. The weight buffers keep nothing while the queue is frozen (R120). -/
def Millrace.halt (m : Millrace) : Millrace :=
  if m.queue.isEmpty || m.frozen then { m with haltReq := false }
  else if m.inPass then { m with haltReq := true }
  else { m with frozen := true, reason := .halted, fcode := 0, loaded := [], ahead := [], haltReq := false }

/-- The well wedges (R224, R225): the Windlass stops, the record is written, the Millrace queue is left frozen, and
WELL_WEDGED is reported with its reason. -/
def wedge (w : WellId) (reason : Nat) (ev : WedgeEvent) (s : State) : State :=
  let words := (s.cpu w).recordWords [ev.cause, ev.pc.setWidth 64, ev.info] ++ [w64 reason, s.stageNumber] ++
    List.replicate 19 0 ++ [putB 63 true ||| 0x0100]
  let s := s.writeWords (wellAddr w 0x71FE00) words
  let s := s.modWell w (fun u => { u with
    cpu := { u.cpu with running := false, wedged := true, stall := none }
    mr := u.mr.halt })
  s.report (wellUnit w) 0x02 (w64 reason)

/-- Whether a frame may be pushed (R222). -/
def pushOk (x : ExcRegs) : Bool :=
  let sp := x.xsp.toNat; let b := x.xbase.toNat; let l := x.xlimit.toNat
  decide (sp % 64 = 0 ∧ 0x700000 ≤ b ∧ b + 512 ≤ l ∧ l ≤ 0x71FE00 ∧ b ≤ sp ∧ sp + 512 ≤ l)

/-- Whether a frame may be popped (R223). -/
def popOk (x : ExcRegs) : Bool :=
  decide (x.xsp.toNat % 64 = 0 ∧ x.xbase.toNat + 512 ≤ x.xsp.toNat ∧ x.edepth ≠ 0)

/-- Pushing the 512 B frame at XSP (R221). -/
def pushFrame (w : WellId) (s : State) : State :=
  let c := s.cpu w
  let s := s.writeWords (wellAddr w c.exc.xsp.toNat) (c.contextWords ++ List.replicate 29 0)
  s.modCpu w (fun c => { c with exc := { c.exc with xsp := c.exc.xsp + 512, edepth := c.exc.edepth + 1 } })

/-- The CSRs that every entry reads or writes (R213, R216): STATUS, RING, CAUSE, EPC, EINFO, ESTATUS. -/
def entryCsrs : List (BitVec 12) := [0x010, 0x011, 0x020, 0x021, 0x022, 0x02B]

/-- Whether a parity error lies in a register that entry reads or writes (R216); entry is the ENTRY that it reads, none for a `trap`. -/
def entryParity (c : Windlass) (entry : Option (BitVec 12)) : Bool :=
  c.badRegs.any (fun r => match r with
    | .csr a => entryCsrs.contains a || some a == entry || (c.eff.bank && decide (0x024 ≤ a.toNat ∧ a.toNat ≤ 0x026 ∨ a = 0x02F))
    | .g true _ => c.eff.bank
    | _ => false)

/-- A word that the push of a frame at XSP writes meets an uncorrectable write error (R224). -/
def pushBad (u : Well) : Bool :=
  u.st.wbad.any (fun k => decide (u.cpu.exc.xsp.toNat ≤ k.toNat * 8 ∧ k.toNat * 8 < u.cpu.exc.xsp.toNat + 512))

/-- The ring that handles an event of the given code occurring at the ring in effect (R211). -/
def handlerRing (c : Windlass) (intr : Bool) (code : BitVec 8) : BitVec 2 :=
  let deleg := if intr then c.exc.ideleg.getLsbD (code.toNat - 0x40) else decide (code.toNat < 64) && bitB c.exc.edeleg code.toNat
  if deleg && c.eff.ring != 0 then 1 else 0

/-- Whether a CAUSE word names REG_PARITY (R210). -/
def regParityCause (cause : W64) : Bool := cause.extractLsb' 0 8 == 0x16 && !bitB cause 63

/-- Entry with every window complete and the store buffer drained (R213 steps 3-6, R216, R219). target is the fetch
address, none when its ENTRY is not valid; entry is the ENTRY register read. A REG_PARITY entry lets nothing but its handler issue
(R164). -/
def enter (w : WellId) (cause : W64) (epc : BitVec 56) (evPc : BitVec 56) (einfo : W64) (ring : BitVec 2) (ie : Bool)
    (entry : Option (BitVec 12)) (target : Option (BitVec 56)) (s : State) : State :=
  let c := s.cpu w
  let ev : WedgeEvent := { cause := cause, pc := evPc, info := einfo }
  if entryParity c entry then wedge w 5 ev s
  else match target with
  | none => wedge w 4 ev s
  | some t =>
    if c.eff.bank && !pushOk c.exc then wedge w 1 ev s
    else if c.eff.bank && pushBad s.wells[w] then wedge w 3 ev s
    else
      let s := if c.eff.bank then pushFrame w s else s
      s.modWell w (fun u => { u with
        cpu :=
          let c := u.cpu
          let m := { c.eff with bank := true, ie := ie, ring := ring }
          { c with
            exc := { c.exc with epc := epc.setWidth 64 &&& ~~~7, estatus := estatusWord c.skipNext c.eff, cause := cause,
                                einfo := einfo }
            wr := m, eff := m, skipNext := false, fetchFault := none, stall := none, pc := t
            parityStop := c.parityStop || regParityCause cause }
        st := { u.st with
                waiters := u.st.waiters.filter (fun x => x.agent != .windlass && x.agent != .flume)
                claims := u.st.claims.filter (fun x => x.2 != .windlass && x.2 != .flume) } })

/-- The fetch address of the handler in ring h: ENTRY.ADDR where VALID = 1 (R213, R216). -/
def entryAddr (x : ExcRegs) (h : BitVec 2) : Option (BitVec 56) :=
  let e := if h = 0 then x.entry else x.entryR1
  if bitB e 63 then some (e.extractLsb' 0 56 &&& ~~~7) else none

/-- Steps 1 and 2 of R213: open windows complete, the store buffer drains. -/
def prepareEntry (w : WellId) (s : State) : State :=
  ((s.finishLoads w).modCpu w (·.finishModes)).drainAll w

/-- Which ENTRY register a handler's ring reads (R208). -/
def entryCsr (h : BitVec 2) : BitVec 12 := if h = 0 then 0x023 else 0x02A

/-- TAKING AN EVENT (R213) of the given code: it occurs at the ring in effect before the open mode changes complete (R209, R211); where
an open load's data is bad, STORE_ERR is taken in its place (R179). then_ is what else the event itself does. -/
def takeEvent (w : WellId) (intr : Bool) (code : BitVec 8) (einfo : W64) (pc : BitVec 56) (then_ : Windlass → Windlass) (s : State) : State :=
  let c := s.cpu w
  let s1 := prepareEntry w s
  let go (intr : Bool) (code : BitVec 8) (einfo : W64) (pc : BitVec 56) (s1 : State) : State :=
    let h := handlerRing c intr code
    enter w (causeWord intr c.eff.ring 0 code) pc pc einfo h false (some (entryCsr h)) (entryAddr c.exc h) s1
  match c.badLoad with
  | some ea => go false 0x15 ea c.pc s1
  | none => go intr code einfo pc (s1.modCpu w then_)

/-- TAKING A SYNCHRONOUS FAULT of the instruction at the pc (R213, R197). -/
def takeException (w : WellId) (code : BitVec 8) (info : W64) (s : State) : State :=
  takeEvent w false code info (s.cpu w).pc id (s.modCpu w (fun c => c.useLine c.fetchAsid c.pc))

/-- The deferred fault at the head is taken at the boundary (R117, R153); it stays due where STORE_ERR goes first (R179). -/
def takeDeferred (w : WellId) (f : FaultInfo) (s : State) : State :=
  takeEvent w false f.code f.info (s.cpu w).pc (fun c => { c with deferred := c.deferred.tail }) s

/-- The first address an interrupt returns to: past a `wfi` that waits, else the first instruction not issued (R214). -/
def interruptEpc (c : Windlass) : BitVec 56 := if c.stall = some .wfi then c.pc + 8 else c.pc

/-- TAKING AN INTERRUPT of line i (R213, R214, R227). -/
def takeInterrupt (w : WellId) (i : Fin 11) (s : State) : State :=
  takeEvent w true (BitVec.ofNat 8 (0x40 + i.val)) 0 (interruptEpc (s.cpu w)) id s

/-- Words read from a frame. -/
def State.readWords (s : State) (a : Nat) : Nat → List W64
  | 0 => []
  | n + 1 => s.readWord a :: s.readWords (a + 8) n

/-- Bits of CAUSE, EPC and an ENTRY that hold fields (R209). -/
def causeMask : W64 := 0x8C0000FF000000FF
def epcMask : W64 := 0x00FFFFFFFFFFFFF8
def entryMask : W64 := 0x80FFFFFFFFFFFFF8

/-- The frame below XSP is read back (R223), reserved bits of ESTATUS as the frame has them, for the check of R220. -/
def popFrame (w : WellId) (s : State) : State :=
  let sp := (s.cpu w).exc.xsp - 512
  let ws := s.readWords (wellAddr w sp.toNat) 35
  s.modCpu w (fun c =>
    { c with
      gS := Vector.ofFn (fun i => if i.val = 0 then 0 else ws.getD (i.val - 1) 0)
      badRegs := c.badRegs.filter (fun r => match r with | .g true _ => false | _ => true)
      exc := { c.exc with xsp := sp, edepth := c.exc.edepth - 1, epc := ws.getD 31 0 &&& epcMask, estatus := ws.getD 32 0,
                          cause := ws.getD 33 0 &&& causeMask, einfo := ws.getD 34 0 } })

/-- Whether the return's checks fail (R220). -/
def returnRefused (c : Windlass) (sluice : Bool) : Bool :=
  let e := c.exc.estatus
  decide ((e.extractLsb' 2 2).toNat < c.eff.ring.toNat) || decide (e.toNat ≥ 32) ||
    (sluice && c.exc.cause.extractLsb' 0 8 != 0x30)

/-- What a return restores from ESTATUS (R220): RING, IE and BANK with no window, in place of any change of them that is still open;
open changes of FRM and VTYPE count the return as one instruction and stay. -/
def Windlass.restore (c : Windlass) (sluice : Bool) : Windlass :=
  let e := c.exc.estatus
  let back (m : Modes) : Modes := { m with ie := bitB e 0, bank := bitB e 1, ring := e.extractLsb' 2 2 }
  let d := c.countWindows
  { d with eff := back d.eff, wr := back d.wr, skipNext := bitB e 4, stall := none, pc := c.exc.epc.extractLsb' 0 56 &&& ~~~7
           modeWins := d.modeWins.filter (fun m => match m.val with | .ie _ | .ring _ => false | _ => true)
           fetchAsid := if sluice then c.fetchAsid else c.wasid }

/-- RETURN FROM AN EXCEPTION OR A SLUICE (R220) with its checks passed: open loads complete, RING, IE and BANK are
restored, a frame is popped when ESTATUS.BANK = 1, and fetch resumes at the EPC read before the pop. WASID takes
effect at the target of a `rete` (R181). A failed check of the pop or an uncorrectable error in the frame wedges the well before any
register changes (R223); bad is the word that an ECC read of the frame found. -/
def returnFrom (w : WellId) (sluice : Bool) (bad : Bool) (s : State) : State :=
  let c := s.cpu w
  let ev : WedgeEvent := { cause := 0, pc := c.pc, info := 0 }
  let s1 := (s.finishLoads w).modCpu w (·.restore sluice)
  if bitB c.exc.estatus 1 then
    if !popOk c.exc then wedge w 2 ev s
    else if bad then wedge w 3 ev s
    else popFrame w s1
  else s1

end Sys2Proof.Machine
end

