-- ==== Sys2Proof/Machine/StoreOps.lean ====
section
/-! DEFINITION. The named operations over the well stores: regions, banks, BUSY tiles, ECC, tags, claims and range entries
(R92, R171, R234-R263). -/

namespace Sys2Proof.Machine

/-- Regions of the well window (R171). -/
inductive Region where
  | w | a | p | ram | ramProt | lastResort | ctrl
  deriving DecidableEq, Repr

/-- The region of an offset under DRLIM.LIMIT (R171). -/
def regionOf (drlim : BitVec 12) (o : Nat) : Option Region :=
  if o < 0x300000 then some .w
  else if o < 0x500000 then some .a
  else if o < 0x700000 then some .p
  else if o < 0x71FE00 then (if o < drlim.toNat * 0x1000 then some .ram else some .ramProt)
  else if o < 0x720000 then some .lastResort
  else if 0xF00000 ≤ o ∧ o < 0x1000000 then some .ctrl
  else none

/-- Highest ring number that may use a region (R171). -/
def Region.maxRing : Region → Nat
  | .w | .a | .p | .ram => 3
  | .ramProt => 1
  | .lastResort | .ctrl => 0

/-- Whether an offset lies in the three stores. -/
def inStores (o : Nat) : Bool := decide (o < 0x700000)

/-- Bank index of a store offset (R234, R261). -/
def bankOf (o : Nat) : Nat := o / 0x40000

/-- Whether the bank of a store offset is OPEN; data RAM has no banks (R254). -/
def bankOpenAt (st : Stores) (o : Nat) : Bool := !inStores o || st.banks.getD (bankOf o) .off == .open

/-- A byte range touches only open banks. -/
def banksOpen (st : Stores) (o n : Nat) : Bool :=
  (List.range 28).all (fun b => decide (b * 0x40000 + 0x40000 ≤ o ∨ o + n ≤ b * 0x40000) || st.banks.getD b .off == .open)

/-- OPCODE of a queued Millrace instruction and the tile its dest field names (R95). -/
def mrOp (i : W64) : Nat := fieldN i 50 10
def mrTile (i : W64) : Nat := fieldN i 45 4
def mrMode (i : W64) : Nat := fieldN i 26 4

/-- Floating mode codes (R96). -/
def floatMode (m : Nat) : Bool := decide (2 ≤ m)

/-- Units of the P-store that the tile of index a occupies, given its mode (R90). -/
def tileUnits (mode a : Nat) : List Nat := if floatMode mode then [a, a + 1] else [a]

/-- Units of BUSY tiles (R92): a queued instruction's tile takes the mode that the instruction or an earlier queued
`mclr` gives it, else the tile's. -/
def busyUnits (m : Millrace) : List Nat :=
  (m.queue.foldl (fun (acc : List Nat × List (Nat × Nat)) e =>
    let a := mrTile e.word
    let op := mrOp e.word
    let cur (k : Nat) : Nat := ((acc.2.find? (fun p => p.1 == k)).map (·.2)).getD ((m.tiles.getD k Tile.reset).mode.toNat)
    let md := if op = 1 ∨ op = 2 then mrMode e.word else cur a
    let src := fieldN e.word 0 4
    let extra := if op = 4 then tileUnits (cur src) src else []
    (acc.1 ++ tileUnits md a ++ extra, (a, md) :: acc.2)) ([], [])).1

/-- A tile index named by a queued instruction (R92, R108). -/
def tileBusy (m : Millrace) (a : Nat) : Bool :=
  m.queue.any (fun e => mrTile e.word == a || (mrOp e.word == 4 && fieldN e.word 0 4 == a))

/-- Whether [o, o + n) meets a unit of a BUSY tile (R92). -/
def hitsBusy (m : Millrace) (o n : Nat) : Bool :=
  (busyUnits m).any (fun u => decide (0x500000 + u * 0x20000 < o + n ∧ o < 0x500000 + u * 0x20000 + 0x20000))

/-- WS_ELAST of an error at offset o read by a source (R263). -/
def elastWord (ueB : Bool) (source o : Nat) : W64 := putB 63 true ||| putB 62 ueB ||| putN 59 source ||| w64 (o / 8 * 8)

/-- Reading n bytes of the stores or data RAM from offset o: correctable errors are corrected and recorded, an
uncorrectable one is recorded; answers the offset of the first bad word (R251). -/
def eccRead (w : WellId) (source o n : Nat) (s : State) : Option Nat × State :=
  let a := wellAddr w o
  let hit (k : Nat) : Bool := decide (k * 8 < a + n ∧ a < k * 8 + 8)
  let off (k : Nat) : Nat := k * 8 - wellAddr w 0
  let ces := s.ce.filter hit
  let s := if ces.isEmpty then s else
    { s with ce := s.ce.filter (fun k => !hit k) }.modSt w (fun t =>
      { t with cecnt := countUp t.cecnt ces.length, elast := elastWord false source (off (ces.getLastD 0)) })
  match s.ue.find? hit with
  | none => (none, s)
  | some k => (some (off k), s.modSt w (fun t => { t with elast := elastWord true source (off k) }))

/-- Slot of a store offset (R234). -/
def slotOf (o : Nat) : SlotId := Fin.ofNat 14336 (o / 512)

/-- Slots that a store byte range touches. -/
def slotsOf (o n : Nat) : List SlotId :=
  if n = 0 then [] else (List.range ((o + n - 1) / 512 - o / 512 + 1)).map (fun k => slotOf (o + 512 * k))

/-- The tag of a slot: true when full. -/
def Stores.full (t : Stores) (k : SlotId) : Bool := t.tags.getLsbD k.val

/-- Setting the tag of a slot. -/
def Stores.setTag (t : Stores) (k : SlotId) (b : Bool) : Stores :=
  { t with tags := if b then t.tags ||| (1#14336 <<< k.val) else t.tags &&& ~~~(1#14336 <<< k.val) }

/-- The claim on a slot. -/
def Stores.claim (t : Stores) (k : SlotId) : Option TagAgent := (t.claims.find? (fun c => c.1 == k)).map (·.2)

/-- Whether a slot's state suits a use, waiters apart (R239). -/
def tagSuits (t : Stores) (agent : TagAgent) (u : TagUse) (k : SlotId) : Bool :=
  match u with
  | .produce => !t.full k && (t.claim k == none || t.claim k == some agent)
  | .consume => t.full k && (t.claim k == none || t.claim k == some agent)
  | .leaveFull => t.full k

/-- Whether an agent may use a slot now: the slot suits, its group has good parity, and no earlier waiter that could be
granted stands before a producer or consumer (R239, R240, R253). -/
def tagReady (t : Stores) (agent : TagAgent) (u : TagUse) (k : SlotId) : Bool :=
  tagSuits t agent u k && !t.tagBad.any (fun g => g.1.val == k.val / 64) &&
    (u == .leaveFull || t.claim k == some agent ||
      !(t.waiters.takeWhile (fun x => !(x.slot == k && x.agent == agent))).any (fun x =>
        x.slot == k && tagSuits t x.agent x.use k))

/-- An agent starts, or keeps, its wait on a slot (R240). -/
def Stores.await (t : Stores) (agent : TagAgent) (u : TagUse) (k : SlotId) : Stores :=
  if t.waiters.any (fun x => x.slot == k && x.agent == agent) then t
  else { t with waiters := t.waiters ++ [{ slot := k, agent := agent, use := u }] }

/-- An agent's waits and claim on a slot end. -/
def Stores.release (t : Stores) (agent : TagAgent) (k : SlotId) : Stores :=
  { t with waiters := t.waiters.filter (fun x => !(x.slot == k && x.agent == agent)),
           claims := t.claims.filter (fun c => !(c.1 == k && c.2 == agent)) }

/-- All of an agent's waits and claims end (R240). -/
def Stores.releaseAll (t : Stores) (agent : TagAgent) : Stores :=
  { t with waiters := t.waiters.filter (fun x => x.agent != agent), claims := t.claims.filter (fun c => c.2 != agent) }

/-- A completed use of a slot: a producer leaves it full, a consumer empty, a leave-full reader unchanged (R239). -/
def Stores.useSlot (t : Stores) (agent : TagAgent) (u : TagUse) (k : SlotId) : Stores :=
  let t := t.release agent k
  match u with
  | .produce => t.setTag k true
  | .consume => t.setTag k false
  | .leaveFull => t

/-- The waits and claims of an agent on the slots of every well end (R240). -/
def releaseEverywhere (a : TagAgent) (s : State) : State :=
  { s with wells := s.wells.map (fun u =>
    if u.st.claims.any (fun c => c.2 == a) || u.st.waiters.any (fun x => x.agent == a) then { u with st := u.st.releaseAll a } else u) }

/-- A tag-honouring access meets a group with bad parity: one TAG_PARITY record is sent (R253). -/
def noteTagParity (w : WellId) (ks : List SlotId) (s : State) : State :=
  let t := s.wells[w].st
  if t.tagBad.any (fun g => !g.2 && ks.any (fun k => k.val / 64 == g.1.val)) then
    (s.modSt w (fun t => { t with tagBad := t.tagBad.map (fun g => if ks.any (fun k => k.val / 64 == g.1.val) then (g.1, true) else g) })).report
      (wellUnit w) 0x04 0
  else s

/-- Two spans overlap and one of them writes (R246). -/
def spanConflict (a b : Span) : Bool := decide (a.lo.toNat ≤ b.hi.toNat ∧ b.lo.toNat ≤ a.hi.toNat) && (a.write || b.write)

/-- Two spans overlap. -/
def spanOverlap (a b : Span) : Bool := decide (a.lo.toNat ≤ b.hi.toNat ∧ b.lo.toNat ≤ a.hi.toNat)

/-- A span of n bytes from o. -/
def mkSpan (o n : Nat) (write : Bool) : Span :=
  { lo := BitVec.ofNat 24 o, hi := BitVec.ofNat 24 (o + n - 1), write := write }

/-- The store (0 W, 1 A, 2 P) of an offset. -/
def storeOf (o : Nat) : Nat := if o < 0x300000 then 0 else if o < 0x500000 then 1 else 2

/-- The hull of byte ranges in each store (R245). -/
def hullSpans (ranges : List (Nat × Nat)) (write : Bool) : List Span :=
  (List.range 3).filterMap (fun k =>
    let rs := ranges.filter (fun r => decide (0 < r.2) && inStores r.1 && storeOf r.1 == k)
    match rs with
    | [] => none
    | r :: t =>
      let lo := t.foldl (fun m x => min m x.1) r.1
      let hi := t.foldl (fun m x => max m (x.1 + x.2)) (r.1 + r.2)
      some (mkSpan lo (hi - lo) write))

end Sys2Proof.Machine
end

