-- ==== Sys2Proof/Machine/MrOps.lean ====
section
/-! DEFINITION. The Millrace's operands, checks, tiles and arithmetic (R54-R74, R83-R124). -/

namespace Sys2Proof.Machine

/-- Modes that are MX, and modes that let EA and EB select E5M2 (R96). -/
def mxMode (m : Nat) : Bool := decide (m = 3 ∨ m = 4 ∨ m = 5)
def fp8Mode (m : Nat) : Bool := decide (m = 2 ∨ m = 3)

/-- K indices of a pass (R84). -/
def kPerPass (m : Nat) : Nat :=
  if m = 0 ∨ m = 2 ∨ m = 3 ∨ m = 5 then 256 else if m = 1 ∨ m = 4 then 512 else if m = 6 ∨ m = 7 then 128
  else if m = 8 then 64 else 32

/-- Panels of a pass: 32 K indices each in floating modes, one in integer modes (R84, R109). -/
def panelsPerPass (m : Nat) : Nat := if floatMode m then kPerPass m / 32 else 1

/-- Tile height (R84). -/
def tileHeight (m : Nat) : Nat := if floatMode m then 64 else 256

/-- Element formats of A and B (R58, R96). -/
def mrFmt (m : Nat) (e5 : Bool) : Fmt :=
  if m = 0 then .int8 else if m = 1 then .int4 else if m = 2 ∨ m = 3 then (if e5 then .e5m2 else .e4m3)
  else if m = 4 then .e2m1 else if m = 5 then .mxint8 else if m = 6 then .bf16 else if m = 7 then .fp16
  else if m = 8 then .fp32 else .fp64

/-- Kept bits k (R58). -/
def keptBits (m : Nat) : Nat :=
  if m = 0xB then 63 else if 9 ≤ m then 56 else if m = 8 then 28 else if m = 6 ∨ m = 7 then 14 else if m = 4 then 3 else 7

/-- gA of R97: ABASE, ASTRIDE, NROWS with 0 meaning the full height. -/
structure OpA where
  base : Nat
  stride : Nat
  rows : Nat
def opA (mode : Nat) (v : W64) : OpA :=
  let n := fieldN v 55 9
  { base := fieldN v 0 21, stride := fieldN v 32 21, rows := if n = 0 then tileHeight mode else n }
/-- Reserved bits of gA, gB, gS, gD, gP (R97). -/
def resA (v : W64) : Bool := fieldN v 21 11 != 0 || fieldN v 53 2 != 0
def resB (v : W64) : Bool := fieldN v 22 42 != 0
def resS (v : W64) : Bool := fieldN v 21 1 != 0 || fieldN v 54 10 != 0
def resD (v : W64) : Bool := fieldN v 24 8 != 0 || fieldN v 53 2 != 0
def resP (v : W64) : Bool := fieldN v 16 48 != 0

/-- Destination element size of `mfin` by DFMT, and its format (R101). -/
def dfmtOf (w : W64) : Fmt :=
  match fieldN w 27 3 with
  | 0 => .fp64 | 1 => .fp32 | 2 => .bf16 | 3 => .fp16 | 4 => .e4m3 | 5 => .e5m2 | 6 => .int32 | _ => .int8

/-- Passes of an `mmac` (R100). -/
def npassOf (w : W64) : Nat := if fieldN w 0 8 = 0 then 256 else fieldN w 0 8

/-- Mode that a tile index will have when the queue has run, as far as the queue tells. -/
def modeAfter (m : Millrace) (a : Nat) : Nat :=
  m.queue.foldl (fun cur e => if mrTile e.word = a ∧ (mrOp e.word = 1 ∨ mrOp e.word = 2) then mrMode e.word else cur)
    (m.tiles.getD a Tile.reset).mode.toNat

/-- Byte ranges that an `mmac` reads in the A-store, its rows and their scales, as offsets of the well window (R87, R88). -/
def mmacReadsA (word s1 s3 : W64) : List (Nat × Nat) :=
  let m := mrMode word
  let a := opA m s1
  let np := npassOf word
  (List.range a.rows).map (fun r => (0x300000 + a.base + r * a.stride, np * 256)) ++
    (if mxMode m then (List.range a.rows).map (fun r => (0x300000 + fieldN s3 0 21 + r * fieldN s3 22 10, np * panelsPerPass m)) else [])

/-- Byte ranges that an `mmac` reads in the W-store, its weight blocks and the B scales (R86, R88). -/
def mmacReadsW (word s2 s3 : W64) : List (Nat × Nat) :=
  let m := mrMode word
  let np := npassOf word
  (fieldN s2 0 22, np * 0x8000) :: (if mxMode m then [(fieldN s3 32 22, 128 * (np * panelsPerPass m))] else [])

/-- Well-window byte ranges that an `mmac` reads (R86-R88). -/
def mmacReads (word s1 s2 s3 : W64) : List (Nat × Nat) := mmacReadsA word s1 s3 ++ mmacReadsW word s2 s3

/-- Rows and stride of `mfin`'s destination ranges (R101). -/
def mfinWrites (mode : Nat) (word s1 : W64) : List (Nat × Nat) :=
  let a := opA mode s1
  (List.range a.rows).map (fun r => (fieldN s1 0 24 + r * a.stride, 128 * ((dfmtOf word).bits / 8)))

/-- Byte ranges of a tile's units. -/
def tileRanges (mode a : Nat) : List (Nat × Nat) := [(0x500000 + a * 0x20000, (tileUnits mode a).length * 0x20000)]

/-- Ranges that a queued instruction reads and writes, the tile in the P-store included; `mclr` touches none (R245, R91). -/
def mrRanges (mode : Nat) (word s1 s2 s3 : W64) : List (Nat × Nat) × List (Nat × Nat) :=
  match mrOp word with
  | 2 => (mmacReads word s1 s2 s3, tileRanges (mrMode word) (mrTile word))
  | 3 => (tileRanges mode (mrTile word), mfinWrites mode word s1)
  | 4 => (tileRanges mode (fieldN word 0 4), tileRanges mode (mrTile word))
  | 6 => ([], [(fieldN s1 0 24, 4096)])
  | 7 => ([(0x300000 + fieldN s1 0 21, 4096)], [])
  | _ => ([], [])

/-- Range entries of a queued instruction: the hull in each store, a write entry where it writes (R245). -/
def mrSpans (mode : Nat) (word s1 s2 s3 : W64) : List Span :=
  let (r, wv) := mrRanges mode word s1 s2 s3
  (hullSpans (r ++ wv) false).map (fun sp =>
    { sp with write := wv.any (fun x => storeOf x.1 == storeOf sp.lo.toNat) })

/-- Range entries held by the whole queue, each with the mode its tile has when the entries before it have run. -/
def queueSpans (m : Millrace) : List Span :=
  (List.range m.queue.length).flatMap (fun k => (m.queue[k]?.toList).flatMap (fun e =>
    mrSpans (modeAfter { m with queue := m.queue.take k } (mrTile e.word)) e.word e.s1 e.s2 e.s3))

/-- The banks of the tiles that an instruction names are OPEN (R94). -/
def tileBanksOpen (st : Stores) (word : W64) : Bool :=
  st.banks.getD (20 + mrTile word / 2) .off == .open &&
    (mrOp word != 4 || st.banks.getD (20 + fieldN word 0 4 / 2) .off == .open)

/-- The at-issue fault of a queued instruction, none when it may be queued (R116, in the order of R212); a tile named in a closed bank is
refused at issue (R94, R255). -/
def mrIssueFault (m : Millrace) (st : Stores) (word s1 s2 s3 : W64) : Option (BitVec 8) :=
  let op := mrOp word
  let a := mrTile word
  let mode := if op = 1 ∨ op = 2 then mrMode word else modeAfter m a
  let eaeb := bitB word 25 || bitB word 24
  let enc : Bool :=
    match op with
    | 1 => decide (0xC ≤ mode) || (eaeb && !fp8Mode mode) || fieldN word 20 2 != 0 || (bitB word 23 && floatMode mode) ||
        (bitB word 22 && !floatMode mode) || resP s1
    | 2 => decide (0xC ≤ mode) || (eaeb && !fp8Mode mode) || (fieldN word 30 5 != 0 && !mxMode mode) || resA s1 || resB s2 ||
        (mxMode mode && resS s3)
    | 3 => resD s1
    | 6 => resD s1
    | 7 => resS s1
    | _ => false
  let tile : Bool := ((op = 1 ∨ op = 2) && floatMode mode && decide (a % 2 = 1)) || !tileBanksOpen st word
  let trig := decide (op = 2 ∨ op = 3 ∨ op = 4) && bitB word 23 && decide (m.trigCount.toNat ≤ fieldN word 11 12)
  let okIn (lo hi : Nat) (l : List (Nat × Nat)) : Bool :=
    l.all (fun r => decide (lo ≤ r.1 ∧ r.1 + r.2 ≤ hi) && banksOpen st r.1 r.2)
  let own := tileUnits mode a
  let clash (l : List (Nat × Nat)) : Bool := l.any (fun r =>
    hitsBusy m r.1 r.2 || own.any (fun u => decide (0x500000 + u * 0x20000 < r.1 + r.2 ∧ r.1 < 0x500000 + u * 0x20000 + 0x20000)))
  let al (n k : Nat) : Bool := n % k == 0
  let rng : Bool :=
    match op with
    | 2 =>
      let x := opA mode s1
      !al x.base 64 || !al x.stride 64 || !al (fieldN s2 0 22) 1024 || (mxMode mode && !al (fieldN s3 32 22) 128) ||
        decide (tileHeight mode < x.rows) ||
        !okIn 0x300000 0x500000 (mmacReadsA word s1 s3) || !okIn 0 0x300000 (mmacReadsW word s2 s3)
    | 3 =>
      let x := opA mode s1
      let ws := mfinWrites mode word s1
      !al (fieldN s1 0 24) 64 || !al x.stride 64 || decide (tileHeight mode < x.rows) ||
        decide (x.stride < 128 * ((dfmtOf word).bits / 8)) || !okIn 0 0x700000 ws || clash ws
    | 6 =>
      let ws := [(fieldN s1 0 24, 4096)]
      !al (fieldN s1 0 24) 64 || !okIn 0 0x700000 ws || clash ws
    | 7 => !al (fieldN s1 0 21) 64 || !okIn 0x300000 0x500000 [(0x300000 + fieldN s1 0 21, 4096)]
    | _ => false
  if enc then some 0x28 else if tile then some 0x29 else if rng || trig then some 0x2A
  else if m.frozen then some 0x2F else none

/-! Sideband words (R108, R109, R118). -/

/-- MR_TSTAT.STATE codes. -/
def TileState.code : TileState → Nat
  | .uninit => 0 | .empty => 1 | .active => 2

/-- MR_TSTAT. -/
def tstatWord (t : Tile) (busy : Bool) : W64 :=
  putN 48 t.anchor.toNat ||| putN 44 t.mode.toNat ||| putB 43 t.ea ||| putB 42 t.eb ||| putN 40 t.st.code ||| putB 39 t.ovfm |||
    putB 38 t.preset ||| putB 37 t.anchored ||| putB 36 busy ||| putN 32 t.sc.toNat ||| putB 15 t.poison ||| putB 13 t.tovf |||
    putB 12 t.raLoss ||| putB 11 t.sticky ||| putB 10 t.special ||| putB 9 t.fi ||| putB 8 t.anv ||| putN 0 t.fin.toNat

/-- Words 0 to 7 of the header. -/
def headerWord (t : Tile) (busy : Bool) (k : Nat) : W64 :=
  match k with
  | 0 => tstatWord t busy
  | 1 => putB 63 t.fvalid ||| putN 48 t.frow.toNat ||| putN 32 t.fcol.toNat ||| putN 16 t.pbound.toNat
  | 2 => t.tpanels.setWidth 64
  | _ => 0

/-- The sideband word at byte offset 8k of R110. -/
def sidebandWord (t : Tile) (busy : Bool) (k : Nat) : W64 :=
  if k < 8 then headerWord t busy k
  else if k < 136 then t.nan.extractLsb' (64 * (k - 8)) 64
  else if k < 264 then t.posInf.extractLsb' (64 * (k - 136)) 64
  else if k < 392 then t.negInf.extractLsb' (64 * (k - 264)) 64
  else 0

/-- Whether an index is ACCI + 1 of a floating tile, whose sideband reads as zero (R108). -/
def upperHalf (m : Millrace) (n : Nat) : Bool :=
  n % 2 == 1 && (let t := m.tiles.getD (n - 1) Tile.reset
    t.st != .uninit && floatMode t.mode.toNat)

/-- A sideband word of index n as it is read (R103, R108, R110). -/
def sidebandAt (m : Millrace) (n k : Nat) : W64 :=
  if upperHalf m n then 0 else sidebandWord (m.tiles.getD n Tile.reset) (tileBusy m n) k

/-- MR_PROGRESS (R118). -/
def progressWord (m : Millrace) : W64 :=
  putB 63 (m.frozen && !m.queue.isEmpty) ||| putN 56 m.queue.length |||
    putN 48 (match m.reason with | .none => 0 | .halted => 1 | .fault => 2) |||
    putN 32 ((m.queue.head?.map (·.pass.toNat)).getD 0) ||| m.fcode.setWidth 64

/-- MR_QPC (R118). -/
def qpcWord (m : Millrace) : W64 := match m.queue with | [] => 0 | e :: _ => e.addr.setWidth 64

/-- A read of MR_QPC (R118): with no head entry its value is free. -/
def qpcRead (w : WellId) (s : State) : W64 × State :=
  if s.wells[w].mr.queue.isEmpty then s.takeFree else (qpcWord s.wells[w].mr, s)

/-- A tile read from a sideband image (R104): none where a reserved field is non-zero. -/
def tileOfImage (ws : List W64) : Option Tile :=
  let g (k : Nat) : W64 := ws.getD k 0
  let w0 := g 0
  let w1 := g 1
  let bad := fieldN w0 16 16 != 0 || bitB w0 14 || fieldN w0 4 4 != 0 || fieldN w0 40 2 == 3 || decide (0xC ≤ fieldN w0 44 4) ||
    fieldN w1 56 7 != 0 || fieldN w1 39 9 != 0 || fieldN w1 0 16 != 0 || fieldN (g 2) 34 30 != 0 ||
    (List.range 5).any (fun k => g (3 + k) != 0) || (List.range 120).any (fun k => g (392 + k) != 0)
  let plane (o : Nat) : BitVec 8192 := BitVec.ofNat 8192 (ofBytes ((List.range 128).flatMap (fun k => wordBytes (g (o + k)))))
  if bad then none
  else
    let fl := floatMode (fieldN w0 44 4)
    some { st := if fieldN w0 40 2 = 1 then .empty else if fieldN w0 40 2 = 2 then .active else .uninit,
           mode := w0.extractLsb' 44 4, ea := bitB w0 43, eb := bitB w0 42, ovfm := bitB w0 39, preset := bitB w0 38,
           anchored := bitB w0 37, anchor := w0.extractLsb' 48 16, sc := w0.extractLsb' 32 4, poison := bitB w0 15,
           tovf := bitB w0 13, raLoss := bitB w0 12, sticky := bitB w0 11, special := bitB w0 10, fi := bitB w0 9,
           anv := bitB w0 8, fin := w0.extractLsb' 0 4, fvalid := bitB w1 63, frow := w1.extractLsb' 48 8,
           fcol := w1.extractLsb' 32 7, pbound := w1.extractLsb' 16 16, tpanels := (g 2).extractLsb' 0 34,
           nan := if fl then plane 8 else 0, posInf := if fl then plane 136 else 0, negInf := if fl then plane 264 else 0 }

/-! Arithmetic of one pass. -/

/-- Λ(T) of R63. -/
def lattice (t : Int) : Int := 64 * -((222 - t) / 64)

/-- Division by 2^n truncating toward zero. -/
def truncShift (x : Int) (n : Nat) : Int := x.tdiv ((2 ^ n : Nat) : Int)

/-- Division by 2^n rounding to nearest, ties to even (R74, R102). -/
def rneShift (x : Int) (n : Nat) : Int :=
  let r := roundShift 1 (decide (x < 0)) x.natAbs n
  if x < 0 then -(r.1 : Int) else (r.1 : Int)

/-- Block exponent of a panel of values (R55). -/
def blockExp (vs : List FVal) : Option Int := (fxExponent vs).map (· - 1)

/-- Signed aligned magnitude (R56): truncation of x * 2^(k - 1 - E). -/
def alignedMag (k : Nat) (e : Int) (v : FVal) : Int := v.truncScaled ((k : Int) - 1 - e)

/-- Product of two aligned magnitudes over the slice pairs that the mode forms (R57-R60): all pairs, or in E64T the pairs
with ta + tb of at least 7. -/
def slicePairProduct (mode : Nat) (x y : Int) : Int :=
  if mode ≠ 0xA then x * y
  else
    let sl (m : Nat) (t : Nat) : Nat := m / 2 ^ (7 * t) % 128
    let s : Nat := (List.range 8).foldl (fun acc ta => (List.range 8).foldl (fun acc tb =>
      if 7 ≤ ta + tb then acc + sl x.natAbs ta * sl y.natAbs tb * 2 ^ (7 * (ta + tb)) else acc) acc) 0
    if (decide (x < 0)) != (decide (y < 0)) then -(s : Int) else s

/-- One panel of a row or column: its values, its block exponent with the MX scale, and its signed magnitudes. A scale of
0xFF makes every element NaN (R39). -/
structure PanelData where
  vals : List FVal
  exp  : Option Int
  mags : List Int

/-- Loading a panel (R55-R57, R61). scale is the E8M0 byte in MX modes. -/
def loadPanel (mode : Nat) (vs : List FVal) (scale : Option Nat) : PanelData :=
  let vs := if scale = some 255 then vs.map (fun _ => FVal.nan false) else vs
  let sc : Int := match scale with | some s => (s : Int) - 127 | none => 0
  if mode = 5 then
    { vals := vs, exp := if scale = some 255 then none else some sc, mags := vs.map (fun v => v.truncScaled 6) }
  else match blockExp vs with
  | none => { vals := vs, exp := none, mags := vs.map (fun _ => 0) }
  | some e => { vals := vs, exp := some (e + sc), mags := vs.map (alignedMag (keptBits mode) e) }

/-- Panel sum, its weight L and its top T (R60, R61); none where the contribution is zero. -/
def panelSum (mode : Nat) (a b : PanelData) : Option (Int × Int × Int) :=
  match a.exp, b.exp with
  | some ea, some eb =>
    let p := ((a.mags.zip b.mags).map (fun m => slicePairProduct mode m.1 m.2)).foldl (· + ·) 0
    let l := if mode = 5 then ea + eb - 12 else ea + eb - 2 * keptBits mode + 2
    if p = 0 then none else some (p, l, ea + eb + 7)
  | _, _ => none

/-- Special bits that one panel adds to an element: NaN, +inf, -inf (R68). -/
def panelSpecial (a b : PanelData) : Bool × Bool × Bool :=
  (a.vals.zip b.vals).foldl (fun acc p =>
    let nan := match p.1, p.2 with
      | .nan _, _ => true
      | _, .nan _ => true
      | .inf _, .zero _ => true
      | .zero _, .inf _ => true
      | _, _ => false
    let inf := match p.1, p.2 with
      | .inf _, _ => true
      | _, .inf _ => true
      | _, _ => false
    if nan then (true, acc.2.1, acc.2.2)
    else if inf then (if p.1.neg != p.2.neg then (acc.1, acc.2.1, true) else (acc.1, true, acc.2.2))
    else acc) (false, false, false)

/-- Encoding of element idx in a byte list at a format's width (R38). -/
def elemAt (f : Fmt) (bs : List Byte) (idx : Nat) : Nat :=
  if f.bits = 4 then (bs.getD (idx / 2) 0).toNat / (if idx % 2 = 0 then 1 else 16) % 16
  else ofBytes ((bs.drop (idx * (f.bits / 8))).take (f.bits / 8))

/-- Address of a tile element and its width in bytes (R90). -/
def tileElem (w : WellId) (float : Bool) (a r c : Nat) : Nat :=
  wellAddr w (0x500000 + a * 0x20000 + (if float then 32 else 4) * (128 * r + c))
def elemBytes (float : Bool) : Nat := if float then 32 else 4

/-- Accumulator value of an element; an EMPTY tile is all zero (R91). -/
def readAcc (w : WellId) (t : Tile) (a r c : Nat) (s : State) : Int :=
  let fl := floatMode t.mode.toNat
  if t.st = .empty then 0
  else signedN (8 * elemBytes fl) (ofBytes (s.readBytes (tileElem w fl a r c) (elemBytes fl)))

/-- Writing an accumulator. -/
def writeAcc (w : WellId) (float : Bool) (a r c : Nat) (v : Int) (s : State) : State :=
  s.writeBytes (tileElem w float a r c) (toBytes (elemBytes float) (wrapN (8 * elemBytes float) v))

/-- Every (row, column) of the first n rows of a tile, in row-major order. -/
def tileCells (n : Nat) : List (Nat × Nat) := (List.range n).flatMap (fun r => (List.range 128).map (fun c => (r, c)))

/-- Changing the sideband of one tile. -/
def modTile (w : WellId) (a : Nat) (f : Tile → Tile) (s : State) : State :=
  s.modMr w (fun m => { m with tiles := m.tiles.set (Fin.ofNat 16 a) (f (m.tiles[Fin.ofNat 16 a])) })

/-- The anchor as an integer. -/
def Tile.g (t : Tile) : Int := t.anchor.toInt

/-- Zeroing the units of a tile that becomes ACTIVE from EMPTY (R91). -/
def emptyToZero (w : WellId) (a : Nat) (t : Tile) (s : State) : State :=
  if t.st = .empty then
    s.clearBytes (wellAddr w (0x500000 + a * 0x20000)) (wellAddr w (0x500000 + (a + (tileUnits t.mode.toNat a).length) * 0x20000))
  else s

/-- Re-anchoring an ACTIVE tile to a higher anchor: one truncating shift of every element; a loss sets STICKY and RA_LOSS
(R65, R113). -/
def reanchor (w : WellId) (a : Nat) (g' : Int) (s : State) : State :=
  let t := s.wells[w].mr.tiles[Fin.ofNat 16 a]
  let sh := (g' - t.g).toNat
  let r := (tileCells 64).foldl (fun (p : State × Bool) rc =>
    let x := readAcc w t a rc.1 rc.2 p.1
    let q := truncShift x sh
    (if x = 0 then p.1 else writeAcc w true a rc.1 rc.2 q p.1, p.2 || q * ((2 ^ sh : Nat) : Int) != x)) (s, false)
  modTile w a (fun t => { t with anchor := BitVec.ofInt 16 g', sticky := t.sticky || r.2, raLoss := t.raLoss || r.2 }) r.1

/-- The operands of one pass: A panels per row, B panels per column, FI and signalling-NaN inputs (R86-R88, R100). -/
structure PassData where
  a : List (List PanelData)
  b : List (List PanelData)
  flags : BitVec 6

/-- A read of operand data that lies in one slot: the row that needs it (0 for weights and B scales), its offset and length. -/
structure Piece where
  row : Nat
  off : Nat
  len : Nat

/-- The bytes [o, o + n) cut at slot boundaries. -/
def cutSlots (row o n : Nat) : List Piece :=
  if n = 0 then []
  else (List.range ((o + n - 1) / 512 - o / 512 + 1)).map (fun k =>
    let lo := max o (512 * (o / 512 + k))
    { row := row, off := lo, len := min (o + n) (512 * (o / 512 + k + 1)) - lo })

/-- What the weight loader reads for pass p: the weight block, then the B scales (R86, R88). -/
def blockPieces (e : MrEntry) (p : Nat) : List Piece :=
  let m := mrMode e.word
  let nj := panelsPerPass m
  cutSlots 0 (fieldN e.s2 0 22 + p * 0x8000) 0x8000 ++
    (if mxMode m then cutSlots 0 (fieldN e.s3 32 22 + 128 * p * nj) (128 * nj) else [])

/-- What row r of pass p reads: its 256 B of A, then its scales (R87, R88). -/
def rowPieces (e : MrEntry) (p r : Nat) : List Piece :=
  let m := mrMode e.word
  let x := opA m e.s1
  let nj := panelsPerPass m
  cutSlots r (0x300000 + x.base + r * x.stride + p * 256) 256 ++
    (if mxMode m then cutSlots r (0x300000 + fieldN e.s3 0 21 + r * fieldN e.s3 22 10 + p * nj) nj else [])

/-- The reads of pass p in the order of R107. -/
def passPieces (e : MrEntry) (p : Nat) : List Piece :=
  blockPieces e p ++ (List.range (opA (mrMode e.word) e.s1).rows).flatMap (rowPieces e p)

/-- Bytes that the reads of a block, and those of one row, give. -/
def blockBytes (e : MrEntry) : Nat := 0x8000 + (if mxMode (mrMode e.word) then 128 * panelsPerPass (mrMode e.word) else 0)
def rowBytes (e : MrEntry) : Nat := 256 + (if mxMode (mrMode e.word) then panelsPerPass (mrMode e.word) else 0)

/-- Rows whose data is complete among the first n bytes that a pass reads. -/
def rowsRead (e : MrEntry) (n : Nat) : Nat := (n - blockBytes e) / rowBytes e

/-- The bytes that memory holds for the reads of pass p. -/
def passImage (w : WellId) (e : MrEntry) (p : Nat) (s : State) : List Byte :=
  (passPieces e p).flatMap (fun x => s.readBytes (wellAddr w x.off) x.len)

/-- The reads that come after the first n bytes. -/
def afterBytes : Nat → List Piece → List Piece
  | _, [] => []
  | n, x :: r => if x.len ≤ n then afterBytes (n - x.len) r else x :: r

/-- Element idx, of width n bits, that starts at byte o of operand data taken as one little-endian number (R38). -/
def elemOf (d o n idx : Nat) : Nat := d / 2 ^ (8 * o + n * idx) % 2 ^ n

/-- Elements of A row r, from the data of a pass. -/
def passRow (e : MrEntry) (d r : Nat) : List Nat :=
  let m := mrMode e.word
  (List.range (kPerPass m)).map (elemOf d (blockBytes e + r * rowBytes e) (mrFmt m (bitB e.word 25)).bits)

/-- Elements of B column c, from the data of a pass. -/
def passCol (e : MrEntry) (d c : Nat) : List Nat :=
  let m := mrMode e.word
  (List.range (kPerPass m)).map (fun k => elemOf d 0 (mrFmt m (bitB e.word 24)).bits (128 * k + c))

/-- Cutting a list of encodings into panels of 32 with scales. FI is taken from the encodings, under a scale of 0xFF too (DESIGN CHOICE,
log 177). -/
def panels (mode : Nat) (f : Fmt) (n : Nat) (els : List Nat) (scale : Nat → Option Nat) : List PanelData × BitVec 6 :=
  let vs := els.map (readF f)
  ((List.range n).map (fun j => loadPanel mode (((vs.drop (32 * j)).take 32).map (·.1)) (scale j)),
   vs.foldl (fun acc v => acc ||| v.2 ||| v.1.nvIn) 0)

/-- Loading the rows below n of a floating pass from its data. -/
def loadPass (e : MrEntry) (d n : Nat) : PassData :=
  let m := mrMode e.word
  let nj := panelsPerPass m
  let fa := mrFmt m (bitB e.word 25)
  let fb := mrFmt m (bitB e.word 24)
  let scale (o : Nat) : Option Nat := if mxMode m then some (elemOf d o 8 0) else none
  let rows := (List.range n).map (fun r => panels m fa nj (passRow e d r) (fun j => scale (blockBytes e + r * rowBytes e + 256 + j)))
  let cols := (List.range 128).map (fun c => panels m fb nj (passCol e d c) (fun j => scale (0x8000 + 128 * j + c)))
  { a := rows.map (·.1), b := cols.map (·.1),
    flags := rows.foldl (fun acc x => acc ||| x.2) (cols.foldl (fun acc x => acc ||| x.2) 0) }

/-- The contributions of one element: panel sum, weight and top of each panel that has one (R60, R61). -/
def PassData.sums (mode : Nat) (d : PassData) (r c : Nat) : List (Int × Int × Int) :=
  ((d.a.getD r []).zip (d.b.getD c [])).filterMap (fun q => panelSum mode q.1 q.2)

/-- The largest top of row r, none where no panel contributes. -/
def PassData.top (mode : Nat) (d : PassData) (r : Nat) : Option Int :=
  ((List.range 128).flatMap (fun c => (d.sums mode r c).map (·.2.2))).foldl
    (fun acc x => some (match acc with | none => x | some y => max y x)) none

/-- The largest of the tops that there are. -/
def maxTop (l : List (Option Int)) : Option Int :=
  l.foldl (fun acc x => match acc, x with | none, x => x | a, none => a | some a, some b => some (max a b)) none

/-- The first row whose top exceeds the anchor's reach (R113): g is the anchor, none where the first contribution sets it. -/
def needRow : Option Int → Nat → List (Option Int) → Option Nat
  | _, _, [] => none
  | g, k, none :: r => needRow g (k + 1) r
  | none, k, some x :: r => needRow (some (lattice x)) (k + 1) r
  | some g, k, some x :: r => if g + 222 < x then some k else needRow (some g) (k + 1) r

/-- A floating pass that adds the rows below k of tile a, with the anchor that the tops of the rows below n call for (R63-R65, R68, R89,
R113): n is the whole pass unless the pass stops before it needs to re-anchor. -/
def floatPass (w : WellId) (e : MrEntry) (a d n k : Nat) (s : State) : State × BitVec 6 :=
  let mode := mrMode e.word
  let pd := loadPass e d (max n k)
  let t0 := s.wells[w].mr.tiles[Fin.ofNat 16 a]
  let s := emptyToZero w a t0 s
  let s := modTile w a (fun t => { t with st := .active }) s
  let s := match maxTop ((List.range n).map (pd.top mode)) with
    | none => s
    | some tmax =>
      if !t0.anchored then modTile w a (fun t => { t with anchored := true, anchor := BitVec.ofInt 16 (lattice tmax) }) s
      else if t0.g + 222 < tmax then reanchor w a (t0.g + 64 * ((tmax - (t0.g + 222) + 63) / 64)) s
      else s
  let t1 := s.wells[w].mr.tiles[Fin.ofNat 16 a]
  let g := t1.g
  let r := (tileCells k).foldl (fun (acc : State × Bool) rc =>
    match pd.sums mode rc.1 rc.2 with
    | [] => acc
    | ps =>
      let v := ps.foldl (fun (q : Int × Bool) pl =>
        let dd := pl.2.1 - g
        if 0 ≤ dd then (q.1 + pl.1 * ((2 ^ dd.toNat : Nat) : Int), q.2)
        else
          let tq := truncShift pl.1 (-dd).toNat
          (q.1 + tq, q.2 || tq * ((2 ^ (-dd).toNat : Nat) : Int) != pl.1)) (readAcc w t1 a rc.1 rc.2 acc.1, false)
      (writeAcc w true a rc.1 rc.2 v.1 acc.1, acc.2 || v.2)) (s, false)
  let spec := (tileCells k).map (fun rc =>
    (128 * rc.1 + rc.2, ((pd.a.getD rc.1 []).zip (pd.b.getD rc.2 [])).foldl (fun acc q =>
      let x := panelSpecial q.1 q.2
      (acc.1 || x.1, acc.2.1 || x.2.1, acc.2.2 || x.2.2)) (false, false, false)))
  let plane (sel : Bool × Bool × Bool → Bool) : BitVec 8192 :=
    BitVec.ofNat 8192 (spec.foldl (fun acc x => if sel x.2 then acc + 2 ^ x.1 else acc) 0)
  let flags := if n = k then pd.flags else (loadPass e d k).flags
  (modTile w a (fun t => { t with
    sticky := t.sticky || r.2
    fi := t.fi || flags.getLsbD 5
    anv := t.anv || flags.getLsbD 0
    nan := t.nan ||| plane (·.1)
    posInf := t.posInf ||| plane (·.2.1)
    negInf := t.negInf ||| plane (·.2.2) }) r.1, flags)

/-- Limits of an INT32 accumulator. -/
def fitsI32 (x : Int) : Bool := decide (-(2 ^ 31 : Int) ≤ x ∧ x ≤ 2 ^ 31 - 1)
def clampI32 (x : Int) : Int := max (-(2 ^ 31 : Int)) (min x (2 ^ 31 - 1))

/-- Largest SC of R74. -/
def scLimit (mode : Nat) : Nat := if mode = 0 then 7 else 3

/-- Panel sums of an integer pass at a scale exponent (R72, R74), from its data. -/
def intSums (e : MrEntry) (d n sc : Nat) : List (Nat × Nat × Int) :=
  let f := mrFmt (mrMode e.word) false
  let rows := (List.range n).map (fun r => (passRow e d r).map (fun x => rneShift (signedN f.bits x) sc))
  let cols := (List.range 128).map (fun c => (passCol e d c).map (fun x => signedN f.bits x))
  (tileCells n).map (fun rc => (rc.1, rc.2, ((rows.getD rc.1 []).zip (cols.getD rc.2 [])).foldl (fun acc p => acc + p.1 * p.2) 0))

/-- Halving every accumulator of an integer tile (R74, R114). -/
def halveTile (w : WellId) (a : Nat) (s : State) : State :=
  let t := s.wells[w].mr.tiles[Fin.ofNat 16 a]
  (tileCells 256).foldl (fun s rc =>
    let x := readAcc w t a rc.1 rc.2 s
    if x = 0 then s else writeAcc w false a rc.1 rc.2 (rneShift x 1) s) s

/-- An integer pass over the rows below n under SAT or RESCALE (R73, R74, R114); fuel bounds the halvings. -/
def intPass (w : WellId) (e : MrEntry) (a d n : Nat) : Nat → State → State
  | fuel, s =>
    let t := s.wells[w].mr.tiles[Fin.ofNat 16 a]
    let mode := mrMode e.word
    let sums := intSums e d n t.sc.toNat
    let beyond := sums.any (fun x => !fitsI32 (readAcc w t a x.1 x.2.1 s + x.2.2))
    let add (forced : Bool) (s : State) : State :=
      let s := emptyToZero w a t s
      let t1 := { t with st := TileState.active }
      let s := sums.foldl (fun s x => writeAcc w false a x.1 x.2.1 (clampI32 (readAcc w t1 a x.1 x.2.1 s + x.2.2)) s) s
      modTile w a (fun t => { t with st := .active, tovf := t.tovf || beyond || forced }) s
    if !(t.ovfm && beyond) then add false s
    else if scLimit mode ≤ t.sc.toNat then add true s
    else match fuel with
    | 0 => add true s
    | fuel + 1 => intPass w e a d n fuel (modTile w a (fun t => { t with sc := t.sc + 1 }) (halveTile w a s))

/-- A pass that adds the rows below k, n the rows whose tops choose its anchor: the new state and the flags it meets. -/
def runPass (w : WellId) (e : MrEntry) (d n k : Nat) (s : State) : State × BitVec 6 :=
  let a := mrTile e.word
  if floatMode (mrMode e.word) then floatPass w e a d n k s else (intPass w e a d k 8 s, 0)

/-- The queue freezes with a deferred fault (R117); its buffers keep nothing (R120). -/
def mrFault (w : WellId) (code : BitVec 8) (s : State) : State :=
  s.modWell w (fun u => { u with
    mr := { u.mr with frozen := true, reason := .fault, fcode := code, loaded := [], ahead := [], inPass := false, finDone := 0, haltReq := false }
    cpu := { u.cpu with deferred := u.cpu.deferred ++ [{ code := code, info := qpcWord u.mr }] } })

/-- The ECC of the rows [lo, hi) of a tile's elements, as the Millrace reads them (R116, R251): the first row with an uncorrectable word. An
EMPTY tile is not read (R91). -/
def tileEcc (w : WellId) (t : Tile) (a lo hi : Nat) (s : State) : Option Nat × State :=
  let z := 128 * elemBytes (floatMode t.mode.toNat)
  if t.st != .active || decide (hi ≤ lo) then (none, s)
  else
    let o := 0x500000 + a * 0x20000
    let r := eccRead w 2 (o + lo * z) ((hi - lo) * z) s
    (r.1.map (fun b => (b - o) / z), r.2)

/-- Setting POISON in a tile (R115). -/
def poisonTile (w : WellId) (a : Nat) (s : State) : State := modTile w a (fun t => { t with poison := true }) s

/-- An interrupt line of the well's own units asserts (R226, R550). -/
def raiseLine (w : WellId) (line : Nat) (s : State) : State :=
  s.modCpu w (fun c => { c with exc := { c.exc with ipend := c.exc.ipend ||| BitVec.ofNat 11 (2 ^ line) } })

/-- A pass or an instruction has ended: what the loader has read ahead is the data of the next pass, and a stop request that still
finds an entry freezes the queue (R119). -/
def Millrace.boundary (m : Millrace) : Millrace :=
  let m := { m with loaded := m.ahead, ahead := [], inPass := false, finDone := 0 }
  if m.haltReq then m.halt else m

/-- The head instruction completes: it leaves the queue, ORs its flags into FFLAGS, sends its trigger increment (R122), and
MR_IDLE asserts when the queue becomes empty (R226). -/
def mrComplete (w : WellId) (e : MrEntry) (fl : BitVec 6) (s : State) : State :=
  let s := s.modWell w (fun u => { u with
    mr := Millrace.boundary { u.mr with queue := u.mr.queue.tail }
    cpu := { u.cpu with flags := u.cpu.flags ||| fl } })
  let op := mrOp e.word
  let s := if decide (op = 2 ∨ op = 3 ∨ op = 4) && bitB e.word 23 then
    { s with inflight := s.inflight ++ [.inc (.well w) e.ctr 1] } else s
  if s.wells[w].mr.queue.isEmpty then raiseLine w 9 s else s

/-- The Pump Pp of a well (R32). -/
def wellPump (w : WellId) (p : Fin 2) : PumpId := ⟨2 * w.val + p.val, by omega⟩

/-- The range entries held in scoreboard mode (R245): the Flume's, the Millrace's, P0's and P1's, none in tag service. -/
def heldEntries (s : State) (w : WellId) : List (Nat × Span) :=
  let u := s.wells[w]
  if !u.st.scoreboard then []
  else (u.flume.window.filterMap (fun e => e.span.map (fun sp => (0, sp)))) ++ (queueSpans u.mr).map (fun sp => (1, sp)) ++
    ((s.pumps[wellPump w 0].queue.flatMap (·.spans)).map (fun sp => (2, sp))) ++
    ((s.pumps[wellPump w 1].queue.flatMap (·.spans)).map (fun sp => (3, sp)))

/-- Whether an operation with these spans may issue in scoreboard mode: no conflict, and entries free (R246). -/
def entriesFree (s : State) (w : WellId) (sps : List Span) : Bool :=
  let h := heldEntries s w
  !s.wells[w].st.scoreboard || (decide (h.length + sps.length ≤ 8) && !sps.any (fun a => h.any (fun b => spanConflict a b.2)))

/-- WS_SBSTAT.PEAK follows the entries in use (R262). -/
def notePeak (w : WellId) (s : State) : State :=
  let n := (heldEntries s w).length
  s.modSt w (fun t => if t.peak.toNat < n then { t with peak := BitVec.ofNat 4 n } else t)

end Sys2Proof.Machine
end

