-- ==== Sys2Proof/Machine/MemMap.lean ====
section
/-! DEFINITION. The local physical address map and which of its units serve an access (R16-R31, R300), events to the host
(R443, R488) and the jobs that own wells. -/

namespace Sys2Proof.Machine

/-- What stands at a local physical address (R22). -/
inductive Place where
  | stack (n : StackId) | scratch (o : Nat) | well (w : WellId) (o : Nat) | control (o : Nat) | reserved
  deriving DecidableEq, Repr

/-- The map of R22. -/
def placeOf (pa : Nat) : Place :=
  if pa < 0x18000000000 then .stack (Fin.ofNat 24 (pa / 0x1000000000))
  else if 0x20000000000 ≤ pa ∧ pa < 0x20040000000 then .scratch (pa - 0x20000000000)
  else if 0x30000000000 ≤ pa ∧ pa < 0x30080000000 then
    .well (Fin.ofNat 128 ((pa - 0x30000000000) / 0x1000000)) ((pa - 0x30000000000) % 0x1000000)
  else if 0xF0000000000 ≤ pa ∧ pa < 0x100000000000 then .control (pa - 0xF0000000000)
  else .reserved

/-- Basin of a stack, of a scratchpad offset and of a bulk Pump under a layout (R16, R17). -/
def basinOfStack (mode : BitVec 2) (n : StackId) : Nat := if mode = 1 then n.val / 12 else if mode = 2 then n.val / 6 else 0
def basinOfScratch (mode : BitVec 2) (o : Nat) : Nat :=
  if mode = 1 then o / 0x20000000 else if mode = 2 then o / 0x10000000 else 0
def basinOfWellN (mode : BitVec 2) (w : WellId) : Nat := if mode = 1 then w.val / 64 else if mode = 2 then w.val / 32 else 0
def basinOfBulk (mode : BitVec 2) (n : Nat) : Nat := if mode = 1 then n / 8 else if mode = 2 then n / 4 else 0

/-- Basin of a Pump (R17). -/
def basinOfPump (mode : BitVec 2) (p : PumpId) : Nat :=
  if p.val < 256 then basinOfWellN mode (Fin.ofNat 128 (p.val / 2)) else basinOfBulk mode (p.val - 256)

/-- Basin that owns the unit at a place; none for reserved addresses and the control space. -/
def basinOfPlace (mode : BitVec 2) : Place → Option Nat
  | .stack n => some (basinOfStack mode n)
  | .scratch o => some (basinOfScratch mode o)
  | .well w _ => some (basinOfWellN mode w)
  | _ => none

/-- Half that holds a stack's controller (R22). -/
def halfOfStack (n : StackId) : HalfId := if n.val < 12 then 0 else 1

/-- Frame indices that back a scratchpad offset, with their half (R300). -/
def backing (mode : BitVec 2) (o : Nat) : HalfId × List (Fin 16) :=
  if mode = 2 then
    let q := o / 0x10000000
    (Fin.ofNat 2 (q / 2), [Fin.ofNat 16 (8 * (q % 2) + o % 0x10000000 / 0x2000000)])
  else
    let f := o % 0x20000000 / 0x4000000
    (Fin.ofNat 2 (o / 0x20000000), [Fin.ofNat 16 f, Fin.ofNat 16 (8 + f)])

/-- Pump status codes of R277 that an access can end with. -/
def stDescInvalid : BitVec 8 := 0x01
def stUnmapped : BitVec 8 := 0x02
def stDomainOff : BitVec 8 := 0x03
def stBankClosed : BitVec 8 := 0x05
def stTileBusy : BitVec 8 := 0x06
def stScoreboard : BitVec 8 := 0x07
def stStoreErr : BitVec 8 := 0x08
def stMemErr : BitVec 8 := 0x09

/-- Whether a power domain is on (R19). -/
def State.domain (s : State) (d : Nat) : Bool := s.domainOn.getLsbD d

/-- Whether stacks and scratchpad serve an address now: the refusal of R21, R26, R30, R300. -/
def centralRefusal (s : State) (pa : Nat) : Option (BitVec 8) :=
  match placeOf pa with
  | .stack n =>
    if !s.domain (36 + n.val / 6) || !s.domain (32 + 2 * (halfOfStack n).val) || !s.domain (33 + 2 * (halfOfStack n).val) then
      some stDomainOff
    else if !s.stackMask.getLsbD n.val then some stUnmapped
    else none
  | .scratch o =>
    let b := backing s.basinMode o
    let st := b.2.map (fun f => s.halves[b.1].frames[f])
    if b.2.any (fun f => !s.domain (32 + 2 * b.1.val + f.val / 8)) then some stDomainOff
    else if st.all (· == .scratch) then none
    else if st.any (fun f => f == .closed || f == .changing) then some stBankClosed
    else some stUnmapped
  | _ => some stUnmapped

/-- The refusal of an access to a well's stores by a Pump or an agent outside the well (R21, R92, R247, R255). own: the
access comes from the well's own Pump. -/
def storeRefusal (s : State) (w : WellId) (o n : Nat) (own : Bool) : Option (BitVec 8) :=
  let u := s.wells[w]
  if !s.wellOn w then some stDomainOff
  else if 0x700000 < o + n then some stUnmapped
  else if u.st.scoreboard && !own then some stScoreboard
  else if !banksOpen u.st o n then some stBankClosed
  else if hitsBusy u.mr o n then some stTileBusy
  else none

/-- Raising an event to the host (R443, R482): kept until acknowledged, and queued for the stream while the link is up; beyond 65,536
events it is counted and lost (R444). -/
def State.event (s : State) (type_ : BitVec 8) (job : BitVec 16) (words : List W64) : State :=
  let up := s.by_.state == .active || s.by_.state == .retrain
  if s.events.length < 65536 then
    { s with events := s.events ++ [{ seq := s.evtSeq, type_ := type_, job := job, words := words }], evtSeq := s.evtSeq + 1,
             by_ := if up then { s.by_ with stream := s.by_.stream ++ [.evt s.evtSeq] } else s.by_ }
  else
    { s with evtLost := s.evtLost + 1, evtFirstLost := some (s.evtFirstLost.getD s.evtSeq), evtSeq := s.evtSeq + 1 }

/-- A completion for the host (R480): in the stream while the link is up, else held as a COMPLETION event (R443, R491). -/
def State.complete (s : State) (ring : Fin 4) (cseq : W64) (status : BitVec 8) (result : BitVec 56) : State :=
  if s.by_.state == .active || s.by_.state == .retrain then
    { s with by_ := { s.by_ with stream := s.by_.stream ++ [.cpl ring cseq status result] } }
  else s.event 0x02 0xFFFF [cseq, (result ++ status), w64 ring.val]

/-- Handle of a job slot (R415). -/
def Job.handle (j : Job) (slot : Fin 32) : BitVec 16 := (j.gen.setWidth 16 <<< 5) ||| BitVec.ofNat 16 slot.val

/-- Handle of the job that owns a well, 0xFFFF for none (R435). -/
def State.jobOfWell (s : State) (w : WellId) : BitVec 16 :=
  match s.wellJob[w] with | some k => s.jobs[k].handle k | none => 0xFFFF

/-- Current reach index of the job that owns a well. -/
def State.reachOfWell (s : State) (w : WellId) : W64 := match s.wellJob[w] with | some k => s.jobs[k].reach | none => 0

/-- Changing a job. -/
def State.modJob (s : State) (k : Fin 32) (f : Job → Job) : State := { s with jobs := s.jobs.set k (f s.jobs[k]) }

/-- Unit ID of a Pump (R32). -/
def pumpUnit (p : PumpId) : BitVec 16 := BitVec.ofNat 16 (0x2000 + p.val)

/-- 4 KiB chunks that a byte range touches. -/
def chunksOf (pa n : Nat) : List Nat := if n = 0 then [] else (List.range ((pa + n - 1) / 4096 - pa / 4096 + 1)).map (· + pa / 4096)

/-- The protected job of a chunk (R427). -/
def chunkJob (s : State) (c : Nat) : Option (Fin 32) :=
  (s.prot.find? (fun r => decide (r.lo < c * 4096 + 4096 ∧ c * 4096 < r.hi))).map (·.job)

/-- Accesses to a chunk whose capture is in progress are held (R428). -/
def captureHeld (s : State) (pa n : Nat) : Bool := (chunksOf pa n).any (fun c => s.capturing.contains c)

end Sys2Proof.Machine
end

