-- ==== Sys2Proof/Machine/CisternOps.lean ====
section
/-! DEFINITION. Sectors, lines and their errors in the Cistern and the stacks (R293-R302, R311-R314, R329, R330). -/

namespace Sys2Proof.Machine

/-- Bits [lo + n - 1 : lo] of an address. -/
def bitsN (x lo n : Nat) : Nat := x / 2 ^ lo % 2 ^ n

/-- Slice within the half of a stack address (R294). -/
def sliceOf (pa : Nat) : Fin 32 :=
  Fin.ofNat 32 ([8, 13, 18, 23, 28, 33, 38].foldl (fun acc lo => acc ^^^ bitsN pa lo 5) 0)

/-- Set within the slice of a stack address (R294). -/
def setOf (pa : Nat) : Fin 4096 := Fin.ofNat 4096 (bitsN pa 13 12 ^^^ bitsN pa 25 12 ^^^ bitsN pa 37 6)

/-- Place of a scratchpad line (R301): slice within the half, set, way. -/
def scratchPlace (mode : BitVec 2) (o : Nat) : Fin 32 × Fin 4096 × Fin 16 :=
  if mode = 2 then
    let b := o % 0x2000000 / 256
    let f := o % 0x10000000 / 0x2000000
    let q := o / 0x10000000
    (Fin.ofNat 32 (16 * (q % 2) + (bitsN b 0 4 ^^^ bitsN b 4 4 ^^^ bitsN b 8 4)), Fin.ofNat 4096 (bitsN b 4 12),
      Fin.ofNat 16 (2 * f + bitsN b 16 1))
  else
    let b := o % 0x4000000 / 256
    let f := o % 0x20000000 / 0x4000000
    (Fin.ofNat 32 (bitsN b 0 5 ^^^ bitsN b 5 5 ^^^ bitsN b 10 5), Fin.ofNat 4096 (bitsN b 5 12),
      Fin.ofNat 16 (2 * f + bitsN b 17 1))

/-- Changing a half's registers, a stack controller. -/
def State.modHalf (s : State) (h : HalfId) (f : CisternHalf → CisternHalf) : State := { s with halves := s.halves.set h (f s.halves[h]) }
def State.modStack (s : State) (n : StackId) (f : StackCtl → StackCtl) : State := { s with stks := s.stks.set n (f s.stks[n]) }

/-- Ways of a slice that belong to CACHE frames (R296). -/
def cacheWays (h : CisternHalf) (slice : Fin 32) : List (Fin 16) :=
  (List.range 16).filterMap (fun k => if hk : k < 16 then
    (if h.frames[8 * (slice.val / 16) + k / 2]'(by omega) = .cache then some ⟨k, hk⟩ else none) else none)

/-- The line held for an address: each stack line has one home (R294). -/
def lineAt (s : State) (pa : Nat) : Option CLine := s.lines.find? (fun l => l.line.toNat == pa / 256)

/-- Changing the held line of an address. -/
def updLine (pa : Nat) (f : CLine → CLine) (s : State) : State :=
  { s with lines := s.lines.map (fun l => if l.line.toNat == pa / 256 then f l else l) }

/-- Sector number within its line. -/
def sectorK (pa : Nat) : Nat := pa / 64 % 4

/-- CI_ELAST of an error (R329). -/
def ciElast (ue dirty tag : Bool) (slice : Fin 32) (pa : Nat) : W64 :=
  putB 63 true ||| putB 62 ue ||| putB 61 dirty ||| putB 59 tag ||| putN 54 slice.val ||| putN 6 (pa / 64)

/-- SC_ELAST of an error (R330). -/
def scElast (ue : Bool) (reason pa : Nat) : W64 := putB 63 true ||| putB 62 ue ||| putN 60 reason ||| putN 6 (pa / 64)

/-- Unit ID of a slice (R293). -/
def sliceUnit (h : HalfId) (slice : Fin 32) : BitVec 16 := BitVec.ofNat 16 (0x3000 + 32 * h.val + slice.val)

/-- An uncorrectable Cistern error in a dirty or scratchpad sector poisons it (R313). -/
def poisonSector (h : HalfId) (sl : Fin 32) (pa : Nat) (s : State) : State :=
  let k := pa / 64
  ({ s with cErr := s.cErr.filter (fun e => e.1 != k), poison := k :: s.poison.filter (· != k) }.modHalf h (fun x =>
    { x with elast := ciElast true true false sl pa })).report (sliceUnit h sl) 0x07 (w64 pa)

/-- A correctable Cistern error is corrected and recorded (R313). -/
def correctSector (h : HalfId) (sl : Fin 32) (pa : Nat) (s : State) : State :=
  { s with cErr := s.cErr.filter (fun e => e.1 != pa / 64) }.modHalf h (fun x =>
    { x with cecnt := countUp x.cecnt 1, elast := ciElast false false false sl pa })

/-- A dirty sector is read from the array and written back (R313, R314): an error in it is met, its poison goes with it, and a good one
makes the stack sector good. -/
def writeBackSector (pa : Nat) (s : State) : State :=
  match placeOf pa with
  | .stack n =>
    let k := pa / 64
    let h := halfOfStack n
    let s := s.modHalf h (fun h => { h with wbacks := countUp h.wbacks 1 })
    let s := s.modStack n (fun c => { c with wrbytes := countUp c.wrbytes 1 })
    let s := match s.cErr.find? (fun e => e.1 == k) with
      | none => s
      | some (_, false) => correctSector h (sliceOf pa) pa s
      | some (_, true) => if s.poison.contains k then s else poisonSector h (sliceOf pa) pa s
    let e := s.stErr.filter (fun x => x.1 != k)
    { s with stErr := if s.poison.contains k then (k, .poison) :: e else e }
  | _ => s

/-- Every dirty sector of a line is written back; none stays dirty, and a poisoned one keeps its poison (R314). -/
def writeBackLine (l : CLine) (s : State) : State :=
  let s := (List.range 4).foldl (fun s k => if l.dirty.getLsbD k then writeBackSector (l.line.toNat * 256 + 64 * k) s else s) s
  updLine (l.line.toNat * 256) (fun l => { l with dirty := 0 }) s

/-- A line leaves the Cistern with what the arrays hold of it (R295). -/
def dropLine (l : CLine) (s : State) : State :=
  { s with lines := s.lines.filter (fun x => x.line != l.line), cErr := s.cErr.filter (fun e => e.1 / 4 != l.line.toNat),
           poison := s.poison.filter (fun k => k / 4 != l.line.toNat) }

/-- A line leaves the Cistern after its dirty sectors have been written back (R295). -/
def evictLine (l : CLine) (s : State) : State := dropLine l (writeBackLine l s)

/-! Tree pseudo-LRU (R296): a complete binary tree over the 16 ways, node 0 its root, nodes 2n + 1 and 2n + 2 below node n; a node's bit
names the half to replace next. A half without a way of a CACHE frame is never taken (log 190). -/

/-- The tree of a set. -/
def plruOf (h : CisternHalf) (sl : Fin 32) (st : Fin 4096) : BitVec 15 :=
  ((h.plru.find? (fun x => x.1 == sl && x.2.1 == st)).map (·.2.2)).getD 0

/-- The nodes above a way with the half in which it lies, from the root. -/
def plruPath (way : Fin 16) : List (Nat × Bool) :=
  [(0, way.val / 8 % 2 == 1), (1 + way.val / 8, way.val / 4 % 2 == 1), (3 + way.val / 4, way.val / 2 % 2 == 1), (7 + way.val / 2, way.val % 2 == 1)]

/-- A use of a way: every node above it names the other half. -/
def plruTouch (h : HalfId) (sl : Fin 32) (st : Fin 4096) (way : Fin 16) (s : State) : State :=
  s.modHalf h (fun x =>
    let t := (plruPath way).foldl (fun (t : BitVec 15) n => if n.2 then t &&& ~~~(1#15 <<< n.1) else t ||| (1#15 <<< n.1)) (plruOf x sl st)
    { x with plru := (sl, st, t) :: x.plru.filter (fun y => !(y.1 == sl && y.2.1 == st)) })

/-- The way that the tree names among the candidates: levels below node n, whose ways are lo and the following. -/
def plruWalk (t : BitVec 15) (cand : List (Fin 16)) : Nat → Nat → Nat → Nat
  | 0, _, lo => lo
  | k + 1, n, lo =>
    let mid := lo + 2 ^ k
    let low := cand.any (fun w => decide (lo ≤ w.val ∧ w.val < mid))
    let high := cand.any (fun w => decide (mid ≤ w.val ∧ w.val < mid + 2 ^ k))
    if high && (t.getLsbD n || !low) then plruWalk t cand k (2 * n + 2) mid else plruWalk t cand k (2 * n + 1) lo

/-- A line that the address hits has been used. -/
def touchLine (l : CLine) (s : State) : State := plruTouch l.half l.slice l.set l.way s

/-- The line of an address is allocated, if it is not held, in a way of a CACHE frame (R295, R296): the lowest empty one, else the
victim; without one the access is uncached (R302). -/
def allocLine (pa : Nat) (n : StackId) (s : State) : State :=
  match lineAt s pa with
  | some _ => s
  | none =>
    let h := halfOfStack n
    let sl := sliceOf pa
    let st := setOf pa
    match cacheWays s.halves[h] sl with
    | [] => s
    | w :: ws =>
      let held (k : Fin 16) : Option CLine := s.lines.find? (fun l => l.half == h && l.slice == sl && l.set == st && l.way == k)
      let way := ((w :: ws).find? (fun k => (held k).isNone)).getD (Fin.ofNat 16 (plruWalk (plruOf s.halves[h] sl st) (w :: ws) 4 0 0))
      let s := match held way with
        | some l => evictLine l s
        | none => s
      plruTouch h sl st way
        { s with lines := { half := h, slice := sl, set := st, way := way, line := BitVec.ofNat 36 (pa / 256), valid := 0, dirty := 0 } :: s.lines }

/-- A tag or state parity error of a set is met (R313): the set is refetched when clean, else its dirty sectors are
poisoned. -/
def resolveTagParity (h : HalfId) (sl : Fin 32) (st : Fin 4096) (pa : Nat) (s : State) : State :=
  if !s.cTagErr.contains (h, sl, st) then s
  else
    let ls := s.lines.filter (fun l => l.half == h && l.slice == sl && l.set == st)
    let bad := ls.flatMap (fun l => ((List.range 4).filter (fun k => l.dirty.getLsbD k)).map (fun k => l.line.toNat * 4 + k))
    let s := { s with cTagErr := s.cTagErr.filter (· != (h, sl, st)) }
    let s := s.modHalf h (fun x => { x with elast := ciElast true (!bad.isEmpty) true sl pa })
    if bad.isEmpty then { s with lines := s.lines.filter (fun l => !(l.half == h && l.slice == sl && l.set == st)) }
    else ({ s with poison := bad ++ s.poison.filter (fun k => !bad.contains k) }).report (sliceUnit h sl) 0x07 (w64 pa)

/-- A read that reaches the stack (R311, R313): one bad symbol is corrected and rewritten; anything worse fails and is not
allocated. -/
def stackFetch (n : StackId) (pa : Nat) (s : State) : Bool × State :=
  let k := pa / 64
  let s := s.modStack n (fun c => { c with rdbytes := countUp c.rdbytes 1 })
  match s.stErr.find? (fun e => e.1 == k) with
  | none => (false, s)
  | some (_, .oneSymbol) =>
    (false, { s with stErr := s.stErr.filter (fun e => e.1 != k) }.modStack n (fun c =>
      { c with cecnt := countUp c.cecnt 1, elast := scElast false 0 pa }))
  | some (_, e) =>
    let r := match e with | .addrCheck => 1 | .poison => 2 | _ => 0
    (true, (s.modStack n (fun c => { c with elast := scElast true r pa })).report (BitVec.ofNat 16 (0x4000 + n.val)) 0x08 (w64 pa))

/-! The pseudo-channels of a stack and the order in which they serve (R310, R315-R317). -/

/-- Pseudo-channel of a stack address (R310). -/
def pseudoChannel (pa : Nat) : Fin 64 := Fin.ofNat 64 (bitsN pa 8 6 ^^^ bitsN pa 14 6 ^^^ bitsN pa 20 6 ^^^ bitsN pa 26 6 ^^^ bitsN pa 32 4)

/-- Bank and row of a request's line. -/
def StackReq.bankRow (r : StackReq) : Nat × Nat := Config.bankRow (r.sector / 4)
def StackReq.pc (r : StackReq) : Fin 64 := pseudoChannel (r.sector * 64)

/-- Whether a request is to the row last opened in its bank, and that row may still be served ahead of others (R316). -/
def rowHit (c : StackCtl) (r : StackReq) : Bool :=
  c.rows.any (fun x => x.pc == r.pc && x.bank == r.bankRow.1 && x.row == r.bankRow.2 && decide (x.hits < 16))

/-- Within a class: the oldest request, or one to an open row whose older ones all go to its bank; which one of those is a free value
(R316). -/
def pickInClass (c : StackCtl) (free : Nat) : List StackReq → Option StackReq
  | [] => none
  | [x] => some x
  | x :: l =>
    let same := l.takeWhile (fun y => y.bankRow.1 == x.bankRow.1)
    let early := if rowHit c x then [] else same.filter (rowHit c)
    some ((x :: early).getD ((Config.freeWord free).toNat % (early.length + 1)) x)

/-- The request that a pseudo-channel serves next (R315-R317): a normal request that as many LC reads in a row have passed as LCRUN
allows, else an LC read, else a normal request, else baseflow's. An access waits for an earlier one to its sector (R297). -/
def nextReq (c : StackCtl) (lcrun : BitVec 8) (pc : Fin 64) (free : Nat) : Option StackReq :=
  let q := c.queue.filter (fun r => r.pc == pc)
  let q := q.zipIdx.filterMap (fun x => if (q.take x.2).any (fun y => y.sector == x.1.sector) then none else some x.1)
  let ofClass (k : ReqClass) : List StackReq := q.filter (fun r => r.cls == k)
  match (ofClass .normal).find? (fun r => decide (max 1 lcrun.toNat ≤ r.passed)) with
  | some r => some r
  | none => match pickInClass c free (ofClass .latencyCritical) with
    | some r => some r
    | none => match pickInClass c free (ofClass .normal) with
      | some r => some r
      | none => pickInClass c free (ofClass .baseflow)

/-- A request has been served (R316): it leaves the queue, its row is open, and the normal requests that an LC read passes count it. -/
def servedReq (n : StackId) (r : StackReq) (s : State) : State :=
  s.modStack n (fun c =>
    let b := r.bankRow
    let hits := ((c.rows.find? (fun x => x.pc == r.pc && x.bank == b.1 && x.row == b.2)).map (·.hits + 1)).getD 0
    let count (x : StackReq) : StackReq := if x.pc == r.pc && x.cls == .normal then
      { x with passed := if r.cls == .latencyCritical then x.passed + 1 else if r.cls == .normal then 0 else x.passed } else x
    { c with queue := (removeFirst (· == r) c.queue).map count
             rows := { pc := r.pc, bank := b.1, row := b.2, hits := hits } :: c.rows.filter (fun x => !(x.pc == r.pc && x.bank == b.1)) })

/-- A fetched sector arrives (R295, R302): it is kept where frames serve the cache, unless a whole write has made it valid already, and
bytes are merged into it. -/
def fillSector (n : StackId) (pa : Nat) (merge : Bool) (s : State) : Bool × State :=
  let valid := match lineAt s pa with | some l => l.valid.getLsbD (sectorK pa) | none => false
  if valid then (false, s)
  else
    let r := stackFetch n pa s
    if r.1 then r
    else
      let s := allocLine pa n r.2
      (false, match lineAt s pa with
        | some _ => updLine pa (fun l => { l with
            valid := l.valid ||| (1#4 <<< sectorK pa), dirty := if merge then l.dirty ||| (1#4 <<< sectorK pa) else l.dirty }) s
        | none => if merge then s.modStack n (fun c => { c with wrbytes := countUp c.wrbytes 1 }) else s)

/-- A pseudo-channel serves its requests in order up to and including one that p picks; fuel counts requests. -/
def serveUntil (n : StackId) (pc : Fin 64) (p : StackReq → Bool) : Nat → State → State
  | 0, s => s
  | k + 1, s =>
    match nextReq s.stks[n] s.halves[halfOfStack n].lcrun pc s.free with
    | none => s
    | some r =>
      let s := servedReq n r { s with free := s.free + 1 }
      if p r then (fillSector n (r.sector * 64) r.merge s).2 else serveUntil n pc p k (fillSector n (r.sector * 64) r.merge s).2

/-- Whether a request for a sector waits. -/
def sectorWaits (n : StackId) (pa : Nat) (s : State) : Bool := s.stks[n].queue.any (fun r => r.sector == pa / 64)

/-- An access to a sector with a miss in flight waits for it (R297). -/
def settleSector (n : StackId) (pa : Nat) (s : State) : State :=
  (List.range (s.stks[n].queue.filter (fun r => r.sector == pa / 64)).length).foldl (fun s _ =>
    serveUntil n (pseudoChannel pa) (fun r => r.sector == pa / 64) s.stks[n].queue.length s) s

/-- A request joins the queue of its pseudo-channel. -/
def queueReq (n : StackId) (pa : Nat) (merge : Bool) (cls : ReqClass) (s : State) : State :=
  s.modStack n (fun c => { c with queue := c.queue ++ [{ sector := pa / 64, merge := merge, cls := cls, passed := 0 }] })

/-- A request takes its turn at its pseudo-channel: what R316 puts before it is served first. -/
def takeTurn (n : StackId) (pa : Nat) (cls : ReqClass) (s : State) : State :=
  let me (r : StackReq) : Bool := r.sector == pa / 64 && r.cls == cls
  let before : Nat → State → State := fun k s => (List.range k).foldl (fun s _ =>
    match nextReq s.stks[n] s.halves[halfOfStack n].lcrun (pseudoChannel pa) s.free with
    | some r => if me r then s else (let s := servedReq n r { s with free := s.free + 1 }; (fillSector n (r.sector * 64) r.merge s).2)
    | none => s) s
  let s := before (s.stks[n].queue.length + 1) (queueReq n pa false cls s)
  match s.stks[n].queue.find? me with
  | some r => servedReq n r s
  | none => s

/-- A miss: the sector is fetched in its turn and, where frames serve the cache, kept (R295, R302). -/
def missRead (n : StackId) (cls : ReqClass) (pa : Nat) (s : State) : Bool × State :=
  fillSector n pa false (takeTurn n pa cls (s.modHalf (halfOfStack n) (fun h => { h with misses := countUp h.misses 1 })))

/-- Reading one sector; the answer says whether the reader fails (R295-R297, R302, R313, R314). -/
def sectorRead (cls : ReqClass) (pa : Nat) (s : State) : Bool × State :=
  let k := pa / 64
  match placeOf pa with
  | .stack n =>
    let h := halfOfStack n
    let sl := sliceOf pa
    let s := resolveTagParity h sl (setOf pa) pa (settleSector n pa s)
    match lineAt s pa with
    | none => missRead n cls pa s
    | some l =>
      let s := touchLine l s
      if !l.valid.getLsbD (sectorK pa) then missRead n cls pa s
      else
        let s := s.modHalf h (fun x => { x with hits := countUp x.hits 1 })
        if s.poison.contains k then (true, s)
        else match s.cErr.find? (fun e => e.1 == k) with
        | none => (false, s)
        | some (_, false) => (false, correctSector h sl pa s)
        | some (_, true) =>
          if l.dirty.getLsbD (sectorK pa) then (true, poisonSector h sl pa s)
          else
            let s := { s with cErr := s.cErr.filter (fun e => e.1 != k) }.modHalf h (fun x =>
              { x with elast := ciElast true false false sl pa })
            missRead n cls pa (updLine pa (fun l => { l with valid := l.valid &&& ~~~(1#4 <<< sectorK pa) }) s)
  | .scratch o =>
    let h := (backing s.basinMode o).1
    let sl := (scratchPlace s.basinMode o).1
    if s.poison.contains k then (true, s)
    else match s.cErr.find? (fun e => e.1 == k) with
    | none => (false, s)
    | some (_, false) => (false, correctSector h sl pa s)
    | some (_, true) => (true, poisonSector h sl pa s)
  | _ => (true, s)

/-- A sector that has been written stays in its line as dirty, or has gone to the stack on the uncached path (R295, R302). -/
def sectorDirty (n : StackId) (pa : Nat) (s : State) : State :=
  match lineAt s pa with
  | some _ => updLine pa (fun l => { l with valid := l.valid ||| (1#4 <<< sectorK pa), dirty := l.dirty ||| (1#4 <<< sectorK pa) }) s
  | none => s.modStack n (fun c => { c with wrbytes := countUp c.wrbytes 1 })

/-- Writing a whole sector, with no fetch (R295): it becomes good (R314), and what a fetch under way for it brings is discarded
(R297). -/
def sectorWhole (pa : Nat) (s : State) : State :=
  let k := pa / 64
  let good (s : State) : State := { s with cErr := s.cErr.filter (fun e => e.1 != k), poison := s.poison.filter (· != k) }
  match placeOf pa with
  | .stack n =>
    let s := resolveTagParity (halfOfStack n) (sliceOf pa) (setOf pa) pa s
    let hit := match lineAt s pa with | some l => l.valid.getLsbD (sectorK pa) | none => false
    let s := s.modHalf (halfOfStack n) (fun h => if hit then { h with hits := countUp h.hits 1 } else { h with misses := countUp h.misses 1 })
    let s := s.modStack n (fun c => { c with queue := c.queue.filter (fun r => r.sector != k) })
    let s := match lineAt s pa with | some l => touchLine l s | none => allocLine pa n s
    let s := if (lineAt s pa).isNone then takeTurn n pa .normal s else s
    let s := sectorDirty n pa (good s)
    if (lineAt s pa).isNone then { s with stErr := s.stErr.filter (fun e => e.1 != k) } else s
  | _ => good s

/-- Writing part of a sector (R295, R314): it is fetched and merged. One that cannot be fetched is not kept, and a poisoned one stays
poisoned. -/
def sectorPart (pa : Nat) (s : State) : State :=
  let r := sectorRead .normal pa s
  match placeOf pa with
  | .stack n =>
    let kept := match lineAt r.2 pa with | some l => l.valid.getLsbD (sectorK pa) | none => !r.1
    if kept then sectorDirty n pa r.2 else r.2
  | _ => r.2

/-- The aligned sectors that [pa, pa + n) touches, each with whether it is covered whole. -/
def sectorsOf (pa n : Nat) : List (Nat × Bool) :=
  if n = 0 then []
  else (List.range ((pa + n - 1) / 64 - pa / 64 + 1)).map (fun i =>
    let b := (pa / 64 + i) * 64
    (b, decide (pa ≤ b ∧ b + 64 ≤ pa + n)))

/-- Half whose slices serve an address. -/
def halfOf (mode : BitVec 2) (pa : Nat) : HalfId :=
  match placeOf pa with
  | .stack n => halfOfStack n
  | .scratch o => (backing mode o).1
  | _ => 0

/-- An LC request is counted once, whatever number of sectors it has (R329). -/
def countLc (cls : ReqClass) (pa : Nat) (s : State) : State :=
  if cls = .latencyCritical then s.modHalf (halfOf s.basinMode pa) (fun x => { x with lcreqs := countUp x.lcreqs 1 }) else s

/-- Reading [pa, pa + n) of the stacks or the scratchpad: none where a sector fails. -/
def centralRead (lc : Bool) (pa n : Nat) (s : State) : Option (List Byte) × State :=
  let cls : ReqClass := if lc then .latencyCritical else .normal
  let r := (sectorsOf pa n).foldl (fun (a : Bool × State) x =>
    let q := sectorRead cls x.1 a.2
    (a.1 || q.1, q.2)) (false, countLc cls pa s)
  (if r.1 then none else some (r.2.readBytes pa n), r.2)

/-- Writing bytes into the stacks or the scratchpad. -/
def centralWrite (pa : Nat) (bs : List Byte) (s : State) : State :=
  let s := (sectorsOf pa bs.length).foldl (fun s x => if x.2 then sectorWhole x.1 s else sectorPart x.1 s) s
  { s with mem := memWrites s.mem pa bs }

/-- Zeroing whole lines (R298). -/
def centralZero (pa n : Nat) (s : State) : State :=
  let s := (sectorsOf pa n).foldl (fun s x => sectorWhole x.1 s) s
  { s with mem := memClear s.mem pa (pa + n) }

/-- The atomic operations of R267. -/
def aopApply (op : Aop) (old x cmp : W64) : W64 :=
  match op with
  | .add => old + x
  | .and => old &&& x
  | .or => old ||| x
  | .xor => old ^^^ x
  | .swap => x
  | .cas => if old = cmp then x else old
  | .max => if old.slt x then x else old
  | .min => if x.slt old then x else old
  | .maxu => if old.ult x then x else old
  | .minu => if x.ult old then x else old

/-- AOP codes 0x1-0xA (R267). -/
def aopOf (n : Nat) : Option Aop :=
  match n with
  | 1 => some .add | 2 => some .and | 3 => some .or | 4 => some .xor | 5 => some .swap
  | 6 => some .cas | 7 => some .max | 8 => some .min | 9 => some .maxu | 10 => some .minu
  | _ => none

/-- An atomic at the slice that holds the aligned word (R267, R297): the old value, none where the sector is bad. -/
def centralAtomic (op : Aop) (pa : Nat) (x cmp : W64) (s : State) : Option W64 × State :=
  let r := sectorRead .normal (pa / 64 * 64) s
  if r.1 then (none, r.2)
  else
    let old := r.2.readWord pa
    let s := { r.2 with mem := memWrites r.2.mem pa (wordBytes (aopApply op old x cmp)) }
    (some old, match placeOf pa with | .stack n => sectorDirty n (pa / 64 * 64) s | _ => s)

/-- Starting the captures that a write to a range needs (R428): the chunk's bytes go to the log with its mark; the answer says
whether the write is held behind a capture that has not completed. -/
def captureFor (pa n : Nat) (s : State) : Bool × State :=
  if s.prot.isEmpty then (false, s)
  else
    let cs := chunksOf pa n
    let s' := cs.foldl (fun (s : State) c => match chunkJob s c with
      | none => s
      | some k =>
        if s.jobs[k].captured.contains c then s
        else
          let r := centralRead false (c * 4096) 4096 s
          let bytes := r.2.readBytes (c * 4096) 4096
          { r.2.modJob k (fun j => { j with captured := c :: j.captured, log := j.log ++ [(c, bytes)] }) with
            capturing := c :: s.capturing }) s
    (cs.any (fun c => s'.capturing.contains c), s')

end Sys2Proof.Machine
end

