-- ==== Sys2Proof/Machine/Cistern.lean ====
section
/-! DEFINITION. Cistern accesses, frame commands, maintenance, stack temperature and the weirs (R295-R321, R328, R331). -/

namespace Sys2Proof.Machine

/-- A slice accepts a read of one sector, or a write of part of it (R295, R297, R302, R316): one that misses waits at its pseudo-channel,
together with those that have come for its sector where the fetch will serve them all. -/
def acceptSector (cls : ReqClass) (merge : Bool) (pa : Nat) (s : State) : State :=
  let now (s : State) : State := if merge then sectorPart pa s else (sectorRead cls pa s).2
  match placeOf pa with
  | .stack n =>
    let h := halfOfStack n
    let s := resolveTagParity h (sliceOf pa) (setOf pa) pa s
    let valid := match lineAt s pa with | some l => l.valid.getLsbD (sectorK pa) | none => false
    let joins := sectorWaits n pa s && !(cacheWays s.halves[h] (sliceOf pa)).isEmpty
    if joins then
      (s.modHalf h (fun x => { x with hits := countUp x.hits 1 })).modStack n (fun c => { c with queue := c.queue.map (fun r =>
        if r.sector == pa / 64 then { r with merge := r.merge || merge } else r) })
    else if valid && !sectorWaits n pa s then now s
    else queueReq n pa merge (if merge then .normal else cls) (s.modHalf h (fun x => { x with misses := countUp x.misses 1 }))
  | _ => now s

/-- CISTERN_ACCESS (R297): one access in the slice's order. An address that nothing serves returns and writes nothing (R21,
R26, R300). A write into an uncaptured protected chunk, and every access to a chunk being captured, is held (R428) and
comes again. The bytes of a write count from its acceptance (R297); an atomic is one access, which waits for its sector. -/
def execCisternAccess (r : CisternReq) (s : State) : Out :=
  .next (
    let pa := r.addr.toNat
    if (centralRefusal s pa).isSome then s
    else
      let n := match r.kind with | .read n => n | .write d => d.length | .atomic .. => 8 | .zero => 256
      if captureHeld s pa n then s
      else match r.kind with
      | .read n => (sectorsOf pa n).foldl (fun s x => acceptSector r.cls false x.1 s) (countLc r.cls pa s)
      | .write d =>
        let c := captureFor pa n s
        if c.1 then c.2
        else
          let s := (sectorsOf pa d.length).foldl (fun s x => if x.2 then sectorWhole x.1 s else acceptSector r.cls true x.1 s) c.2
          { s with mem := memWrites s.mem pa d }
      | .atomic op x cmp =>
        let a := pa / 8 * 8
        let c := captureFor a 8 s
        if c.1 then c.2 else (centralAtomic op a x cmp c.2).2
      | .zero =>
        let a := pa / 256 * 256
        let c := captureFor a 256 s
        if c.1 then c.2 else centralZero a 256 c.2)

/-- CISTERN_MISS_FILL (R295, R297, R316): the fetch of a sector that a request waits for arrives, after every fetch that its
pseudo-channel serves before it. -/
def execCisternMissFill (addr : BitVec 44) (s : State) : Out :=
  .next (
    let pa := addr.toNat / 64 * 64
    match placeOf pa with
    | .stack n =>
      if (centralRefusal s pa).isSome || !sectorWaits n pa s then s
      else serveUntil n (pseudoChannel pa) (fun r => r.sector == pa / 64) s.stks[n].queue.length s
    | _ => s)

/-- Frame indices of a mask. -/
def maskFrames (mask : BitVec 16) : List (Fin 16) := (List.range 16).filterMap (fun b =>
  if h : b < 16 then (if mask.getLsbD b then some ⟨b, h⟩ else none) else none)

/-- States from which a command starts (R305). -/
def FrameCmd.from (c : FrameCmd) (f : FrameState) : Bool :=
  match c with
  | .close => f == .scratch
  | .off => f == .cache || f == .scratch || f == .closed
  | .clear => f == .scratch || f == .closed
  | .toscratch => f == .cache || f == .off
  | .tocache => f == .scratch || f == .closed || f == .off
  | .open => f == .closed

/-- State at the end of a command (R305). -/
def FrameCmd.ends : FrameCmd → FrameState
  | .close => .closed
  | .off => .off
  | .clear | .toscratch | .open => .scratch
  | .tocache => .cache

/-- The refusal code of a frame command (R307). -/
def frameRefusal (s : State) (h : HalfId) (cmd : FrameCmd) (mask : BitVec 16) : Option (BitVec 3) :=
  let x := s.halves[h]
  if x.op.isSome then some 3
  else if (maskFrames mask).any (fun f => !cmd.from x.frames[f]) then some 1
  else if s.basinMode ≠ 2 ∧ mask.extractLsb' 0 8 ≠ mask.extractLsb' 8 8 then some 2
  else if cmd = .tocache ∧ s.basinMode ≠ 0 then some 2
  else none

/-- A frame command (R305-R307): refused as a whole, or every masked frame closes; OPEN takes effect at once. -/
def frameCommand (h : HalfId) (cmd : FrameCmd) (mask : BitVec 16) (s : State) : State :=
  match frameRefusal s h cmd mask with
  | some e => s.modHalf h (fun x => { x with err := e })
  | none =>
    let dst : FrameState := if cmd = .open then .scratch else .changing
    s.modHalf h (fun x => { x with
      frames := (maskFrames mask).foldl (fun (v : Vector FrameState 16) (f : Fin 16) => v.set f dst) x.frames
      op := if cmd = .open || mask == 0 then none else some { cmd := cmd, mask := mask, drained := false } })

/-- FRAME_CLOSE (R305). -/
def execFrameClose (h : HalfId) (mask : BitVec 16) (s : State) : Out := .next (frameCommand h .close mask s)
/-- FRAME_OFF (R305). -/
def execFrameOff (h : HalfId) (mask : BitVec 16) (s : State) : Out := .next (frameCommand h .off mask s)
/-- FRAME_CLEAR (R305). -/
def execFrameClear (h : HalfId) (mask : BitVec 16) (s : State) : Out := .next (frameCommand h .clear mask s)
/-- TOSCRATCH (R305). -/
def execToscratch (h : HalfId) (mask : BitVec 16) (s : State) : Out := .next (frameCommand h .toscratch mask s)
/-- TOCACHE (R305). -/
def execTocache (h : HalfId) (mask : BitVec 16) (s : State) : Out := .next (frameCommand h .tocache mask s)
/-- FRAME_OPEN (R305). -/
def execFrameOpen (h : HalfId) (mask : BitVec 16) (s : State) : Out := .next (frameCommand h .open mask s)

/-- Every request that waits at a stack's pseudo-channels is served. -/
def serveAll (n : StackId) (s : State) : State :=
  (List.range s.stks[n].queue.length).foldl (fun s _ => match s.stks[n].queue with
    | [] => s
    | r :: _ => serveUntil n r.pc (fun _ => true) 1 s) s

/-- FRAME_DRAIN_COMPLETE (R306): every access that the half's slices have accepted completes. -/
def execFrameDrainComplete (h : HalfId) (s : State) : Out :=
  .next (
    if s.halves[h].op.isNone then s
    else ((List.finRange 24).foldl (fun s n => if halfOfStack n = h then serveAll n s else s) s).modHalf h (fun x =>
      { x with op := x.op.map (fun o => { o with drained := true }) }))

/-- Every line that a frame of a half holds is written back and leaves (R305). -/
def flushFrame (h : HalfId) (f : Fin 16) (s : State) : State :=
  (s.lines.filter (fun l => l.half == h && l.slice.val / 16 == f.val / 8 && l.way.val / 2 == f.val % 8)).foldl
    (fun s l => evictLine l s) s

/-- The window bytes that a frame backs read as zero with correct ECC (R300, R305). -/
def zeroFrame (h : HalfId) (f : Fin 16) (s : State) : State :=
  let base := 0x20000000000 + h.val * 0x20000000
  let lo := if s.basinMode = 2 then base + (f.val / 8) * 0x10000000 + (f.val % 8) * 0x2000000 else base + (f.val % 8) * 0x4000000
  let hi := lo + (if s.basinMode = 2 then 0x2000000 else 0x4000000)
  let keep (k : Nat) : Bool := !(decide (lo ≤ k * 64 ∧ k * 64 < hi))
  { s with mem := memClear s.mem lo hi, poison := s.poison.filter keep, cErr := s.cErr.filter (fun e => keep e.1) }

/-- FRAME_COMMAND_COMPLETE (R305): after the drain, frames that served the cache are written back and invalidated, frames that
enter SCRATCH or CACHE or lose their contents read as zero, and the frames take the command's final state. -/
def finishFrames (h : HalfId) (s : State) : State :=
  match s.halves[h].op with
  | none => s
  | some o =>
    if !o.drained then s
    else
      let fs := maskFrames o.mask
      let s := if o.cmd = .close then s else fs.foldl (fun s f => zeroFrame h f (flushFrame h f s)) s
      s.modHalf h (fun x => { x with
        frames := fs.foldl (fun (v : Vector FrameState 16) (f : Fin 16) => v.set f o.cmd.ends) x.frames
        op := none })

/-- FRAME_COMMAND_COMPLETE (R305). -/
def execFrameCommandComplete (h : HalfId) (s : State) : Out := .next (finishFrames h s)

/-- A CI_MAINT command starts (R328); one in progress goes on. -/
def startMaint (h : HalfId) (inval : Bool) (s : State) : State :=
  s.modHalf h (fun x => { x with maint := some (x.maint.getD inval || inval) })

/-- CI_MAINT_WRITEBACK (R328). -/
def execCiMaintWriteback (h : HalfId) (s : State) : Out := .next (startMaint h false s)
/-- CI_MAINT_WRITEBACK_INVALIDATE (R328). -/
def execCiMaintWritebackInvalidate (h : HalfId) (s : State) : Out := .next (startMaint h true s)

/-- CI_MAINT_COMPLETE (R328): every dirty sector of the half has been written back, and every line has left where the
command invalidates. -/
def execCiMaintComplete (h : HalfId) (s : State) : Out :=
  .next (match s.halves[h].maint with
  | none => s
  | some inv =>
    let ls := s.lines.filter (fun l => l.half == h)
    let s := ls.foldl (fun s l => if inv then evictLine l s else writeBackLine l s) s
    s.modHalf h (fun x => { x with maint := none }))

/-- STACK_TEMPERATURE_READ (R309, R312): the refresh rate doubles above 80 degrees. -/
def execStackTemperatureRead (n : StackId) (celsius : BitVec 8) (s : State) : Out :=
  .next (if s.domain (36 + n.val / 6) then s.modStack n (fun c => { c with temp := celsius, hot := decide (80 < celsius.toNat) }) else s)

/-- Index of a weir register: half, point, direction, basin (R327). -/
def weirIndex (p : WeirPath) (b : Fin 4) : Fin 64 :=
  ⟨((p.half.val * 4 + p.point.val) * 2 + p.dir.val) * 4 + b.val, by omega⟩

/-- Whether a weir point exists: WP3 in the M0 block only (R327). -/
def weirExists (p : WeirPath) : Bool := p.half == 0 || p.point != 3

/-- Capacity of a point in bytes per Cistern cycle (R318). -/
def weirCapacity (p : WeirPath) : Nat := if p.point = 0 then 37632 else if p.point = 3 then 4704 else 2352

/-- Whether FLOOR, CEIL and the sum of floors of a point stay within R321 with basin b at w. -/
def weirOk (s : State) (p : WeirPath) (b : Fin 4) (w : Weir) : Bool :=
  let sum := ([0, 1, 2, 3] : List (Fin 4)).foldl (fun acc k =>
    let x := if k = b then w else s.weirs[weirIndex p k]
    if x.en then acc + x.floor.toNat else acc) 0
  decide (w.floor.toNat ≤ w.ceil.toNat ∧ w.ceil.toNat ≤ 0x100 ∧ sum ≤ 0x100)

/-- A write to WEIR_CFG (R321, R331). -/
def writeWeir (p : WeirPath) (b : Fin 4) (v : W64) (s : State) : State :=
  let k := weirIndex p b
  let w := { s.weirs[k] with en := bitB v 63, ceil := v.extractLsb' 32 9, floor := v.extractLsb' 16 9, depth := v.extractLsb' 0 8 }
  if weirExists p && weirOk s p b w then { s with weirs := s.weirs.set k w } else s

/-- WEIR_CFG_WRITE (R321). -/
def execWeirCfgWrite (a : WeirAt) (v : W64) (s : State) : Out := .next (writeWeir a.path a.basin v s)

/-- The enabled basins of a path in turn from rr (R319). -/
def weirTurn (s : State) (p : WeirPath) (rr : Fin 4) : List (Fin 4) :=
  (([0, 1, 2, 3] : List (Fin 4)).map (fun k => rr + k)).filter (fun b => s.weirs[weirIndex p b].en)

/-- One pass of R319 for one basin: its head requests are granted while the buckets and what is left allow. -/
def weirGrant (floors : Bool) : Nat → Weir → Nat → Weir × Nat
  | 0, w, left => (w, left)
  | n + 1, w, left =>
    match w.queue with
    | [] => (w, left)
    | q :: r =>
      if q.2 ≤ left ∧ 256 * q.2 ≤ w.ce ∧ (!floors || decide (256 * q.2 ≤ w.fl)) then
        weirGrant floors n { w with queue := r, granted := if w.granted.contains q.1 then w.granted else w.granted ++ [q.1],
                                    ce := w.ce - 256 * q.2, fl := if floors then w.fl - 256 * q.2 else w.fl,
                                    cnt := countUp w.cnt ((q.2 + 63) / 64) } (left - q.2)
      else (w, left)

/-! Requests at the weirs (R318). -/

/-- What an access asks of a weir: the path, the basin, its bytes. -/
structure WeirNeed where
  path  : WeirPath
  basin : Fin 4
  bytes : Nat

/-- Paths between a unit on or above a half and a place in a half: the bridge WP3 where the halves differ. in_: the bytes move from the
place to the unit. -/
def bridgeNeed (unit place : HalfId) (in_ : Bool) : List WeirPath :=
  if unit = place then [] else [{ half := 0, point := 3, dir := if (if in_ then unit else place) = 1 then 0 else 1 }]

/-- Paths of an access between a compute die above a half and a place in the slices or stacks of a half (WP0). -/
def dieNeed (unit place : HalfId) (in_ : Bool) : List WeirPath :=
  { half := place, point := 0, dir := if in_ then 0 else 1 } :: bridgeNeed unit place in_

/-- Paths of an access between an I/O die and a place in a half: its bridge (WP1 for IO0, WP2 for IO1). -/
def ioNeed (io : Fin 2) (place : HalfId) (in_ : Bool) : List WeirPath :=
  [{ half := place, point := if io = 0 then 1 else 2, dir := if in_ then 1 else 0 }]

/-- Half on or under which a place lies. -/
def halfOfPlace (mode : BitVec 2) (pa : Nat) : HalfId :=
  match placeOf pa with
  | .well w _ => if w.val < 64 then 0 else 1
  | _ => halfOf mode pa

/-- A basin's request waits at each of its weirs until the regulator has granted it (R318, R319): true once all have, and the access
crosses. A request holds at most 512 B; in layout 0b00 the weirs are bypassed (R321). -/
def weirCross (u : WeirUser) (need : List WeirNeed) (s : State) : Bool × State :=
  let at_ (s : State) (x : WeirNeed) : Weir := s.weirs[weirIndex x.path x.basin]
  let put (s : State) (x : WeirNeed) (w : Weir) : State := { s with weirs := s.weirs.set (weirIndex x.path x.basin) w }
  let waits (w : Weir) : Bool := w.queue.any (fun q => q.1 == u)
  let parts (n : Nat) : List (WeirUser × Nat) := (List.range ((n + 511) / 512)).map (fun i => (u, min 512 (n - 512 * i)))
  if s.basinMode = 0 then (true, s)
  else if need.all (fun x => (at_ s x).granted.contains u && !waits (at_ s x)) then
    (true, need.foldl (fun s x => put s x { at_ s x with granted := (at_ s x).granted.filter (· != u) }) s)
  else
    (false, need.foldl (fun s x =>
      if waits (at_ s x) || (at_ s x).granted.contains u then s
      else put s x { at_ s x with queue := (at_ s x).queue ++ parts x.bytes }) s)

/-- WEIR_REGULATOR_CYCLE (R319): one Cistern cycle of one direction of a point; bypassed in layout 0b00 (R321). -/
def execWeirRegulatorCycle (p : WeirPath) (s : State) : Out :=
  .next (
    if s.basinMode = 0 ∨ !weirExists p then s
    else
      let c := weirCapacity p
      let ri : Fin 16 := ⟨(p.half.val * 4 + p.point.val) * 2 + p.dir.val, by omega⟩
      let rr := s.weirRr[ri]
      let turn := weirTurn s p rr
      let fill (w : Weir) : Weir :=
        let cap := 256 * 16 * (max 1 w.depth.toNat) * c
        { w with fl := min (w.fl + w.floor.toNat * c) cap, ce := min (w.ce + w.ceil.toNat * c) cap }
      let s := turn.foldl (fun (s : State) b => { s with weirs := s.weirs.set (weirIndex p b) (fill s.weirs[weirIndex p b]) }) s
      let pass (floors : Bool) (a : State × Nat) : State × Nat :=
        turn.foldl (fun (a : State × Nat) b =>
          let w := a.1.weirs[weirIndex p b]
          let r := weirGrant floors w.queue.length w a.2
          ({ a.1 with weirs := a.1.weirs.set (weirIndex p b) r.1 }, r.2)) a
      let s := (pass false (pass true (s, c))).1
      let rr' := ((weirTurn s p (rr + 1)).head?).getD rr
      { s with weirRr := s.weirRr.set ri rr' })

end Sys2Proof.Machine
end

