-- ==== Sys2Proof/Machine/Xlate.lean ====
section
/-! DEFINITION. Page tables, the translation front ends, fault records and invalidation (R279-R292). -/

namespace Sys2Proof.Machine

/-- What a walk answers: a leaf (4 GiB or not, frame address, rights A W R, level), or a failure (FTYPE, LEVEL). -/
inductive WalkRes where
  | leaf (big : Bool) (frame : Nat) (rights : BitVec 3) (level : BitVec 2)
  | fail (ftype : BitVec 3) (level : BitVec 2)
  deriving DecidableEq, Repr

/-- Rights in A, W, R order. -/
def rightR : BitVec 3 := 1
def rightW : BitVec 3 := 2
def rightA : BitVec 3 := 4

/-- Whether a leaf's rights hold every needed one. -/
def rightsHold (have_ need : BitVec 3) : Bool := have_ &&& need == need

/-- Whether [lo, lo + n) lies wholly in the stacks or the Cistern scratchpad window (R280). -/
def tableRange (lo n : Nat) : Bool :=
  decide (lo + n ≤ 0x18000000000) || decide (0x20000000000 ≤ lo ∧ lo + n ≤ 0x20040000000)

/-- One entry read by a walk (R281, R282): none when the read cannot be carried out. -/
def walkRead (a : Nat) (s : State) : Option W64 × State :=
  if (centralRefusal s a).isSome then (none, s)
  else
    let r := centralRead true a 8 s
    (r.1.map bytesWord, r.2)

/-- The address a table entry holds. -/
def entryAddr' (e : W64) : Nat := fieldN e 9 51 * 512

/-- What a pointer entry at a level leads to, or its failure (R280, R281); size is that of the next table. -/
def pointerOf (e : W64) (size : Nat) : Option Nat :=
  let a := entryAddr' e
  if fieldN e 60 4 = 0 ∧ fieldN e 7 2 = 0 ∧ fieldN e 1 6 = 0 ∧ fieldN e 44 16 = 0 ∧ a % size = 0 ∧ tableRange a size then some a else none

/-- A leaf entry: its frame, or its failure (R280, R281). -/
def leafOf (e : W64) (big : Bool) (level : BitVec 2) : WalkRes :=
  let a := entryAddr' e
  let size := if big then 0x100000000 else 0x4000000
  if fieldN e 60 4 ≠ 0 ∨ fieldN e 7 2 ≠ 0 ∨ a % size ≠ 0 then .fail 3 level
  else if 0xF0000000000 ≤ a % 0x100000000000 then .fail 4 level
  else .leaf big a (e.extractLsb' 4 3) level

/-- What one entry at a level says (R279-R281): the next table, or the end of the walk. -/
def stepEntry (level : Nat) (e : W64) : Nat ⊕ WalkRes :=
  let lv := BitVec.ofNat 2 level
  let kind := fieldN e 1 3
  if !bitB e 0 then .inr (.fail 1 lv)
  else if level = 3 then (if kind = 1 then .inr (leafOf e false lv) else .inr (.fail 3 lv))
  else if kind = 0 then
    match pointerOf e (if level = 2 then 512 else 0x8000) with
    | some a => .inl a
    | none => .inr (.fail 3 lv)
  else if level = 2 ∧ kind = 2 then .inr (leafOf e true lv)
  else .inr (.fail 3 lv)

/-- Index of the entry that a level reads (R279). -/
def levelIndex (level : Nat) (asid : BitVec 16) (va : BitVec 56) : Nat :=
  if level = 0 then asid.toNat else if level = 1 then fieldN (va.setWidth 64) 44 12
  else if level = 2 then fieldN (va.setWidth 64) 32 12 else fieldN (va.setWidth 64) 26 6

/-- Prefix of the VA under which the walk cache keeps the pointer read at a level. -/
def levelPre (level : Nat) (va : BitVec 56) : Nat :=
  if level = 0 then 0 else if level = 1 then va.toNat / 2 ^ 44 else va.toNat / 2 ^ 32

/-- Changing a front end. -/
def State.modFront (s : State) (f : FrontId) (g : Front → Front) : State := { s with fronts := s.fronts.set f (g s.fronts[f]) }

/-- Keeping a pointer in the walk cache: 64 entries, least recently used out (R282). -/
def keepPointer (f : FrontId) (asid : BitVec 16) (level : Nat) (va : BitVec 56) (next : Nat) (s : State) : State :=
  let e : WalkEntry := { asid := asid, level := Fin.ofNat 3 level, pre := levelPre level va, next := next }
  s.modFront f (fun x => { x with walkCache :=
    (e :: x.walkCache.filter (fun y => !(y.asid == e.asid && y.level == e.level && y.pre == e.pre))).take 64 })

/-- The pointer that the walk cache supplies for a level. -/
def cachedPointer (x : Front) (asid : BitVec 16) (level : Nat) (va : BitVec 56) : Option Nat :=
  (x.walkCache.find? (fun y => y.asid == asid && y.level.val == level && y.pre == levelPre level va)).map (·.next)

/-- A walk from a level with the table that holds its entries; fuel counts levels. -/
def walkFrom (f : FrontId) (asid : BitVec 16) (va : BitVec 56) : Nat → Nat → Nat → State → WalkRes × State
  | 0, level, _, s => (.fail 5 (BitVec.ofNat 2 level), s)
  | n + 1, level, table, s =>
    let a := table + 8 * levelIndex level asid va
    let r := walkRead a s
    match r.1 with
    | none => (.fail 5 (BitVec.ofNat 2 level), r.2)
    | some e => match stepEntry level e with
      | .inr res => (res, r.2)
      | .inl next => walkFrom f asid va n (level + 1) next (keepPointer f asid level va next r.2)

/-- A walk (R279-R282): it starts below the deepest pointer that the walk cache supplies. -/
def walkTable (f : FrontId) (asid : BitVec 16) (va : BitVec 56) (s : State) : WalkRes × State :=
  let x := s.fronts[f]
  match cachedPointer x asid 2 va with
  | some t => walkFrom f asid va 1 3 t s
  | none => match cachedPointer x asid 1 va with
    | some t => walkFrom f asid va 2 2 t s
    | none => match cachedPointer x asid 0 va with
      | some t => walkFrom f asid va 3 1 t s
      | none => walkFrom f asid va 4 0 s.asidBase.toNat s

/-- Page number of a VA at a size. -/
def pageOf (big : Bool) (va : BitVec 56) : Nat := if big then va.toNat / 2 ^ 32 else va.toNat / 2 ^ 26

/-- Granule of a VA (R286). -/
def granuleOf (va : BitVec 56) : BitVec 30 := va.extractLsb' 26 30

/-- The cached translation of a VA (R282). -/
def tlbFind (x : Front) (asid : BitVec 16) (va : BitVec 56) : Option TlbEntry :=
  x.tlb.find? (fun e => e.asid == asid && e.page == pageOf e.big va)

/-- Number of translations a front end caches (R282). -/
def tlbSize (f : FrontId) : Nat := if f.val < 4 then 512 else 256

/-- Caching a translation as the most recently used. -/
def tlbPut (f : FrontId) (e : TlbEntry) (s : State) : State :=
  s.modFront f (fun x => { x with tlb :=
    (e :: x.tlb.filter (fun y => !(y.asid == e.asid && y.big == e.big && y.page == e.page))).take (tlbSize f) })

/-- A resolved field (R283). -/
def resolvedWord (big : Bool) (frame : Nat) (rights : BitVec 3) : W64 :=
  putB 63 true ||| putN 60 (if big then 2 else 1) ||| putN 26 (frame / 2 ^ 26 % 2 ^ 34) ||| putN 23 rights.toNat

/-- An untranslated endpoint's field: SIZE 0b00 (R283). -/
def untranslated : W64 := putB 63 true

/-- Front end of a Pump and of a well's fetch port (R282). -/
def frontOfWell (w : WellId) : FrontId := ⟨w.val / 32, by omega⟩
def frontOfPump (p : PumpId) : FrontId := if p.val < 256 then ⟨p.val / 64 % 4, by omega⟩ else if p.val < 264 then 4 else 5

/-- Changing a Pump. -/
def State.modPump (s : State) (p : PumpId) (g : Pump → Pump) : State := { s with pumps := s.pumps.set p (g s.pumps[p]) }

/-- Changing the queued descriptor of a submission. -/
def modDesc (p : PumpId) (seq : BitVec 32) (g : Desc → Desc) (s : State) : State :=
  s.modPump p (fun x => { x with queue := x.queue.map (fun d => if d.seq = seq then g d else d) })

/-- Well of a Pump. -/
def wellOfPump (p : PumpId) : Option WellId := if h : p.val < 256 then some ⟨p.val / 2, by omega⟩ else none

/-- A descriptor no longer waits for a translation. -/
def Desc.stopXlate (d : Desc) : Desc := { d with heldS := none, heldD := none, walkS := false, walkD := false }

/-- A descriptor meets an error: the first one stays (R277). -/
def Desc.fail (d : Desc) (st : BitVec 8) : Desc := { d with err := some (d.err.getD st), waiting := false }

/-- A held Pump's well receives PUMP_FAULT (R286). -/
def pumpFaultLine (r : Requester) (s : State) : State :=
  match r with
  | .pump p _ _ _ => (match wellOfPump p with | some w => raiseLine w 6 s | none => s)
  | _ => s

/-- A requester is held by record k (R286, R287). -/
def holdRequester (f : FrontId) (k : Fin 64) (r : Requester) (s : State) : State :=
  match r with
  | .pump p seq dst _ => modDesc p seq (fun d =>
      if dst then { d with heldD := some (f, k), walkD := false } else { d with heldS := some (f, k), walkS := false }) s
  | _ => s

/-- Bit of a fetch port in FETCHREQ. -/
def fetchBit (r : Requester) : BitVec 32 := match r with | .fetch w => 1#32 <<< (w.val % 32) | _ => 0

/-- The open record of an ASID and granule. -/
def recordFor (x : Front) (asid : BitVec 16) (va : BitVec 56) : Option (Fin 64) :=
  (List.range 64).findSome? (fun i => if h : i < 64 then
    (match x.records[i] with
      | some r => if r.asid == asid && granuleOf r.va == granuleOf va then some ⟨i, h⟩ else none
      | none => none) else none)

/-- A free record. -/
def freeRecord (x : Front) : Option (Fin 64) :=
  (List.range 64).findSome? (fun i => if h : i < 64 then (if x.records[i].isNone then some ⟨i, h⟩ else none) else none)

/-- A requester joins an open record (R286). -/
def joinRecord (f : FrontId) (k : Fin 64) (r : Requester) (va : BitVec 56) (need : BitVec 3) (s : State) : State :=
  let s := s.modFront f (fun x => { x with records := x.records.set k (x.records[k].map (fun c =>
    { c with
      rights := c.rights ||| need
      joins := if c.joins = 0xFFFF then c.joins else c.joins + 1
      fetches := c.fetches ||| fetchBit r
      held := match r with | .fetch _ => c.held | _ => c.held ++ [(r, va, need)] })) })
  pumpFaultLine r (holdRequester f k r s)

/-- Unit that a new translation fault record names: the first requester's (R32). -/
def requesterUnit : Requester → BitVec 16
  | .pump p _ _ _ => pumpUnit p
  | .fetch w => wellUnit w
  | .engine e _ => BitVec.ofNat 16 (0x6000 + e.val)

/-- A new fault record in a free place: one fault event goes to the Headwater fault pair (R286). The report's detail carries the
front end and the record. -/
def openRecord (f : FrontId) (k : Fin 64) (r : Requester) (asid : BitVec 16) (va : BitVec 56) (need ftype : BitVec 3) (level : BitVec 2)
    (s : State) : State :=
  let rec_ : FaultRec := { ftype := ftype, rights := need, level := level, asid := asid, va := va, fetches := fetchBit r, joins := 0,
                           held := match r with | .fetch _ => [] | _ => [(r, va, need)] }
  let s := s.modFront f (fun x => { x with records := x.records.set k (some rec_) })
  (pumpFaultLine r (holdRequester f k r s)).report (requesterUnit r) 0x06 (w64 (f.val * 64 + k.val))

/-- A fetch that cannot be translated raises FETCH_XLATE at once, at the instruction it concerns: the one at the pc (R190, R287). -/
def fetchFails (r : Requester) (va : BitVec 56) (s : State) : State :=
  match r with
  | .fetch w => s.modCpu w (fun c => if c.pc.toNat / 64 = va.toNat / 64 then
      { c with fetchFault := some { code := 0x03, info := c.pc.setWidth 64 }, stall := none } else c)
  | _ => s

/-- A requester whose walk failed (R286-R288): it joins the granule's open record, opens one, or waits for a free one. -/
def recordFault (f : FrontId) (r : Requester) (asid : BitVec 16) (va : BitVec 56) (need ftype : BitVec 3) (level : BitVec 2)
    (s : State) : State :=
  let x := s.fronts[f]
  fetchFails r va (match recordFor x asid va with
    | some k => joinRecord f k r va need s
    | none => match freeRecord x with
      | some k => openRecord f k r asid va need ftype level s
      | none => match r with
        | .fetch _ => s
        | _ => s.modFront f (fun x => { x with
            waiters := x.waiters ++ [(r, asid, va, need, ftype, level)]
            fullwait := if x.fullwait = 0xFF then x.fullwait else x.fullwait + 1 }))

/-- A requester receives its translation (R283, R284): one that asked early keeps the page it works on, and finds this one in the front
end's cache when it crosses. -/
def giveTranslation (r : Requester) (e : TlbEntry) (s : State) : State :=
  match r with
  | .pump p seq dst early => modDesc p seq (fun d =>
      let v := resolvedWord e.big e.frame e.rights
      let d := if dst then { d with walkD := false, heldD := none } else { d with walkS := false, heldS := none }
      if early then d else if dst then { d with rdst := v, vpD := e.page, aheadD := false } else { d with rsrc := v, vpS := e.page, aheadS := false }) s
  | .fetch w => s.modCpu w (fun c => if c.stall = some .walkFault then { c with stall := none } else c)
  | .engine _ _ => s

/-- A request for a translation reaches a front end (R282, R286): an open record of the granule is joined, whatever is cached; a
hit answers at once; a walk in flight for the granule is waited for; and otherwise a walk starts. -/
def requestXlate (f : FrontId) (r : Requester) (asid : BitVec 16) (va : BitVec 56) (need : BitVec 3) (s : State) : State :=
  let x := s.fronts[f]
  let start (s : State) : State :=
    let s := match r with
      | .pump p seq dst _ => modDesc p seq (fun d => if dst then { d with walkD := true, heldD := none } else { d with walkS := true, heldS := none }) s
      | .fetch w => s.modCpu w (fun c => { c with stall := some .walkFault })
      | .engine _ _ => s
    if x.walks.any (fun y => y.asid == asid && granuleOf y.va == granuleOf va) then
      s.modFront f (fun x => { x with walks := x.walks.map (fun y =>
        if y.asid == asid && granuleOf y.va == granuleOf va && !y.reqs.any (fun q => q.1 == r) then { y with reqs := y.reqs ++ [(r, need)] } else y) })
    else s.modFront f (fun x => { x with walks := x.walks ++ [{ asid := asid, va := va, reqs := [(r, need)] }] })
  match recordFor x asid va with
  | some k => fetchFails r va (joinRecord f k r va need s)
  | none => match tlbFind x asid va with
    | some e => if rightsHold e.rights need then giveTranslation r e (tlbPut f e s) else start s
    | none => start s

/-- A walk ends (R281, R282): it fails when the leaf lacks a right of the requester that it was made for, and every requester that
waited joins the record. Otherwise the translation is cached, and those that waited take it as a hit. -/
def finishWalk (f : FrontId) (k : Walk) (s : State) : State :=
  let r := walkTable f k.asid k.va s
  let failed (ft : BitVec 3) (level : BitVec 2) : State := k.reqs.foldl (fun s q => recordFault f q.1 k.asid k.va q.2 ft level s) r.2
  match r.1 with
  | .leaf big frame rights level =>
    let e : TlbEntry := { asid := k.asid, big := big, page := pageOf big k.va, frame := frame, rights := rights }
    if !rightsHold rights ((k.reqs.head?.map (·.2)).getD 0) then failed 2 level
    else k.reqs.foldl (fun s q =>
      if rightsHold rights q.2 then giveTranslation q.1 e s else recordFault f q.1 k.asid k.va q.2 2 level s) (tlbPut f e r.2)
  | .fail ft level => failed ft level

/-- Half on or under which a front end lies, and the basin of its die (R16, R17, R292). -/
def frontHalf (f : FrontId) : HalfId := if f.val = 0 ∨ f.val = 1 ∨ f.val = 4 then 0 else 1
def frontBasin (mode : BitVec 2) (f : FrontId) : Fin 4 := if mode = 1 then (if frontHalf f = 0 then 0 else 1) else Fin.ofNat 4 f.val

/-- Paths of a walk's reads: four entries at most (R279, R318); a bulk front end stands on its half. -/
def walkNeed (s : State) (f : FrontId) : List WeirNeed :=
  let at_ := halfOf s.basinMode s.asidBase.toNat
  (if f.val < 4 then dieNeed (frontHalf f) at_ true else bridgeNeed (frontHalf f) at_ true).map (fun p =>
    { path := p, basin := frontBasin s.basinMode f, bytes := 32 })

/-- TRANSLATION_WALK (R282): the oldest walk in flight of the front end completes, once the weirs let its reads cross (R318). -/
def execTranslationWalk (f : FrontId) (s : State) : Out :=
  .next (match s.fronts[f].walks with
    | [] => s
    | k :: r =>
      let c := weirCross (.walk f) (walkNeed s f) s
      if c.1 then finishWalk f k (c.2.modFront f (fun x => { x with walks := r })) else c.2)

/-- A place among the records is free (R288): the unrecorded waiters open it in turn, and those of an open record's granule join it. -/
def wakeWaiters (f : FrontId) (s : State) : State :=
  s.fronts[f].waiters.foldl (fun s q =>
    let gone (s : State) : State := s.modFront f (fun x => { x with waiters := x.waiters.filter (· != q) })
    match recordFor s.fronts[f] q.2.1 q.2.2.1 with
    | some k => joinRecord f k q.1 q.2.2.1 q.2.2.2.1 (gone s)
    | none => match freeRecord s.fronts[f] with
      | some k => openRecord f k q.1 q.2.1 q.2.2.1 q.2.2.2.1 q.2.2.2.2.1 q.2.2.2.2.2 (gone s)
      | none => s) s

/-- The open record that a PU_FRESP write names (R289). -/
def respMatch (s : State) (f : FrontId) (k : Fin 64) (asid : BitVec 16) (g : BitVec 30) : Option FaultRec :=
  match s.fronts[f].records[k] with
  | some r => if r.asid == asid && granuleOf r.va == g then some r else none
  | none => none

/-- A write that matches no open record sets BADRESP (R289). -/
def badResp (f : FrontId) (s : State) : State := s.modFront f (fun x => { x with badresp := true })

/-- RESUME: every held requester translates again in the order of its first request; the record closes (R289). -/
def frespResume (f : FrontId) (k : Fin 64) (asid : BitVec 16) (g : BitVec 30) (s : State) : State :=
  match respMatch s f k asid g with
  | none => badResp f s
  | some r =>
    let s := s.modFront f (fun x => { x with records := x.records.set k none })
    wakeWaiters f (r.held.foldl (fun s q => requestXlate f q.1 r.asid q.2.1 q.2.2 s) s)

/-- Changing Confluence. -/
def State.modCf (s : State) (f : Conf → Conf) : State := { s with cf := f s.cf }

/-- ABORT: every held descriptor ends with XLATE_ABORT; the record closes (R289). -/
def frespAbort (f : FrontId) (k : Fin 64) (asid : BitVec 16) (g : BitVec 30) (s : State) : State :=
  match respMatch s f k asid g with
  | none => badResp f s
  | some r =>
    let s := s.modFront f (fun x => { x with records := x.records.set k none })
    wakeWaiters f (r.held.foldl (fun s q => match q.1 with
      | .pump p seq _ _ => (modDesc p seq (fun d => (d.stopXlate).fail 0x0A) s).modPump p
          (fun x => if seq = x.nextSeq then { x with abortHand := true } else x)
      | .engine e id => (releaseEverywhere (.engine e id) s).modCf (fun c => { c with engines := c.engines.set e { c.engines[e] with
          ops := c.engines[e].ops.map (fun o => if o.id = id then { o with status := 0x09, phase := .written } else o) } })
      | .fetch _ => s) s)

/-- PU_FRESP_RESUME (R289). -/
def execPuFrespResume (f : FrontId) (k : Fin 64) (asid : BitVec 16) (g : BitVec 30) (s : State) : Out := .next (frespResume f k asid g s)
/-- PU_FRESP_ABORT (R289). -/
def execPuFrespAbort (f : FrontId) (k : Fin 64) (asid : BitVec 16) (g : BitVec 30) (s : State) : Out := .next (frespAbort f k asid g s)

/-- The front end drops what it keeps of an ASID at a cut (R290). -/
def cutFront (asid : BitVec 16) (x : Front) : Front :=
  { x with tlb := x.tlb.filter (fun e => e.asid != asid), walkCache := x.walkCache.filter (fun e => e.asid != asid) }

end Sys2Proof.Machine
end

