-- ==== Sys2Proof/Machine/FarOps.lean ====
section
/-! DEFINITION. Faranaor operations: CRC-32C, groups, routing, queues of the transmitters, and the coalescing of fault
reports (R354-R374, R405-R408). -/

namespace Sys2Proof.Machine

/-- One bit step of CRC-32C in reflected form. -/
def crcBit (c : BitVec 32) : BitVec 32 := if c.getLsbD 0 then (c >>> 1) ^^^ 0x82F63B78 else c >>> 1

/-- One byte. -/
def crcByte (c : BitVec 32) (b : Byte) : BitVec 32 :=
  let x := c ^^^ b.setWidth 32
  crcBit (crcBit (crcBit (crcBit (crcBit (crcBit (crcBit (crcBit x)))))))

/-- CRC-32C, polynomial 0x1EDC6F41 (R356); reflection, initial and final values all ones are the standard's (PRESUMED). -/
def crc32c (bs : List Byte) : BitVec 32 := ~~~(bs.foldl crcByte (~~~0))

/-- Saturating addition to an n-bit counter that sticks at its top. -/
def stick (n : Nat) (c : BitVec n) : BitVec n := if c = ~~~0 then c else c + 1

/-- Changing the fabric state, a link, a group. -/
def State.modFar (s : State) (f : Far → Far) : State := { s with far := f s.far }
def State.modLink (s : State) (l : LinkId) (f : Link → Link) : State :=
  s.modFar (fun x => { x with links := x.links.set l (f x.links[l]) })
def State.modGroup (s : State) (g : Fin 64) (f : Group → Group) : State :=
  s.modFar (fun x => { x with groups := x.groups.set g (f x.groups[g]) })

/-- Unit ID of a link (R32). -/
def linkUnit (l : LinkId) : BitVec 16 := BitVec.ofNat 16 (0x5000 + l.val)

/-- Whether the domain of a link's optics is on (R354) and REFCLK_B is present (R503). -/
def State.linkOn (s : State) (l : LinkId) : Bool := s.domain (if l.val < 18 then 40 else 42) && !s.pw.refBLost

/-- The group table entry of a group ID (R367). -/
def groupOf (s : State) (gid : BitVec 16) : Option (Fin 64) :=
  (List.range 64).findSome? (fun i => if h : i < 64 then
    (if s.far.groups[i].inUse && s.far.groups[i].gid == gid then some ⟨i, h⟩ else none) else none)

/-- The route entry of a device as the host has written it. -/
def routeWord (s : State) (dev : BitVec 16) : W64 := ((s.far.routes.find? (fun r => r.1 == dev)).map (·.2)).getD 0

/-- Candidates of an entry in order, up to the first 0x3F (R364), without the links taken out (R365). -/
def candidates (s : State) (dev : BitVec 16) : List LinkId :=
  let w := routeWord s dev
  (([24, 16, 8, 0].map (fun lo => fieldN w lo 6)).takeWhile (· ≠ 0x3F)).filterMap (fun n =>
    if h : n < 36 then (if s.far.removed.getLsbD n then none else some ⟨n, h⟩) else none)

/-- The entry as the route table holds it: without the links taken out (R364, R365). -/
def effectiveRoute (s : State) (dev : BitVec 16) : W64 :=
  let w := routeWord s dev
  let cs := (candidates s dev).map (·.val)
  (w &&& 0xC000000000000000) ||| putN 24 (cs.getD 0 0x3F) ||| putN 16 (cs.getD 1 0x3F) ||| putN 8 (cs.getD 2 0x3F) ||| putN 0 (cs.getD 3 0x3F)

/-- The ACTIVE candidates (R364). -/
def usable (s : State) (dev : BitVec 16) : List LinkId := (candidates s dev).filter (fun l => s.far.links[l].state == .active)

/-- The link a packet leaves on: the first usable candidate for VC0, VC3 and VC4; for VC1 and VC2 by SRC, DST and FLOW
(R364, R365). -/
def pickLink (s : State) (vc : Nat) (src dst : BitVec 16) (flow : Nat) : Option LinkId :=
  if !bitB (routeWord s dst) 63 then none
  else
    let us := usable s dst
    match us with
    | [] => none
    | u :: _ => if vc = 1 ∨ vc = 2 then us[(src.toNat ^^^ dst.toNat ^^^ flow) % us.length]? else some u

/-- Whether the route entry says that a destination is this device (R364). -/
def localEntry (s : State) (dev : BitVec 16) : Bool := bitB (routeWord s dev) 63 && bitB (routeWord s dev) 62

/-- Whether the bridge between a link's I/O die and the middle dies is on (R19). -/
def linkBridgeOn (s : State) (l : LinkId) : Bool := s.domain (if l.val < 18 then 41 else 43)

/-- Fields of a packet header (R356). -/
def pKind (p : Packet) : Nat := fieldN p.w0 60 4
def pVc (p : Packet) : Nat := fieldN p.w0 57 3
def pHops (p : Packet) : Nat := fieldN p.w0 52 5
def pSrc (p : Packet) : BitVec 16 := p.w0.extractLsb' 36 16
def pDst (p : Packet) : BitVec 16 := p.w0.extractLsb' 20 16
def pTag (p : Packet) : BitVec 12 := p.w0.extractLsb' 8 12
def pLen (p : Packet) : Nat := fieldN p.w1 54 10
def pFlow (p : Packet) : Nat := fieldN p.w1 44 10
def pAddr (p : Packet) : Nat := fieldN p.w1 0 44

/-- A packet from its fields. -/
def mkPacket (kind vc hops : Nat) (src dst : BitVec 16) (tag : BitVec 12) (len flow addr : Nat) (data : List Byte) : Packet :=
  { w0 := putN 60 kind ||| putN 57 vc ||| putN 52 hops ||| putN 36 src.toNat ||| putN 20 dst.toNat ||| putN 8 tag.toNat,
    w1 := putN 54 len ||| putN 44 flow ||| w64 addr, data := data }

/-- A packet dropped is counted in FB_DROP of a link (R365); the spec does not say of which: the first candidate, else L0. -/
def countDrop (dev : BitVec 16) (s : State) : State :=
  s.modLink ((candidates s dev).headD 0) (fun k => { k with drop := countUp k.drop 1 })

/-- Queueing an item for a virtual channel of a link. -/
def queueItem (l : LinkId) (vc : Nat) (basin : Fin 4) (it : TxItem) (s : State) : State :=
  s.modLink l (fun k => { k with txq := k.txq.set (Fin.ofNat 5 vc) (k.txq[Fin.ofNat 5 vc] ++ [(basin, it)]) })

/-- A packet goes out from this device or crosses it (R364, R365): the link taken, none when it cannot be carried. A STAGE packet's
message gains a hop with the packet (R356). -/
def sendPacket (basin : Fin 4) (p : Packet) (s : State) : Option LinkId × State :=
  let hops := pHops p + 1
  match pickLink s (pVc p) (pSrc p) (pDst p) (pFlow p) with
  | none => (none, countDrop (pDst p) s)
  | some l =>
    if s.far.maxhop.toNat < hops then (none, countDrop (pDst p) s)
    else
      let data := if pKind p = 6 then
        (List.range p.data.length).zip p.data |>.map (fun x => if x.1 = 4 then x.2 + 1 else x.2) else p.data
      let q := { p with w0 := (p.w0 &&& ~~~(putN 52 0x1F)) ||| putN 52 hops, data := data }
      (some l, queueItem l (pVc p) basin (.packet q) s)

/-- The stage timer in us, low 32 bits (R411, R435). -/
def timeUs (s : State) : BitVec 32 := BitVec.ofNat 32 (s.stg.t.toNat / 1000)

/-- Changing an engine. -/
def State.modEng (s : State) (e : EngineId) (f : Engine → Engine) : State :=
  s.modCf (fun c => { c with engines := c.engines.set e (f c.engines[e]) })

/-- A report's key (R406). -/
structure CoalKey where
  dev   : BitVec 16
  unit  : BitVec 16
  cls   : BitVec 8
  stage : W64
  deriving DecidableEq, Repr

/-- The entry of a key. -/
def coalFind (s : State) (k : CoalKey) : Option (Fin 4096) :=
  (List.range 4096).findSome? (fun i => if h : i < 4096 then
    (match s.cf.coal[i] with
      | some c => if c.dev == k.dev && c.unit == k.unit && c.cls == k.cls && c.stage == k.stage then some ⟨i, h⟩ else none
      | none => none) else none)

/-- A free entry, else the oldest delivered one (R408). -/
def coalFree (s : State) : Option (Fin 4096) :=
  match (List.range 4096).findSome? (fun i => if h : i < 4096 then (if s.cf.coal[i].isNone then some (⟨i, h⟩ : Fin 4096) else none) else none) with
  | some i => some i
  | none => (List.range 4096).foldl (fun (best : Option (Fin 4096)) i => if h : i < 4096 then
      (match s.cf.coal[i], best with
        | some c, some b => (match s.cf.coal[b] with
            | some d => if c.delivered && decide (c.firstT.toNat < d.firstT.toNat) then some ⟨i, h⟩ else best
            | none => best)
        | some c, none => if c.delivered then some ⟨i, h⟩ else none
        | _, _ => best) else best) none

/-- Word 0 of a report (R405). -/
def reportWord0 (k : CoalKey) (reporter : BitVec 16) : W64 :=
  putN 56 k.cls.toNat ||| putN 40 k.unit.toNat ||| putN 24 k.dev.toNat ||| putN 8 reporter.toNat ||| 0x10

/-- Words 0-3 of a coalescing entry (R411). -/
def coalWords (c : Coal) : List W64 :=
  [putN 62 (if c.delivered then 2 else 1) ||| putN 48 c.cls.toNat ||| putN 32 c.dev.toNat ||| putN 16 c.unit.toNat, c.stage,
   putN 32 c.count.toNat ||| putN 16 c.firstDev.toNat ||| c.lastDev.setWidth 64, putN 32 c.firstT.toNat ||| c.lastT.setWidth 64]

/-- A report enters the coalescing table of IO0's fabric cores (R406, R408). inRate: within the link's rate (R407). The host event
of a new entry goes through Headwater's fault pair under class FABRIC (R436). -/
def coalesce (k : CoalKey) (reporter : BitVec 16) (inRate : Bool) (detail : BitVec 32) (s : State) : State :=
  match coalFind s k with
  | some i => s.modCf (fun c => { c with coal := c.coal.set i (c.coal[i].map (fun e =>
      let e := { e with count := stick 32 e.count }
      if inRate then { e with lastDev := reporter, lastT := timeUs s } else e)) })
  | none =>
    match coalFree s with
    | none =>
      let first := s.cf.coalOvf.count = 0 ∧ !s.cf.coalOvf.ovf
      let s := s.modCf (fun c => { c with coalOvf := countUp c.coalOvf 1,
                                          ovfFirst := if first then (reportWord0 k reporter &&& ~~~0xFF) ||| putB 63 true else c.ovfFirst })
      if first then (let r := s.takeFree; r.2.report 0x6010 0x0D r.1) else s
    | some i =>
      let s := match s.cf.coal[i] with | some c => s.event 0x01 0xFFFF (coalWords c) | none => s
      let e : Coal := { delivered := false, evt := none, cls := k.cls, dev := k.dev, unit := k.unit, stage := k.stage, count := 1, firstDev := reporter,
                        lastDev := reporter, firstT := timeUs s, lastT := timeUs s }
      (s.modCf (fun c => { c with coal := c.coal.set i (some e) })).report k.unit 0x0D (detail.setWidth 64)

/-- A failure that this device observes (R370, R405, R406): a FAULT_REPORT on VC3 to the master of every group that holds both
devices, and an entry of its own. -/
def observe (dev unit : BitVec 16) (cls : BitVec 8) (detail : BitVec 32) (s : State) : State :=
  let k : CoalKey := { dev := dev, unit := unit, cls := cls, stage := s.stageNumber }
  let masters := (s.far.groups.toList.filter (fun g => g.inUse && g.members.contains dev && g.members.contains s.devId && g.master != s.devId)).map (·.master)
  let data := wordBytes (reportWord0 k s.devId) ++ wordBytes k.stage ++ wordBytes (detail.setWidth 64) ++ wordBytes 0
  let s := masters.eraseDups.foldl (fun s m => (sendPacket 0 (mkPacket 7 3 0 s.devId m 0 32 0 0 data) s).2) s
  coalesce k s.devId true detail s

/-- Ending a Pump descriptor's remote access with a status (R277, R365): the first error stays. -/
def endRemote (q : RemoteReq) (st : Option (BitVec 8)) (s : State) : State :=
  modDesc q.pump q.seq (fun d =>
    { d with remote := d.remote - q.bytes, err := match st with | some e => some (d.err.getD e) | none => d.err })
    (({ s with invals := s.invals.map (fun v => { v with tags := v.tags.filter (· != q.tag) }) } : State).modFar (fun x =>
      { x with remote := x.remote.filter (fun r => r.tag != q.tag) }))

/-- Accesses whose route has become unusable complete with FABRIC_DOWN (R365): the entry is not VALID or has no usable candidate. One on a
link that retrains waits in its replay buffer. -/
def loseAccesses (s : State) : State :=
  (s.far.remote.filter (fun q => !bitB (routeWord s q.dev) 63 ||
    ((usable s q.dev).isEmpty && s.far.links[q.link].state != .retrain))).foldl (fun s q => endRemote q (some 0x04) s) s

/-- Every Pump access outstanding on a link completes with FABRIC_DOWN (R371). -/
def failLink (l : LinkId) (s : State) : State :=
  (s.far.remote.filter (fun q => q.link == l)).foldl (fun s q => endRemote q (some 0x04) s) s

/-- A link goes to DOWN (R359, R371): its buffers are dropped, its accesses fail, and the failure is reported. -/
def linkDown (l : LinkId) (reason : BitVec 4) (s : State) : State :=
  let s := s.modLink l (fun k => { k with
    state := .down
    reason := reason
    replay := []
    resend := 0
    txq := Vector.replicate 5 []
    txRem := Vector.replicate 5 (0, [])
    rxRem := Vector.replicate 5 [] })
  observe s.devId (linkUnit l) 0x01 (BitVec.ofNat 32 l.val) (failLink l s)

/-- RETRAIN from EQUALISE with the replay state kept (R358, R359). -/
def linkRetrain (l : LinkId) (s : State) : State :=
  s.modLink l (fun k => if k.state = .active then { k with state := .retrain, step := 1, retrainDue := false } else k)

end Sys2Proof.Machine
end

