-- ==== Sys2Proof/Machine/PumpOps.lean ====
section
/-! DEFINITION. Descriptors of the Pumps: fields, submission checks, shape, hand-over, the queue's ends and the invalidations
(R264-R278, R284, R290, R291). -/

namespace Sys2Proof.Machine

/-- The eight words of a descriptor (R265). -/
abbrev DWords := Vector W64 8

/-- Fields of word 0 (R265). -/
def dKind (d : DWords) : Nat := fieldN d[0] 0 4
def dDims (d : DWords) : Nat := fieldN d[0] 4 2
def dSmode (d : DWords) : Nat := fieldN d[0] 6 2
def dDmode (d : DWords) : Nat := fieldN d[0] 8 2
def dSrcTag (d : DWords) : Nat := fieldN d[0] 10 2
def dDstTag (d : DWords) : Nat := fieldN d[0] 12 2
def dIrq (d : DWords) : Bool := bitB d[0] 14
def dTrig (d : DWords) : Bool := bitB d[0] 15
def dWaitc (d : DWords) : Bool := bitB d[0] 16
def dUrgent (d : DWords) : Bool := bitB d[0] 17
def dOrd (d : DWords) : Bool := bitB d[0] 18
def dCtr (d : DWords) : Nat := fieldN d[0] 20 12
def dWctr (d : DWords) : Nat := fieldN d[0] 32 12
def dWthr (d : DWords) : Nat := fieldN d[0] 48 16

/-- Bytes per row, rows and planes as the shape uses them (R266, R267). -/
def dLen (d : DWords) : Nat :=
  if dKind d = 3 then 8
  else
    let l := fieldN d[3] 0 32
    if dDims d = 0 ∧ l = 0 then 2 ^ 32 else l
def dN1 (d : DWords) : Nat := if dKind d = 3 ∨ dDims d = 0 then 1 else fieldN d[3] 32 16
def dN2 (d : DWords) : Nat := if dKind d = 3 ∨ dDims d ≠ 2 then 1 else fieldN d[3] 48 16

/-- Strides of a side. -/
def dStr1 (d : DWords) (dst : Bool) : Int := if dDims d = 0 then 0 else signedN 32 (fieldN d[4] (if dst then 32 else 0) 32)
def dStr2 (d : DWords) (dst : Bool) : Int := if dDims d ≠ 2 then 0 else signedN 32 (fieldN d[5] (if dst then 32 else 0) 32)

/-- Bytes of the whole shape. -/
def dTotal (d : DWords) : Nat := dLen d * dN1 d * dN2 d

/-- Address mode, base and wrapping modulus of a side: virtual addresses have 56 bits. -/
def dMode (d : DWords) (dst : Bool) : Nat := if dst then dDmode d else dSmode d
def dBase (d : DWords) (dst : Bool) : Nat := if dst then d[2].toNat else d[1].toNat
def dWrap (d : DWords) (dst : Bool) : Nat := if dMode d dst = 0 then 2 ^ 56 else 2 ^ 64

/-- Address of byte j of row k (row k is row k mod N1 of plane k div N1) on a side (R266). -/
def dAddr (d : DWords) (dst : Bool) (k j : Nat) : Nat :=
  (((dBase d dst : Int) + (k / dN1 d : Nat) * dStr2 d dst + (k % dN1 d : Nat) * dStr1 d dst + j) % ((dWrap d dst : Nat) : Int)).toNat

/-- The rows of the shape on a side. -/
def dRows (d : DWords) (dst : Bool) : List (Nat × Nat) :=
  if dLen d = 0 then [] else (List.range (dN1 d * dN2 d)).map (fun k => (dAddr d dst k 0, dLen d))

/-- Whether a descriptor has an endpoint on a side: only COPY has a source (R267). -/
def dHas (d : DWords) (dst : Bool) : Bool := dst || dKind d == 1

/-- The hull of the shape on a side as integers: lowest byte and the byte after the highest. -/
def dHull (d : DWords) (dst : Bool) : Int × Int :=
  let a : Int := (dN2 d - 1 : Nat) * dStr2 d dst
  let b : Int := (dN1 d - 1 : Nat) * dStr1 d dst
  ((dBase d dst : Int) + min 0 a + min 0 b, (dBase d dst : Int) + max 0 a + max 0 b + dLen d)

/-- First offset past what an own-well endpoint of a ring may name (R171, R268). -/
def ownLimit (drlim : BitVec 12) (ring : BitVec 2) : Nat :=
  if ring = 0 then 0x720000 else if ring = 1 then 0x71FE00 else min (drlim.toNat * 0x1000) 0x71FE00

/-- Reserved fields and codes (R265, R267). -/
def dReserved (d : DWords) : Bool :=
  let k := dKind d
  decide (k = 0 ∨ 4 < k ∨ dDims d = 3 ∨ dSmode d = 3 ∨ dDmode d = 3 ∨ dSrcTag d = 3 ∨ 1 < dDstTag d) ||
    bitB d[0] 19 || fieldN d[0] 44 4 != 0 || d[6] != 0 || d[7] != 0 ||
    (k == 3 && (fieldN d[3] 4 28 != 0 || (aopOf (fieldN d[3] 0 4)).isNone || fieldN d[5] 24 39 != 0))

/-- What R266 and R267 ask of the fields of a shape. -/
def dShapeBad (d : DWords) : Bool :=
  let k := dKind d
  let n1 := fieldN d[3] 32 16
  let n2 := fieldN d[3] 48 16
  (match dDims d with
    | 0 => n1 != 0 || n2 != 0 || (k != 3 && (d[4] != 0 || d[5] != 0))
    | 1 => n1 == 0 || n2 != 0 || d[5] != 0
    | _ => n1 == 0 || n2 == 0) ||
    decide (2 ^ 32 < dTotal d) ||
    (k == 2 && (dSmode d != 0 || dSrcTag d != 0)) ||
    (k == 3 && (dDims d != 0 || dDstTag d != 0 || dSmode d != 0 || fieldN d[2] 0 3 != 0 || fieldN d[5] 0 3 != 0)) ||
    (k == 4 && (dDims d != 0 || fieldN d[2] 0 8 != 0 || fieldN d[3] 0 8 != 0))

/-- What R268 and R271's features ask of an endpoint for a ring. -/
def dAddrBad (d : DWords) (dst : Bool) (ring : BitVec 2) (drlim : BitVec 12) : Bool :=
  dHas d dst && (match dMode d dst with
    | 0 => decide (2 ^ 56 ≤ dBase d dst)
    | 1 => decide (0 < dTotal d) && decide ((dHull d dst).1 < 0 ∨ (ownLimit drlim ring : Int) < (dHull d dst).2)
    | _ => ring != 0)

/-- Whether an ATOMIC's RET is a place in data RAM that the ring may write. -/
def dRetBad (d : DWords) (ring : BitVec 2) (drlim : BitVec 12) : Bool :=
  dKind d == 3 && bitB d[5] 63 && decide (fieldN d[5] 0 24 < 0x700000 ∨ ownLimit drlim ring < fieldN d[5] 0 24 + 8)

/-- The checks of R271 on a descriptor's contents; true refuses it. -/
def dRefused (d : DWords) (ring : BitVec 2) (drlim : BitVec 12) (count : BitVec 13) : Bool :=
  dReserved d || dShapeBad d || dAddrBad d false ring drlim || dAddrBad d true ring drlim || dRetBad d ring drlim ||
    (dUrgent d && decide (1 < ring.toNat)) || (dTrig d && decide (count.toNat ≤ dCtr d)) ||
    (dWaitc d && (decide (count.toNat ≤ dWctr d) || dWthr d == 0))

/-- Byte ranges cut at 64 MiB granules. -/
def cutGranules (a n : Nat) : List (Nat × Nat) :=
  if n = 0 then []
  else (List.range ((a + n - 1) / 2 ^ 26 - a / 2 ^ 26 + 1)).map (fun i =>
    let lo := max a ((a / 2 ^ 26 + i) * 2 ^ 26)
    let hi := min (a + n) ((a / 2 ^ 26 + i + 1) * 2 ^ 26)
    (lo, hi - lo))

/-- Virtual pieces of an endpoint, none of which crosses a granule. -/
def dPieces (d : DWords) (dst : Bool) : List (Nat × Nat) :=
  (dRows d dst).flatMap (fun r => (cutGranules r.1 r.2).map (fun c => (c.1 % 2 ^ 56, c.2)))

/-- Rights that an endpoint needs (R281). -/
def dNeed (d : DWords) (dst : Bool) : BitVec 3 := if !dst then rightR else if dKind d = 3 then rightA else rightW

/-- What looking up a page answers: its translation, the failure of the walk, or a walk of the granule that is in flight. -/
inductive PageRes where
  | found (e : TlbEntry) | fails (ftype : BitVec 3) (level : BitVec 2) | inFlight

/-- A page looked up, as hand-over in scoreboard mode does for every page (R245). A granule with an open record fails without a walk,
whatever is cached (R286); a walk in flight is waited for (R282). -/
def resolvePage (f : FrontId) (who : Requester) (asid : BitVec 16) (va : BitVec 56) (need : BitVec 3) (s : State) : PageRes × State :=
  let x := s.fronts[f]
  let same (y : Walk) : Bool := y.asid == asid && granuleOf y.va == granuleOf va
  let walk : PageRes × State :=
    if x.walks.any same then
      (.inFlight, s.modFront f (fun x => { x with walks := x.walks.map (fun y =>
        if same y && !y.reqs.any (fun q => q.1 == who) then { y with reqs := y.reqs ++ [(who, need)] } else y) }))
    else
      let r := walkTable f asid va s
      match r.1 with
      | .fail ft lv => (.fails ft lv, r.2)
      | .leaf big frame rights lv =>
        let e : TlbEntry := { asid := asid, big := big, page := pageOf big va, frame := frame, rights := rights }
        if rightsHold rights need then (.found e, tlbPut f e r.2) else (.fails 2 lv, r.2)
  if (recordFor x asid va).isSome then (.fails 1 0, s)
  else match tlbFind x asid va with
  | some e => if rightsHold e.rights need then (.found e, tlbPut f e s) else walk
  | none => walk

/-- Global address of a virtual address under a translation. -/
def TlbEntry.addr (e : TlbEntry) (va : Nat) : Nat := e.frame + va % (if e.big then 2 ^ 32 else 2 ^ 26)

/-- What resolving an endpoint found: the global ranges, the first failure or the wait for a walk in flight, the first page's
translation. -/
structure Resolved where
  ranges : List (Nat × Nat)
  bad    : Option (BitVec 56 × BitVec 3 × BitVec 2)
  wait   : Bool
  first  : Option TlbEntry

/-- An endpoint of which nothing has been looked up. -/
def Resolved.start : Resolved := { ranges := [], bad := none, wait := false, first := none }

/-- Every page of a virtual endpoint resolved in byte order (R245). -/
def resolveEnd (p : PumpId) (d : DWords) (dst : Bool) (asid : BitVec 16) (s : State) : Resolved × State :=
  (dPieces d dst).foldl (fun (a : Resolved × State) c =>
    if a.1.bad.isSome || a.1.wait then a
    else
      let va := BitVec.ofNat 56 c.1
      let r := resolvePage (frontOfPump p) (.pump p s.pumps[p].nextSeq dst false) asid va (dNeed d dst) a.2
      match r.1 with
      | .found e => ({ a.1 with ranges := a.1.ranges ++ [(e.addr c.1, c.2)], first := some (a.1.first.getD e) }, r.2)
      | .fails ft lv => ({ a.1 with bad := some (va, ft, lv) }, r.2)
      | .inFlight => ({ a.1 with wait := true }, r.2)) (Resolved.start, s)

/-- The parts of global ranges that lie in a well's own stores, as store offsets. -/
def ownRanges (s : State) (w : WellId) (rs : List (Nat × Nat)) : List (Nat × Nat) :=
  let lo := s.devId.toNat * 2 ^ 44 + wellAddr w 0
  rs.filterMap (fun r =>
    let a := max r.1 lo
    let b := min (r.1 + r.2) (lo + 0x700000)
    if a < b then some (a - lo, b - a) else none)

/-- Global ranges of an endpoint that is not translated. -/
def plainRanges (s : State) (w : WellId) (d : DWords) (dst : Bool) : List (Nat × Nat) :=
  if dMode d dst = 1 then (dRows d dst).map (fun r => (s.devId.toNat * 2 ^ 44 + wellAddr w r.1, r.2)) else dRows d dst

/-- Range entries of an endpoint of a well Pump's descriptor (R245): one for each of the well's own stores. -/
def endSpans (s : State) (w : WellId) (rs : List (Nat × Nat)) (write : Bool) : List Span :=
  hullSpans ((ownRanges s w rs).flatMap (fun r =>
    -- a range that spans two stores is cut at their borders
    [(0, 0x300000), (0x300000, 0x500000), (0x500000, 0x700000)].filterMap (fun b =>
      let lo := max r.1 b.1
      let hi := min (r.1 + r.2) b.2
      if lo < hi then some (lo, hi - lo) else none))) write

/-- A queue entry as hand-over makes it; counters become absolute (R112). -/
def mkDesc (m : Millrace) (d : DWords) (seq : BitVec 32) (asid : BitVec 16) (ring : BitVec 2) : Desc :=
  { words := d, seq := seq, asid := asid, ring := ring, ctr := m.trigBase + BitVec.ofNat 12 (dCtr d),
    wctr := m.trigBase + BitVec.ofNat 12 (dWctr d), rsrc := if dHas d false && dMode d false == 0 then 0 else untranslated,
    rdst := if dMode d true = 0 then 0 else untranslated, vpS := 0, vpD := 0, started := false, pos := 0, err := none, heldS := none, heldD := none,
    walkS := false, walkD := false, aheadS := false, aheadD := false, waitCut := false, waiting := false, remote := 0, spans := [] }

/-- Queueing a descriptor under the next submission number. -/
def enqueue (p : PumpId) (d : Desc) (s : State) : State :=
  s.modPump p (fun x => { x with queue := x.queue ++ [d], nextSeq := x.nextSeq + 1, abortHand := false })

/-- Whether an endpoint is virtual, whether it is held, whether it has asked for a translation. -/
def dVirtual (d : Desc) (dst : Bool) : Bool := dHas d.words dst && dMode d.words dst == 0
def Desc.heldAt (d : Desc) (dst : Bool) : Option (FrontId × Fin 64) := if dst then d.heldD else d.heldS
def Desc.asking (d : Desc) (dst : Bool) : Bool := (if dst then d.walkD else d.walkS) || (d.heldAt dst).isSome

/-- The front end is asked for the page of a virtual endpoint's next byte (R283, R284). -/
def askPage (p : PumpId) (d : Desc) (dst : Bool) (s : State) : State :=
  if dVirtual d dst then
    let k := d.pos / max 1 (dLen d.words)
    let j := d.pos % max 1 (dLen d.words)
    requestXlate (frontOfPump p) (.pump p d.seq dst false) d.asid (BitVec.ofNat 56 (dAddr d.words dst k j)) (dNeed d.words dst) s
  else s

/-- The front end is asked for the page of the first byte of each virtual endpoint (R283). -/
def askFirst (p : PumpId) (d : Desc) (s : State) : State := askPage p d true (askPage p d false s)

/-- Whether an invalidation that the well issued has not reached its cut (R290). -/
def cutPending (s : State) (w : WellId) : Bool := s.invals.any (fun v => v.well == some w && !v.cut)

/-- Hand-over in tag service (R272, R283, R290): the entry joins the queue and asks for its first pages, at once or after the
cut of an earlier `inv.as`. -/
def handOver (w : WellId) (p : PumpId) (d : DWords) (asid : BitVec 16) (ring : BitVec 2) (s : State) : State :=
  let e := mkDesc s.wells[w].mr d s.pumps[p].nextSeq asid ring
  if cutPending s w then enqueue p { e with waitCut := true } s
  else askFirst p e (enqueue p e s)

/-- Whether the requester is held or waits already at the granule's record. -/
def alreadyHeld (s : State) (f : FrontId) (r : Requester) (asid : BitVec 16) (va : BitVec 56) : Bool :=
  let x := s.fronts[f]
  (match recordFor x asid va with
    | some k => (match x.records[k] with | some c => c.held.any (fun h => h.1 == r) | none => false)
    | none => false) || x.waiters.any (fun q => q.1 == r)

/-- What hand-over in scoreboard mode answers (R245, R246): handed over, or why `pump.sub` waits. -/
def handOverSb (w : WellId) (p : PumpId) (d : DWords) (asid : BitVec 16) (ring : BitVec 2) (s : State) : Option Stall × State :=
  let f := frontOfPump p
  let x := s.pumps[p]
  let e := mkDesc s.wells[w].mr d x.nextSeq asid ring
  if x.abortHand && decide ((s.cpu w).stall = some .pumpResolve) then (none, enqueue p { e with err := some 0x0A } s)
  else if cutPending s w then (some .pumpResolve, s)
  else
    let res (dst : Bool) (s : State) : Resolved × State :=
      if !dHas d dst then (Resolved.start, s)
      else if dMode d dst = 0 then resolveEnd p d dst asid s
      else ({ Resolved.start with ranges := plainRanges s w d dst }, s)
    let fail (dst : Bool) (b : BitVec 56 × BitVec 3 × BitVec 2) (s : State) : State :=
      let r : Requester := .pump p x.nextSeq dst false
      let s := s.modPump p (fun x => { x with abortHand := false })
      if alreadyHeld s f r asid b.1 then s else recordFault f r asid b.1 (dNeed d dst) b.2.1 b.2.2 s
    let a := res false s
    match a.1.bad with
    | some b => (some .pumpResolve, fail false b a.2)
    | none =>
      let c := res true a.2
      match c.1.bad with
      | some b => (some .pumpResolve, fail true b c.2)
      | none =>
        if a.1.wait || c.1.wait then (some .pumpResolve, c.2) else
        let sps := endSpans c.2 w a.1.ranges false ++ endSpans c.2 w c.1.ranges true
        if !entriesFree c.2 w sps then (some .scoreboard, c.2)
        else
          let word (t : Option TlbEntry) (old : W64) : W64 := match t with | some t => resolvedWord t.big t.frame t.rights | none => old
          let e := { e with rsrc := word a.1.first e.rsrc, rdst := word c.1.first e.rdst, vpS := (a.1.first.map (·.page)).getD 0,
                            vpD := (c.1.first.map (·.page)).getD 0, spans := sps }
          (none, notePeak w (enqueue p e c.2))

/-- A trigger counter satisfies a wait for at least n; a saturated one satisfies none (R273, R278, R377). -/
def counterAtLeast (s : State) (k : BitVec 12) (n : Nat) : Bool := !s.counters[k.toFin].sat && decide (n ≤ s.counters[k.toFin].value.toNat)

/-- Capacity of a Pump's queue (R264). -/
def queueCap (p : PumpId) : Nat := if p.val < 256 then 16 else 64

/-- Submission with its checks passed (R272): the wait for queue space, then hand-over. -/
def submit (w : WellId) (p : PumpId) (d : DWords) (s : State) : Option Stall × State :=
  let c := s.cpu w
  if queueCap p ≤ s.pumps[p].queue.length then (some .pumpQueueFull, s)
  else if s.wells[w].st.scoreboard then handOverSb w p d c.wasid c.eff.ring s
  else (none, handOver w p d c.wasid c.eff.ring s)

/-! The ends of a descriptor. -/

/-- The issuing descriptor meets an error (R277): nothing further issues for it, and it waits for no slot. Its claims last until it
completes (R240). -/
def failDesc (p : PumpId) (seq : BitVec 32) (st : BitVec 8) (s : State) : State :=
  let s := modDesc p seq (fun x => { x with err := some (x.err.getD st), waiting := false }) s
  { s with wells := s.wells.map (fun u => if u.st.waiters.any (fun x => x.agent == .pump p seq) then
      { u with st := { u.st with waiters := u.st.waiters.filter (fun x => x.agent != .pump p seq) } } else u) }

/-- PUMP_DONE0 or PUMP_DONE1 of the Pump's well (R226, R276). -/
def pumpDone (p : PumpId) (s : State) : State :=
  match wellOfPump p with
  | some w => raiseLine w (7 + p.val % 2) s
  | none => s

/-- Who counts as the source of a Pump's increment (R276, R375). -/
def endOk (p : PumpId) (d : Desc) (s : State) : State :=
  let s := s.modPump p (fun x => { x with queue := x.queue.tail, doneSeq := d.seq })
  let s := if dTrig d.words then { s with inflight := s.inflight ++ [InFlight.inc (.pump p) d.ctr 1] } else s
  if dIrq d.words then pumpDone p s else s

/-- Status codes of the Replay class (R277). -/
def replayStatus (e : BitVec 8) : Bool := e == 0x04 || e == 0x08 || e == 0x09 || e == 0x0E

/-- The PUMP_STATUS event (R488): the Pump's unit and the status, the submission, the stage, the reach. -/
def pumpEvent (p : PumpId) (d : Desc) (e : BitVec 8) (s : State) : State :=
  let job := match wellOfPump p with | some w => s.jobOfWell w | none => 0xFFFF
  let reach := match wellOfPump p with | some w => s.reachOfWell w | none => 0
  s.event 0x07 job [putN 16 e.toNat ||| (pumpUnit p).setWidth 64, d.seq.setWidth 64, s.stageNumber, reach]

/-- A user that has ended asks nothing of the weirs any more. -/
def dropWeirs (u : WeirUser) (s : State) : State :=
  if s.basinMode = 0 then s
  else { s with weirs := s.weirs.map (fun w =>
    { w with queue := w.queue.filter (fun q => q.1 != u), granted := w.granted.filter (· != u) }) }

/-- A descriptor at the head completes with an error status (R277, R291): the error is recorded, the line is raised whatever IRQ
says, a Replay-class status is reported to the fault pair and a Program-class one to the host. -/
def endBad (p : PumpId) (d : Desc) (e : BitVec 8) (s : State) : State :=
  let s := dropWeirs (.pump p d.seq) (releaseEverywhere (.pump p d.seq) s)
  let s := s.modPump p (fun x => { x with
    queue := x.queue.tail
    doneSeq := d.seq
    nerr := stick 16 x.nerr
    errStatus := if x.errValid then x.errStatus else e
    errSeq := if x.errValid then x.errSeq else d.seq
    errValid := true })
  let s := pumpDone p s
  if e = 0x0D then s
  else if replayStatus e then s.report (pumpUnit p) 0x05 (putN 32 e.toNat ||| d.seq.setWidth 64)
  else pumpEvent p d e s

/-- DROP (R291): every descriptor that has met no error ends with ABORTED; none issues further. -/
def dropQueue (p : PumpId) (s : State) : State :=
  s.modPump p (fun x => { x with queue := x.queue.map (fun d => (d.stopXlate).fail 0x0D) })

/-- An admitted invalidation (R290). -/
def admitInval (asid : BitVec 16) (ctr : Option (BitVec 12)) (w : Option WellId) (s : State) : State :=
  { s with invals := s.invals ++ [{ asid := asid, ctr := ctr, well := w, cut := false, tags := [] }] }

/-- Tags of an ASID's remote accesses that are outstanding. -/
def asidTags (asid : BitVec 16) (s : State) : List (BitVec 12) :=
  (s.far.remote.filter (fun q => s.pumps[q.pump].queue.any (fun d => d.seq == q.seq && d.asid == asid))).map (·.tag)

/-- A queued descriptor of the ASID translates again (R290): its resolved pages go, and each endpoint that is neither held nor asking
asks anew. -/
def retranslate (p : PumpId) (asid : BitVec 16) (s : State) : State :=
  let hit (d : Desc) : Bool := d.asid == asid && !d.waitCut && d.err.isNone
  let wipe (d : Desc) : Desc := if hit d then
    { d with rsrc := if dVirtual d false then 0 else d.rsrc, rdst := if dVirtual d true then 0 else d.rdst, aheadS := false, aheadD := false } else d
  let s := s.modPump p (fun x => { x with queue := x.queue.map wipe })
  (s.pumps[p].queue.filter (fun d => hit d && !(d.started && decide (dTotal d.words ≤ d.pos)))).foldl (fun s d =>
    let ask (dst : Bool) (s : State) : State := if d.asking dst then s else askPage p d dst s
    ask true (ask false s)) s

/-- Descriptors whose hand-over waited for the cut go to the front end, once no earlier invalidation of their Windlass is
before its cut (R290). -/
def releaseCut (p : PumpId) (s : State) : State :=
  let go := match wellOfPump p with | some w => !cutPending s w | none => true
  if !go then s
  else
    let ds := s.pumps[p].queue.filter (·.waitCut)
    let s := s.modPump p (fun x => { x with queue := x.queue.map (fun d => { d with waitCut := false }) })
    ds.foldl (fun s d => if d.err.isNone then askFirst p d s else s) s

/-- Every Pump in order. -/
def allPumps : List PumpId := List.ofFn (fun (i : Fin 272) => i)

/-- The cut of the oldest invalidation that has not reached it (R290). -/
def cutInval (s : State) : State :=
  match s.invals.find? (fun v => !v.cut) with
  | none => s
  | some v =>
    let tags := asidTags v.asid s
    let s := { s with
      invals := (s.invals.takeWhile (·.cut)) ++ { v with cut := true, tags := tags } :: (s.invals.dropWhile (·.cut)).tail
      fronts := s.fronts.map (cutFront v.asid)
      wells := s.wells.map (fun u => { u with cpu := { u.cpu with icache := u.cpu.icache.filter (fun l => l.asid != v.asid) } }) }
    let s := allPumps.foldl (fun (s : State) p => if s.pumps[p].queue.isEmpty then s else retranslate p v.asid s) s
    allPumps.foldl (fun (s : State) p => if s.pumps[p].queue.isEmpty then s else releaseCut p s) s

end Sys2Proof.Machine
end

