-- ==== Sys2Proof/Machine/Issue.lean ====
section
/-! DEFINITION. How the Windlass issues one instruction word: windows, faults in their order, holds and completion
(R158-R185, R212). Each CPU row of the table is one use of `issue`. -/

namespace Sys2Proof.Machine

/-- CLASS, OPCODE and register fields of an instruction word (R158). -/
def wClass (i : W64) : Nat := fieldN i 60 4
def wOp (i : W64) : Nat := fieldN i 50 10
def wDest (i : W64) : Fin 32 := reg5 i 45
def wS1 (i : W64) : Fin 32 := reg5 i 40
def wS2 (i : W64) : Fin 32 := reg5 i 35
def wS3 (i : W64) : Fin 32 := reg5 i 30
/-- imm[lo + n - 1 : lo]. -/
def immN (i : W64) (lo n : Nat) : Nat := fieldN i lo n
/-- sext(imm[19:0]) as a 64-bit value. -/
def imm20 (i : W64) : W64 := (i.extractLsb' 0 20).signExtend 64
/-- sext(imm[29:0]) as a 64-bit value. -/
def imm30 (i : W64) : W64 := (i.extractLsb' 0 30).signExtend 64
/-- A q register named by a field; bit 4 must be zero (R160). -/
def qOk (n : Fin 32) : Bool := decide (n.val < 16)
def qReg (n : Fin 32) : Fin 16 := Fin.ofNat 16 n.val

/-- What the body of an instruction answers. -/
inductive CpuRes where
  /-- Complete; the pc goes on by 8. -/
  | done (s : State)
  /-- Complete; the pc is the target and a WASID write takes effect (R181). -/
  | jump (s : State) (target : BitVec 56)
  /-- A precise synchronous fault; s carries what took effect before it. -/
  | fault (code : BitVec 8) (info : W64) (s : State)
  /-- The instruction waits at issue and is sent again. -/
  | wait (why : Stall) (s : State)
  /-- The body has set the pc itself (`trap`, `rete`, `retg`). -/
  | leave (s : State)

/-- The hold of R250: while PEND = 1 the memory instructions of CLASS 0x6, the queued instructions of CLASS 0x7 and every instruction of
CLASS 0x8 wait at issue. -/
def holdPend (w : WellId) (s : State) (body : CpuRes) : CpuRes := if s.wells[w].st.pend then .wait .wsModePend s else body

/-- OPCODE values that the spec gives each CLASS (R159). -/
def opcodeKnown (cls op : Nat) : Bool :=
  let within (l : List (Nat × Nat)) : Bool := l.any (fun r => decide (r.1 ≤ op ∧ op ≤ r.2))
  match cls with
  | 0 => within [(0x001, 0x006), (0x008, 0x00A), (0x010, 0x015), (0x018, 0x01C), (0x020, 0x022), (0x024, 0x027), (0x030, 0x031)]
  | 1 => within [(0x001, 0x008), (0x011, 0x014), (0x018, 0x018)]
  | 2 => within [(0x001, 0x001), (0x010, 0x012)]
  | 3 => within [(0x001, 0x004), (0x008, 0x00B), (0x010, 0x012), (0x018, 0x019)]
  | 4 => within [(0x001, 0x00D), (0x010, 0x01A), (0x020, 0x025)]
  | 5 => within [(0x001, 0x001), (0x010, 0x01C), (0x020, 0x022), (0x030, 0x031), (0x040, 0x04E), (0x050, 0x052), (0x060, 0x064),
      (0x070, 0x07A), (0x080, 0x082)]
  | 6 => within [(0x001, 0x006), (0x008, 0x009), (0x010, 0x016), (0x020, 0x020)]
  | 7 => within [(0x001, 0x008), (0x010, 0x014)]
  | 8 => within [(0x001, 0x002), (0x020, 0x020), (0x030, 0x032), (0x040, 0x045)]
  | _ => false

/-- A row of the table as the instruction words it covers: its mnemonic, CLASS and first and last OPCODE, and which of
those words use their fields as the spec allows (R159). -/
structure Row where
  mnemonic : String
  cls : Nat
  lo  : Nat
  hi  : Nat
  legal : W64 → Bool

/-- Whether a word is one of the row's. -/
def Row.covers (r : Row) (i : W64) : Bool := decide (wClass i = r.cls ∧ r.lo ≤ wOp i ∧ wOp i ≤ r.hi)

/-- What an instruction reads and writes among the registers that can be late or bad, and whether it opens a window
(R164, R176, R140). -/
structure Uses where
  reads  : List RegRef
  writes : List RegRef
  opens  : Bool

/-- An instruction that uses no such register. -/
def Uses.none : Uses := { reads := [], writes := [], opens := false }

/-- g references in the bank in use; g0 is never late or bad. -/
def gRefs (c : Windlass) (l : List (Fin 32)) : List RegRef := (l.filter (· != 0)).map (fun n => .g c.eff.bank n)

/-- Whether an interrupt would be takeable but for open windows (R176, R227). -/
def interruptDue (c : Windlass) : Bool := decide (c.exc.ipend &&& c.exc.ienable ≠ 0) && c.eff.ie

/-- Whether a load or mode-change window is open. -/
def windowOpen (c : Windlass) : Bool := !c.loads.isEmpty || !c.modeWins.isEmpty

/-- Whether the well's Windlass can issue at all: running, not wedged, its domain on (R19, R224, R249); after REG_PARITY only its ring-0
handler issues (R164). -/
def canIssue (w : WellId) (s : State) : Bool :=
  s.wellOn w && s.dieClocked && (s.cpu w).running && !(s.cpu w).wedged && (!(s.cpu w).parityStop || (s.cpu w).eff.ring == 0)

/-- Destinations of issued Flume instructions and `trig.get`s that have not been written (R140, R278). -/
def lateRefs (s : State) (w : WellId) : List RegRef :=
  ((s.wells[w].flume.window.filterMap (·.gdest)).map (fun d => RegRef.g d.1 d.2.1)) ++
    (s.cpu w).getPend.map (fun d => RegRef.g d.1 d.2)

/-- Register number that REG_PARITY reports (R197). -/
def RegRef.number : RegRef → Nat
  | .g _ n => n.val
  | .q n => n.val
  | .csr a => a.toNat
  | .v n => n.val
  | .m n => n.val

/-- An instruction that retires: INSTRET counts it and every open window counts it (R166, R174). -/
def retire1 (w : WellId) (pc : BitVec 56) (s : State) : State :=
  s.modCpu w (fun c => { (c.useLine c.fetchAsid c.pc).countWindows with pc := pc, stall := none, instret := countUp c.instret 1 })

/-- An instruction that a completed skip suppresses: no effect, not counted in INSTRET, counted by windows; a fetch fault of its word is
not raised (R180, R174). -/
def suppress (w : WellId) (s : State) : State :=
  s.modCpu w (fun c => { c.countWindows with pc := c.pc + 8, stall := none, skipNext := false, fetchFault := none })

/-- What the body's answer does to the machine (R174, R181, R213). -/
def conclude (w : WellId) (s0 : State) : CpuRes → State
  | .done s => retire1 w ((s0.cpu w).pc + 8) s
  | .jump s t => (retire1 w t s).modCpu w (fun c => { c with fetchAsid := c.wasid })
  | .fault code info s => takeException w code info s
  | .wait why s => s.modCpu w (fun c => { c with stall := some why })
  | .leave s =>
    let c0 := s0.cpu w
    s.modCpu w (fun c => { c.useLine c0.fetchAsid c0.pc with instret := countUp c.instret 1 })

/-- What precedes the body at an instruction boundary, in the order of R212: a due deferred fault, a due load whose data
is bad, a suppressing skip, a fetch fault, a line of the I-cache with bad parity (R190), an encoding that is reserved, a hold under R176, a register not yet written,
a register with bad parity. -/
def issueState (w : WellId) (i : W64) (row : Row) (uses : Windlass → Uses) (body : State → CpuRes) (s : State) : State :=
  match (s.cpu w).deferred with
  | f :: _ => takeDeferred w f s
  | [] =>
  match (s.cpu w).badDue with
  | some ea => takeException w 0x15 ea s
  | none =>
  let s := s.closeDue w
  let c := s.cpu w
  if c.skipNext then suppress w s
  else match c.fetchFault with
  | some f => takeException w f.code f.info (s.modCpu w (fun c => { c with fetchFault := none }))
  | none =>
    if c.lineBad then s.modCpu w (·.dropLine)
    else if !(row.covers i && row.legal i) then takeException w 0x01 i s
    else
      let u := uses c
      if u.opens && interruptDue c && windowOpen c then s.modCpu w (fun c => { c with stall := some .heldForInterrupt })
      else if u.reads.any (fun r => (lateRefs s w).contains r) then
        s.modCpu w (fun c => { c with stall := some .flumeWrite })
      else match u.reads.find? (fun r => c.badRegs.contains r) with
      | some r => takeException w 0x16 (w64 r.number) s
      | none => conclude w s (body s)

/-- ISSUING ONE INSTRUCTION. A word that another row covers is no command of this row. A Windlass that cannot issue
changes nothing. -/
def issue (w : WellId) (i : W64) (row : Row) (uses : Windlass → Uses) (body : State → CpuRes) (s : State) : Out :=
  if !row.covers i && opcodeKnown (wClass i) (wOp i) then .fault (.wrongRow row.mnemonic)
  else if !canIssue w s then .next s
  else .next (issueState w i row uses body s)

end Sys2Proof.Machine
end

