-- ==== Sys2Proof/Machine/Operands.lean ====
section
/-! DEFINITION. Operand forms and encodings of the Windlass classes 0x0-0x4 (R160, R168, R170, R180, R198). -/

namespace Sys2Proof.Machine

/-- Source fields an instruction leaves unused must be zero (R159). -/
def noS1 (i : W64) : Bool := wS1 i == 0
def noS2 (i : W64) : Bool := wS2 i == 0
def noS3 (i : W64) : Bool := wS3 i == 0
def noDest (i : W64) : Bool := wDest i == 0
/-- imm[lo + n - 1 : lo] is zero. -/
def immZero (i : W64) (lo n : Nat) : Bool := immN i lo n == 0

/-- Encoding of the two-operand scalar form (R168). -/
def aluLegal (i : W64) : Bool :=
  noS3 i && immZero i 20 9 && (if bitB i 29 then noS2 i else immZero i 0 20)

/-- Encoding of `clz`, `ctz`, `popc` (R168). -/
def countLegal (i : W64) : Bool := noS3 i && noS2 i && immZero i 0 30

/-- Encoding of `sext`, `zext` (R168). -/
def extLegal (i : W64) : Bool := noS3 i && noS2 i && immZero i 2 28 && immN i 0 2 != 3

/-- Operand 2 of the scalar form (R168). -/
def aluOp2 (c : Windlass) (i : W64) : W64 := if bitB i 29 then imm20 i else c.rd (wS2 i)

/-- Uses of the scalar forms. -/
def aluUses (i : W64) (c : Windlass) : Uses :=
  { reads := gRefs c (wS1 i :: if bitB i 29 then [] else [wS2 i]), writes := gRefs c [wDest i], opens := false }
def unaryUses (i : W64) (c : Windlass) : Uses :=
  { reads := gRefs c [wS1 i], writes := gRefs c [wDest i], opens := false }

/-- Writing gd in the bank in use. -/
def setG (w : WellId) (n : Fin 32) (v : W64) (s : State) : State := s.modWell w (fun u => u.gWrite u.cpu.eff.bank n v)

/-- Writing qd. -/
def setQ (w : WellId) (n : Fin 16) (v : BitVec 128) (s : State) : State := s.modCpu w (fun c => c.qSet n v)

end Sys2Proof.Machine
end

