-- ==== Sys2Proof/Machine/Millrace.lean ====
section
/-! DEFINITION. CLASS 0x7, the Millrace instructions, and the Millrace's own steps (R83-R124). -/

namespace Sys2Proof.Machine

/-- dest names a tile with bit 49 clear (R95). -/
def accOk (i : W64) : Bool := !bitB i 49

/-- The instruction's captured operands (R97). -/
def mrUses (i : W64) (srcs : List (Fin 32)) (c : Windlass) : Uses :=
  let _ := i
  { reads := gRefs c srcs, writes := [], opens := false }

/-- A Millrace fault at issue: EINFO is the instruction's own address (R117, R210). -/
def mrAtIssue (w : WellId) (code : BitVec 8) (s : State) : CpuRes := .fault code ((s.cpu w).pc.setWidth 64) s

/-- A queued Millrace instruction (R95, R98, R116, R196, R245, R250): at-issue faults, then the waits, then the queue. -/
def mrQueue (mn : String) (op : Nat) (legal : W64 → Bool) (srcs : W64 → List (Fin 32)) (w : WellId) (i : W64) (s : State) : Out :=
  issue w i { mnemonic := mn, cls := 7, lo := op, hi := op, legal := legal } (mrUses i (srcs i))
    (fun s => holdPend w s <|
      let u := s.wells[w]
      let c := u.cpu
      let src (k : Nat) : W64 := match (srcs i)[k]? with | some n => c.rd n | none => 0
      match mrIssueFault u.mr u.st i (src 0) (src 1) (src 2) with
      | some code => mrAtIssue w code s
      | none =>
        if 8 ≤ u.mr.queue.length then .wait .mrQueueFull s
        else
          let sps := mrSpans (modeAfter u.mr (mrTile i)) i (src 0) (src 1) (src 2)
          if !entriesFree s w sps then .wait .scoreboard s
          else
            let e : MrEntry :=
              { word := i, s1 := src 0, s2 := src 1, s3 := src 2, addr := c.pc,
                rm := BitVec.ofNat 3 (if op = 3 then resolveRm (fieldN i 24 3) c.eff.frm else 0), pass := 0,
                ctr := u.mr.trigBase + BitVec.ofNat 12 (fieldN i 11 12), flags := 0, fseq := u.flume.issued }
            .done (notePeak w ((s.drainAll w).modMr w (fun m => { m with queue := m.queue ++ [e] })))) s

/-- MCLR (R99). -/
def execMclr (w : WellId) (i : W64) (s : State) : Out :=
  mrQueue "MCLR" 0x001 (fun i => accOk i && noS2 i && noS3 i && immZero i 0 20) (fun i => [wS1 i]) w i s

/-- MMAC (R100). -/
def execMmac (w : WellId) (i : W64) (s : State) : Out :=
  mrQueue "MMAC" 0x002 (fun i => accOk i && immZero i 8 3) (fun i => [wS1 i, wS2 i, wS3 i]) w i s

/-- MFIN (R101). -/
def execMfin (w : WellId) (i : W64) (s : State) : Out :=
  mrQueue "MFIN" 0x003 (fun i => accOk i && noS2 i && noS3 i && immZero i 0 4 && decide (immN i 24 3 ≤ 4)) (fun i => [wS1 i]) w i s

/-- MCOMB (R102). -/
def execMcomb (w : WellId) (i : W64) (s : State) : Out :=
  mrQueue "MCOMB" 0x004 (fun i => accOk i && noS1 i && noS2 i && noS3 i && immZero i 24 6 && immZero i 4 7) (fun _ => []) w i s

/-- MTSAVE (R104). -/
def execMtsave (w : WellId) (i : W64) (s : State) : Out :=
  mrQueue "MTSAVE" 0x006 (fun i => accOk i && noS2 i && noS3 i && immZero i 0 30) (fun i => [wS1 i]) w i s

/-- MTLOAD (R104). -/
def execMtload (w : WellId) (i : W64) (s : State) : Out :=
  mrQueue "MTLOAD" 0x007 (fun i => accOk i && noS2 i && noS3 i && immZero i 0 30) (fun i => [wS1 i]) w i s

/-- MSTAT (R103). -/
def execMstat (w : WellId) (i : W64) (s : State) : Out :=
  issue w i { mnemonic := "MSTAT", cls := 7, lo := 5, hi := 5,
              legal := fun i => noS1 i && noS2 i && noS3 i && immZero i 8 22 &&
                (decide (immN i 4 4 < 8) || immN i 4 4 == 0xE || immN i 4 4 == 0xF) }
    (fun c => { reads := [], writes := gRefs c [wDest i], opens := false })
    (fun s =>
      let m := s.wells[w].mr
      let a := immN i 0 4
      let k := immN i 4 4
      let r := if k = 0xE then (progressWord m, s) else if k = 0xF then qpcRead w s else (sidebandAt m a k, s)
      .done (setG w (wDest i) r.1 r.2)) s

/-- Encoding of an instruction with no operand. -/
def bareLegal (i : W64) : Bool := noDest i && noS1 i && noS2 i && noS3 i && immZero i 0 30

/-- MFENCE (R105): completes when the queue is empty or frozen. -/
def execMfence (w : WellId) (i : W64) (s : State) : Out :=
  issue w i { mnemonic := "MFENCE", cls := 7, lo := 8, hi := 8, legal := bareLegal } (fun _ => Uses.none)
    (fun s => let m := s.wells[w].mr
      if m.queue.isEmpty || m.frozen then .done s else .wait .mfence s) s

/-- Instructions of rings 0 and 1 (R95): PRIVILEGED elsewhere. -/
def ringAtMost (w : WellId) (r : Nat) (i : W64) (s : State) (body : CpuRes) : CpuRes :=
  if r < (s.cpu w).eff.ring.toNat then .fault 0x02 i s else body

/-- MHALT (R119, R230): it waits while its stop request waits for the head's next stopping point. -/
def execMhalt (w : WellId) (i : W64) (s : State) : Out :=
  issue w i { mnemonic := "MHALT", cls := 7, lo := 0x10, hi := 0x10, legal := bareLegal } (fun _ => Uses.none)
    (fun s => ringAtMost w 1 i s (
      let s := s.modMr w (·.halt)
      if s.wells[w].mr.haltReq then .wait .mhalt s else .done s)) s

/-- MRESUME (R120). -/
def execMresume (w : WellId) (i : W64) (s : State) : Out :=
  issue w i { mnemonic := "MRESUME", cls := 7, lo := 0x11, hi := 0x11, legal := bareLegal } (fun _ => Uses.none)
    (fun s => ringAtMost w 1 i s (.done (s.modMr w (fun m => { m with frozen := false, reason := .none, fcode := 0 })))) s

/-- A pass that adds the rows below k (R115): the first row of the tile whose read finds an uncorrectable word, where the rows before it
stay, or none where the anchor or SC was about to change, which reads the whole tile; else the pass over those rows. -/
def addRows (w : WellId) (e : MrEntry) (d n k : Nat) (s : State) : Option Nat × State × BitVec 6 :=
  let a := mrTile e.word
  let t := s.wells[w].mr.tiles[Fin.ofNat 16 a]
  let h := tileHeight t.mode.toNat
  if t.st == .active && ueHit s.ue (wellAddr w (0x500000 + a * 0x20000)) (h * (128 * elemBytes (floatMode t.mode.toNat))) then
    let t1 := (runPass w e d n k s).1.wells[w].mr.tiles[Fin.ofNat 16 a]
    let all := (t.anchored && t1.anchor != t.anchor) || t1.sc != t.sc
    let q := tileEcc w t a 0 (if all then h else k) s
    match q.1 with
    | none => (none, runPass w e d n k q.2)
    | some b => (some b, if all || b == 0 then (q.2, 0) else runPass w e d n b q.2)
  else (none, runPass w e d n k (tileEcc w t a 0 k s).2)

/-- The first row, among those whose data the pass has read, that makes it re-anchor (R113). -/
def passNeed (w : WellId) (e : MrEntry) (d n : Nat) (s : State) : Option Nat :=
  let t := s.wells[w].mr.tiles[Fin.ofNat 16 (mrTile e.word)]
  let m := mrMode e.word
  if floatMode m then needRow (if t.anchored then some t.g else none) 0 ((List.range n).map ((loadPass e d n).top m)) else none

/-- The rows that a pass held by a wait has added (R93, R107, R113): those whose data it has read, none once it has found that it must
re-anchor. -/
def heldRows (w : WellId) (s : State) : Option (Option Nat × State × BitVec 6) :=
  let m := s.wells[w].mr
  match m.queue with
  | [] => none
  | e :: _ =>
    let n := rowsRead e m.loaded.length
    let d := ofBytes m.loaded
    if mrOp e.word != 2 || n == 0 || (passNeed w e d n s).isSome then none else some (addRows w e d n n s)

/-- The queue is emptied (R120): the tile of a pass that a wait holds keeps the rows already added (R93), nothing is frozen, and MR_IDLE
asserts where the queue was not empty. -/
def dropMr (w : WellId) (s : State) : State :=
  let was := s.wells[w].mr.queue
  let s := match heldRows w s with | some r => r.2.1 | none => s
  let s := s.modMr w (fun m => { m with
    queue := [], frozen := false, reason := .none, fcode := 0, loaded := [], ahead := [], inPass := false, finDone := 0, haltReq := false })
  let s := s.modSt w (fun t => t.releaseAll .millrace)
  if was.isEmpty then s else raiseLine w 9 s

/-- MDROP (R120). -/
def execMdrop (w : WellId) (i : W64) (s : State) : Out :=
  issue w i { mnemonic := "MDROP", cls := 7, lo := 0x12, hi := 0x12, legal := bareLegal } (fun _ => Uses.none)
    (fun s => ringAtMost w 1 i s (.done (dropMr w s))) s

/-- The eight words of a queue image's entry (R121). -/
def entryWords (e : MrEntry) : List W64 :=
  [e.word, e.s1, e.s2, e.s3, e.addr.setWidth 64, putN 0 e.rm.toNat ||| putN 8 e.pass.toNat ||| putN 16 e.ctr.toNat, 0, 0]

/-- The queue image (R121). -/
def queueImage (q : List MrEntry) : List W64 :=
  let ws := q.flatMap entryWords
  ws ++ List.replicate (64 - ws.length) 0

/-- One entry of a queue image: none when malformed, `some none` when empty (R120, R121). Which fields make an entry malformed is the
model's choice (log 180); fseq is the count of Flume instructions issued before it. -/
def entryOfImage (fseq : Nat) (ws : List W64) : Option (Option MrEntry) :=
  let g (k : Nat) : W64 := ws.getD k 0
  let i := g 0
  if i = 0 then (if ws.all (· == 0) then some none else none)
  else
    let op := wOp i
    let ok := wClass i == 7 && (op == 1 || op == 2 || op == 3 || op == 4 || op == 6 || op == 7) && accOk i &&
      fieldN (g 4) 56 8 == 0 && fieldN (g 4) 0 3 == 0 && fieldN (g 5) 3 5 == 0 && fieldN (g 5) 28 36 == 0 &&
      decide (fieldN (g 5) 0 3 ≤ 4) && g 6 == 0 && g 7 == 0
    if ok then some (some
      { word := i, s1 := g 1, s2 := g 2, s3 := g 3, addr := (g 4).setWidth 56,
        rm := (g 5).extractLsb' 0 3, pass := (g 5).extractLsb' 8 8, ctr := (g 5).extractLsb' 16 12, flags := 0, fseq := fseq })
    else none

/-- A queue image as entries: none when malformed, in particular when a non-empty entry follows an empty one. -/
def queueOfImage (fseq : Nat) (ws : List W64) : Option (List MrEntry) :=
  (List.range 8).foldr (fun k acc =>
    match acc, entryOfImage fseq ((ws.drop (8 * k)).take 8) with
    | some r, some (some e) => some (e :: r)
    | some [], some none => some []
    | _, _ => none) (some [])

/-- Whether an access with this span conflicts with a held range entry (R246). -/
def rangeHeld (s : State) (w : WellId) (sp : Span) : Bool := (heldEntries s w).any (fun e => spanConflict sp e.2)

/-- MQSAVE (R120, R121): the address is checked as a save address of R98. -/
def execMqsave (w : WellId) (i : W64) (s : State) : Out :=
  issue w i { mnemonic := "MQSAVE", cls := 7, lo := 0x13, hi := 0x13, legal := fun i => noDest i && noS2 i && noS3 i && immZero i 0 30 }
    (mrUses i [wS1 i])
    (fun s => ringAtMost w 1 i s (
      let v := (s.cpu w).rd (wS1 i)
      let o := fieldN v 0 24
      if resD v then mrAtIssue w 0x28 s
      else if o % 64 != 0 || decide (0x700000 < o + 512) || !banksOpen s.wells[w].st o 512 || hitsBusy s.wells[w].mr o 512 then
        mrAtIssue w 0x2A s
      else if rangeHeld s w (mkSpan o 512 true) then .wait .scoreboard s
      else .done ((s.drainAll w).writeWords (wellAddr w o) (queueImage s.wells[w].mr.queue)))) s

/-- MQLOAD (R120, R121): waits until the queue is frozen or empty. -/
def execMqload (w : WellId) (i : W64) (s : State) : Out :=
  issue w i { mnemonic := "MQLOAD", cls := 7, lo := 0x14, hi := 0x14, legal := fun i => noDest i && noS2 i && noS3 i && immZero i 0 30 }
    (mrUses i [wS1 i])
    (fun s => ringAtMost w 1 i s (
      let m := s.wells[w].mr
      let v := (s.cpu w).rd (wS1 i)
      let o := 0x300000 + fieldN v 0 21
      if resS v then mrAtIssue w 0x28 s
      else if o % 64 != 0 || decide (0x500000 < o + 512) || !banksOpen s.wells[w].st o 512 then mrAtIssue w 0x2A s
      else if !(m.queue.isEmpty || m.frozen) then .wait .mrQueueFull s
      else if rangeHeld s w (mkSpan o 512 false) then .wait .scoreboard s
      else
        let s := s.drainAll w
        let r := eccRead w 2 o 512 s
        match r.1 with
        | some bad => .fault 0x15 (w64 bad) r.2
        | none =>
          match queueOfImage s.wells[w].flume.issued (r.2.readWords (wellAddr w o) 64) with
          | none => mrAtIssue w 0x28 r.2
          | some q => .done (r.2.modMr w (fun m => { m with
            queue := q, frozen := true, reason := .halted, fcode := 0, loaded := [], ahead := [], inPass := false, finDone := 0,
            haltReq := false })))) s

/-- Whether a queued instruction's tile state lets it run (R100-R102, R115): POISON only for `mclr`. -/
def tileRunFault (m : Millrace) (e : MrEntry) : Option (BitVec 8) :=
  let t := m.tiles.getD (mrTile e.word) Tile.reset
  match mrOp e.word with
  | 1 => none
  | 2 =>
    if t.poison || t.st == .uninit || t.mode.toNat != mrMode e.word || t.ea != bitB e.word 25 || t.eb != bitB e.word 24 then some 0x29
    else if decide (2 ^ 33 - 1 < t.tpanels.toNat + panelsPerPass (mrMode e.word)) then some 0x2B
    else none
  | 3 => if t.poison || t.st == .uninit then some 0x29 else none
  | 4 =>
    let d := m.tiles.getD (fieldN e.word 0 4) Tile.reset
    if t.poison || d.poison || t.st == .uninit || d.st == .uninit || t.mode != d.mode || t.ea != d.ea || t.eb != d.eb ||
       t.ovfm != d.ovfm || mrTile e.word == fieldN e.word 0 4 then some 0x29
    else if d.st == .active && decide (2 ^ 33 - 1 < t.tpanels.toNat + d.tpanels.toNat) then some 0x2B
    else none
  | _ => if t.poison then some 0x29 else none

/-- The deferred fault with which an entry is refused as it starts: MR_TILE for a tile in a closed bank (R94); else what its tile's
state gives. -/
def tileFault (u : Well) (e : MrEntry) : Option (BitVec 8) :=
  if !tileBanksOpen u.st e.word then some 0x29 else tileRunFault u.mr e

/-- Whether a Flume memory instruction that issued before the entry is incomplete and its span meets [o, o + n) (R152). -/
def behindFlume (u : Well) (e : MrEntry) (o n : Nat) : Bool :=
  decide (0 < n) && u.flume.window.any (fun f => decide (f.seq < e.fseq) &&
    (match f.span with | some q => spanOverlap q (mkSpan o n false) | none => false))

/-- How far a run of operand reads gets. -/
inductive PieceStop where
  | done | held | tag (k : SlotId) | bad (row : Nat)
  deriving DecidableEq, Repr

/-- Operand reads in order (R107, R152, R251): each waits for the full tag of its slot, except in scoreboard mode, and for the Flume
instructions before the entry; the bytes read stay with the loader. -/
def readPieces (w : WellId) (e : MrEntry) : List Piece → State → PieceStop × List Byte × State
  | [], s => (.done, [], s)
  | x :: r, s =>
    let u := s.wells[w]
    let k := slotOf x.off
    if behindFlume u e x.off x.len then (.held, [], s)
    else if !u.st.scoreboard && !tagReady u.st .millrace .leaveFull k then (.tag k, [], s)
    else
      let q := eccRead w 2 x.off x.len (s.modSt w (fun t => t.release .millrace k))
      match q.1 with
      | some _ => (.bad x.row, [], q.2)
      | none =>
        let z := readPieces w e r q.2
        (z.1, q.2.readBytes (wellAddr w x.off) x.len ++ z.2.1, z.2.2)

/-- A wait of the Millrace on a slot (R240, R253). -/
def mrAwait (w : WellId) (u : TagUse) (k : SlotId) (s : State) : State :=
  (noteTagParity w [k] s).modSt w (fun t => t.await .millrace u k)

/-- The block that follows the one in use (R83, R106): the next pass's, or the first of the next instruction. -/
def nextBlock (m : Millrace) : Option (MrEntry × Nat) :=
  match m.queue with
  | [] => none
  | e :: q =>
    if e.pass.toNat + 1 < npassOf e.word then some (e, e.pass.toNat + 1)
    else match q with
    | n :: _ => if mrOp n.word = 2 then some (n, n.pass.toNat) else none
    | [] => none

/-- The loader reads the next block into the other weight buffer as far as it can (R83, R106). A bad word stops it there and is met again
by the pass that needs it. -/
def readAhead (w : WellId) (s : State) : State :=
  let m := s.wells[w].mr
  match nextBlock m with
  | none => s
  | some (e, p) =>
    let r := readPieces w e (afterBytes m.ahead.length (blockPieces e p)) s
    let s := r.2.2.modMr w (fun m => { m with ahead := m.ahead ++ r.2.1 })
    match r.1 with
    | .tag k => mrAwait w .leaveFull k s
    | _ => s

/-- Rows per group and the wc that a group takes (R84). -/
def rowGroup (m : Nat) : Nat × Nat :=
  if m ≤ 5 then (1, 1) else if m = 6 ∨ m = 7 then (1, 2) else if m = 8 then (1, 4) else if m = 9 then (1, 8) else if m = 0xA then (2, 9)
  else (8, 81)

/-- Rows accumulated when row r enters the array: those whose group entered at least 24 wc, the fill latency, before (R115, R124). -/
def rowsFilled (m r : Nat) : Nat :=
  let g := rowGroup m
  let at_ := r / g.1 * g.2
  if at_ < 24 then 0 else g.1 * ((at_ - 24) / g.2 + 1)

/-- The Millrace stops on a tile whose contents are lost (R115, R117): POISON, the place of the failure and the deferred fault. -/
def stopPass (w : WellId) (e : MrEntry) (code : BitVec 8) (row col : Nat) (s : State) : State :=
  mrFault w code ((poisonTile w (mrTile e.word) s).modMr w (fun m =>
    { m with badPass := e.pass, badRow := BitVec.ofNat 8 row, badCol := BitVec.ofNat 7 col }))

/-- A pass stopped with the rows below k accumulated (R113, R115); with none the tile is as it was but for POISON (log 173). n is the
number of rows whose tops have chosen the anchor. An EMPTY tile that takes rows becomes ACTIVE (DESIGN CHOICE, log 182). -/
def stopAfter (w : WellId) (e : MrEntry) (code : BitVec 8) (row col d n k : Nat) (s : State) : State :=
  if k = 0 then stopPass w e code row col s
  else
    let r := addRows w e d n k s
    match r.1 with
    | some b => stopPass w e 0x2D b 0 r.2.1
    | none => stopPass w e code row col r.2.1

/-- A residue mismatch at a row and column (R113, R115): the rows below it stay, at the anchor of the whole pass where the pass has
re-anchored for a row up to this one. -/
def residueStop (w : WellId) (e : MrEntry) (row col d n : Nat) (s : State) : State :=
  match passNeed w e d n s with
  | some g => if g ≤ row then stopAfter w e 0x2C row col d n row s else stopAfter w e 0x2C row col d row row s
  | none => stopAfter w e 0x2C row col d row row s

/-- An uncorrectable word in an operand of row b (R113, R115): the rows accumulated by then stay, none where the pass is in the prescan of
a re-anchor. was is the number of rows read before the last wait. -/
def operandStop (w : WellId) (e : MrEntry) (b was d : Nat) (s : State) : State :=
  if (passNeed w e d b s).isSome then stopPass w e 0x2D b 0 s
  else stopAfter w e 0x2D b 0 d b (min b (max was (rowsFilled (mrMode e.word) b))) s

/-- The end of a pass whose operands are read (R91, R100, R113): its rows are added, TPANELS counts its panels, and the instruction goes on
to its next pass or completes. -/
def endPass (w : WellId) (e : MrEntry) (d n : Nat) (s : State) : State :=
  let r := addRows w e d n n s
  match r.1 with
  | some b => stopPass w e 0x2D b 0 r.2.1
  | none =>
    let s := modTile w (mrTile e.word) (fun t =>
      { t with st := .active, tpanels := t.tpanels + BitVec.ofNat 34 (panelsPerPass (mrMode e.word)) }) r.2.1
    let e1 := { e with pass := e.pass + 1, flags := e.flags ||| (r.2.2 &&& (flFI ||| flNV)) }
    if e.pass.toNat + 1 = npassOf e.word then mrComplete w e e1.flags s
    else s.modMr w (fun m => Millrace.boundary { m with queue := e1 :: m.queue.tail })

/-- A pass that a wait holds (R93, R107): a bad word in a row of the tile that it has added to stops it. -/
def holdPass (w : WellId) (e : MrEntry) (s : State) : State :=
  match heldRows w s with
  | some (some b, r) => stopPass w e 0x2D b 0 r.1
  | _ => s

/-- MMAC_PASS (R100, R107, R113-R117): the Millrace goes on with one pass of the head `mmac`: it reads what its slots let it read, and runs
the pass when it has all its operands. upset is a residue mismatch found at a row and column that the pass has streamed (R115). -/
def execMmacPass (w : WellId) (upset : Option (Fin 256 × Fin 128)) (s : State) : Out :=
  let m := s.wells[w].mr
  .next <| match m.queue with
  | [] => s
  | e :: _ =>
    if m.frozen || mrOp e.word != 2 then s
    else match tileFault s.wells[w] e with
    | some code => mrFault w code s
    | none =>
      if (tileRanges (mrMode e.word) (mrTile e.word)).any (fun r => behindFlume s.wells[w] e r.1 r.2) then s
      else
        let r := readPieces w e (afterBytes m.loaded.length (passPieces e e.pass.toNat)) s
        let got := m.loaded ++ r.2.1
        let d := ofBytes got
        let s := r.2.2.modMr w (fun m => { m with loaded := got, inPass := true })
        let s := if blockBytes e ≤ got.length then readAhead w s else s
        let n := (opA (mrMode e.word) e.s1).rows
        let reach := match r.1 with | .done => n | .bad b => b | _ => rowsRead e got.length
        match upset.filter (fun u => decide (u.1.val < reach)) with
        | some u => residueStop w e u.1.val u.2.val d reach s
        | none =>
          match r.1 with
          | .held => holdPass w e s
          | .tag k => holdPass w e (mrAwait w .leaveFull k s)
          | .bad b => operandStop w e b (rowsRead e m.loaded.length) d s
          | .done => endPass w e d n s

/-- `mclr` runs (R91, R99). A preset bound whose lattice anchor lies below -32,768 wraps modulo 2^16 (DESIGN CHOICE, log 178). -/
def runMclr (w : WellId) (e : MrEntry) (s : State) : State :=
  let i := e.word
  let pre := bitB i 22
  let b : BitVec 16 := e.s1.extractLsb' 0 16
  let t : Tile :=
    { Tile.reset with
      st := .empty
      mode := i.extractLsb' 26 4
      ea := bitB i 25
      eb := bitB i 24
      ovfm := bitB i 23
      preset := pre
      anchored := pre
      anchor := if pre then BitVec.ofInt 16 (lattice (b.toInt + 7)) else 0
      pbound := if pre then b else 0 }
  mrComplete w e 0 (modTile w (mrTile i) (fun _ => t) s)

/-- The value and flags of one finished element, and whether the value written is special (R67-R69, R101). -/
def finishElem (w : WellId) (e : MrEntry) (a : Nat) (t : Tile) (s : State) (rc : Nat × Nat) : Nat × BitVec 6 × Bool :=
  let f := dfmtOf e.word
  let rm := e.rm.toNat
  let sat := bitB e.word 10
  let qs := signedN 6 (fieldN e.word 4 6)
  let acc := readAcc w t a rc.1 rc.2 s
  let k := 128 * rc.1 + rc.2
  let spec : Option FVal :=
    if !floatMode t.mode.toNat then none
    else if t.nan.getLsbD k || (t.posInf.getLsbD k && t.negInf.getLsbD k) then some (.nan true)
    else if t.posInf.getLsbD k then some (.inf false)
    else if t.negInf.getLsbD k then some (.inf true)
    else none
  let r : Nat × BitVec 6 := match spec with
    | some v => packF f rm sat v
    | none =>
      let x := packF f rm sat (FVal.ofInt acc ((if floatMode t.mode.toNat then t.g else (t.sc.toNat : Int)) - qs))
      (x.1, x.2 ||| flIf (floatMode t.mode.toNat && t.sticky) flNX)
  let isSpec := match (readF f r.1).1 with | .nan _ | .inf _ => true | _ => false
  (r.1, r.2, isSpec)

/-- The bytes of `mfin`'s results that lie in slot k are written, one access for each row (R235, R252). -/
def finSlot (w : WellId) (rows : List ((Nat × Nat) × List Byte)) (k : SlotId) (s : State) : State :=
  rows.foldl (fun s x =>
    let lo := max x.1.1 (512 * k.val)
    let hi := min (x.1.1 + x.1.2) (512 * k.val + 512)
    if lo < hi then s.writeBytes (wellAddr w lo) ((x.2.drop (lo - x.1.1)).take (hi - lo)) else s) s

/-- Destination slots in order (R101, R239): each is written when it is empty and unclaimed, and set full; answers the slot that is not
ready and how many were written. In scoreboard mode the tags stay out of it (R245). -/
def finSlots (w : WellId) (rows : List ((Nat × Nat) × List Byte)) : List SlotId → State → Option SlotId × Nat × State
  | [], s => (none, 0, s)
  | k :: r, s =>
    let st := s.wells[w].st
    if !st.scoreboard && !tagReady st .millrace .produce k then (some k, 0, s)
    else
      let s := finSlot w rows k s
      let z := finSlots w rows r (if st.scoreboard then s else s.modSt w (fun t => t.useSlot .millrace .produce k))
      (z.1, z.2.1 + 1, z.2.2)

/-- The flags, SPECIAL and MR_TFIRST that the finished elements leave in the tile (R69, R101, R109). -/
def finishFlags (cells : List ((Nat × Nat) × Nat × BitVec 6 × Bool)) (fl : BitVec 6) (t : Tile) : Tile :=
  let t := { t with fin := t.fin ||| (((fl >>> 3) &&& 1).setWidth 4 <<< 3) ||| (fl &&& 7).setWidth 4 }
  match cells.find? (fun c => c.2.2.2) with
  | none => t
  | some c => if t.fvalid then { t with special := true }
    else { t with special := true, fvalid := true, frow := BitVec.ofNat 8 c.1.1, fcol := BitVec.ofNat 7 c.1.2 }

/-- `mfin` runs (R101): slot by slot it waits for an empty destination slot, writes its results there and sets it full; when all are written
it sets its flags. A bad word in a row of the tile stops it after the slots that hold only rows below (R115, R116). -/
def runMfin (w : WellId) (e : MrEntry) (s : State) : State :=
  let a := mrTile e.word
  let t := s.wells[w].mr.tiles[Fin.ofNat 16 a]
  let x := opA t.mode.toNat e.s1
  let f := dfmtOf e.word
  let rngs := mfinWrites t.mode.toNat e.word e.s1
  let q := tileEcc w t a 0 x.rows s
  let s := q.2
  let n := match q.1 with | none => x.rows | some b => b
  let cells := (tileCells n).map (fun rc => (rc, finishElem w e a t s rc))
  let rows := (rngs.take n).zip ((List.range n).map (fun r => ((cells.drop (128 * r)).take 128).flatMap (fun c => toBytes (f.bits / 8) c.2.1)))
  let late := (rngs.drop n).flatMap (fun r => slotsOf r.1 r.2)
  let slots := (((rngs.take n).flatMap (fun r => slotsOf r.1 r.2)).eraseDups).filter (fun k => !late.contains k)
  let z := finSlots w rows (slots.drop s.wells[w].mr.finDone) s
  match z.1 with
  | some k => mrAwait w .produce k (z.2.2.modMr w (fun m => { m with inPass := true, finDone := m.finDone + z.2.1 }))
  | none =>
    match q.1 with
    | some b => stopPass w e 0x2D b 0 z.2.2
    | none =>
      let fl : BitVec 6 := cells.foldl (fun acc c => acc ||| c.2.2.1) 0
      mrComplete w e fl (modTile w a (finishFlags cells fl) z.2.2)

/-- `mcomb` runs (R102). With D EMPTY under a preset anchor and S without an anchor, D keeps its anchor; TPANELS of integer tiles is
added and limited as that of floating tiles (DESIGN CHOICE, log 181). -/
def runMcomb (w : WellId) (e : MrEntry) (s : State) : State :=
  let d := mrTile e.word
  let sN := fieldN e.word 0 4
  let tS := s.wells[w].mr.tiles[Fin.ofNat 16 sN]
  let tD := s.wells[w].mr.tiles[Fin.ofNat 16 d]
  let h := tileHeight tD.mode.toNat
  let qS := tileEcc w tS sN 0 h s
  let qD := tileEcc w tD d 0 h qS.2
  if tS.st = .empty then mrComplete w e 0 s
  else match qS.1, qD.1 with
  | some b, _ => stopPass w e 0x2D b 0 qS.2
  | none, some b => stopPass w e 0x2D b 0 qD.2
  | none, none =>
  let s := qD.2
  if floatMode tD.mode.toNat then
    let g := if tD.st = .empty || !tD.anchored then tS.g else if tS.anchored then max tD.g tS.g else tD.g
    let shD := if tD.st = .empty || !tD.anchored then 0 else (g - tD.g).toNat
    let shS := if tS.anchored then (g - tS.g).toNat else 0
    let s0 := emptyToZero w d tD s
    let r := (tileCells 64).foldl (fun (p : State × Bool) rc =>
      let x := readAcc w tD d rc.1 rc.2 p.1
      let y := readAcc w tS sN rc.1 rc.2 p.1
      let qx := truncShift x shD
      let qy := truncShift y shS
      if x = 0 ∧ y = 0 then p else
      (writeAcc w true d rc.1 rc.2 (qx + qy) p.1,
       p.2 || qx * ((2 ^ shD : Nat) : Int) != x || qy * ((2 ^ shS : Nat) : Int) != y)) (s0, false)
    let s1 := modTile w d (fun t => { t with
      st := .active, anchored := t.anchored || tS.anchored, anchor := if tS.anchored then BitVec.ofInt 16 g else t.anchor,
      sticky := t.sticky || tS.sticky || r.2, raLoss := t.raLoss || tS.raLoss || r.2, fi := t.fi || tS.fi,
      anv := t.anv || tS.anv, nan := t.nan ||| tS.nan, posInf := t.posInf ||| tS.posInf, negInf := t.negInf ||| tS.negInf,
      tpanels := t.tpanels + tS.tpanels }) r.1
    mrComplete w e 0 s1
  else
    let sc := max tD.sc.toNat tS.sc.toNat
    let s0 := emptyToZero w d tD s
    let vals := (tileCells 256).map (fun rc =>
      (rc, rneShift (readAcc w tD d rc.1 rc.2 s0) (sc - tD.sc.toNat) + rneShift (readAcc w tS sN rc.1 rc.2 s0) (sc - tS.sc.toNat)))
    let beyond := vals.any (fun v => !fitsI32 v.2)
    let halve := tD.ovfm && beyond && decide (sc < scLimit tD.mode.toNat)
    let s1 := vals.foldl (fun s v =>
      let x := if halve then rneShift v.2 1 else clampI32 v.2
      if x = 0 ∧ readAcc w { tD with st := .active } d v.1.1 v.1.2 s = 0 then s else writeAcc w false d v.1.1 v.1.2 x s) s0
    mrComplete w e 0 (modTile w d (fun t => { t with
      st := .active, sc := BitVec.ofNat 4 (if halve then sc + 1 else sc), tovf := t.tovf || tS.tovf || (beyond && !halve),
      tpanels := t.tpanels + tS.tpanels }) s1)

/-- `mtsave` runs (R104): the 4 KiB sideband image. -/
def runMtsave (w : WellId) (e : MrEntry) (s : State) : State :=
  mrComplete w e 0 (s.writeWords (wellAddr w (fieldN e.s1 0 24)) ((List.range 512).map (sidebandAt s.wells[w].mr (mrTile e.word))))

/-- `mtload` runs (R104): MR_ENCODING for a malformed image, MR_TILE for UNINIT or an odd floating index, MR_STORE_ERR for an
uncorrectable error in it. -/
def runMtload (w : WellId) (e : MrEntry) (s : State) : State :=
  let a := mrTile e.word
  let o := 0x300000 + fieldN e.s1 0 21
  let r := eccRead w 2 o 4096 s
  match r.1 with
  | some _ => stopPass w e 0x2D 0 0 r.2
  | none =>
    match tileOfImage (r.2.readWords (wellAddr w o) 512) with
    | none => mrFault w 0x28 r.2
    | some t =>
      if t.st == .uninit || (floatMode t.mode.toNat && decide (a % 2 = 1)) then mrFault w 0x29 r.2
      else mrComplete w e 0 (modTile w a (fun _ => t) r.2)

/-- MR_INSTRUCTION_START (R106): a queued instruction other than `mmac` reaches the head and runs to completion. -/
def execMrInstructionStart (w : WellId) (s : State) : Out :=
  let m := s.wells[w].mr
  .next <| match m.queue with
  | [] => s
  | e :: _ =>
    let rs := mrRanges (modeAfter { m with queue := [] } (mrTile e.word)) e.word e.s1 e.s2 e.s3
    if m.frozen || (mrOp e.word != 2 && (rs.1 ++ rs.2).any (fun r => behindFlume s.wells[w] e r.1 r.2)) then s
    else match tileFault s.wells[w] e with
    | some code => if mrOp e.word = 2 then s else mrFault w code s
    | none =>
      match mrOp e.word with
      | 1 => runMclr w e s
      | 3 => runMfin w e s
      | 4 => runMcomb w e s
      | 6 => runMtsave w e s
      | 7 => runMtload w e s
      | _ => s

/-- TILE_SIDEBAND_WRITE (R110): a ring-0 write to the mapped sideband at well-window offset off. Only the special-bit planes
of a floating tile that is not BUSY take it. -/
def writeSideband (w : WellId) (off : Nat) (v : W64) (s : State) : State :=
  let n := (off - 0xF08000) / 0x1000
  let k := off % 0x1000 / 8
  let m := s.wells[w].mr
  let t := m.tiles.getD n Tile.reset
  if off < 0xF08000 ∨ 0xF18000 ≤ off then s
  else if t.st == .uninit || !floatMode t.mode.toNat || tileBusy m n || n % 2 == 1 then s
  else
    let put (p : BitVec 8192) (j : Nat) : BitVec 8192 :=
      (p &&& ~~~((0xFFFFFFFFFFFFFFFF#8192) <<< (64 * j))) ||| (v.setWidth 8192 <<< (64 * j))
    if k < 8 then s
    else if k < 136 then modTile w n (fun t => { t with nan := put t.nan (k - 8) }) s
    else if k < 264 then modTile w n (fun t => { t with posInf := put t.posInf (k - 136) }) s
    else if k < 392 then modTile w n (fun t => { t with negInf := put t.negInf (k - 264) }) s
    else s

/-- TILE_SIDEBAND_WRITE (R110). -/
def execTileSidebandWrite (w : WellId) (off : BitVec 24) (v : W64) (s : State) : Out :=
  .next (writeSideband w off.toNat v s)

end Sys2Proof.Machine
end

