-- ==== Sys2Proof/Machine/System.lean ====
section
/-! DEFINITION. CLASS 0x3: CSR access, traps and returns, and the system instructions (R165-R167, R182, R183, R208,
R209, R219, R220). -/

namespace Sys2Proof.Machine

/-- CSR addresses of R165 and R208. -/
def csrKnown (a : Nat) : Bool :=
  decide (a ≤ 0x003 ∨ (0x010 ≤ a ∧ a ≤ 0x013) ∨ (0x020 ≤ a ∧ a ≤ 0x02F) ∨ (0x040 ≤ a ∧ a ≤ 0x042) ∨
    a = 0x050 ∨ a = 0x051 ∨ a = 0x060 ∨ a = 0x061)

/-- Highest ring number that may read a CSR (R165, R208). -/
def csrReadRing (a : Nat) : Nat :=
  if a = 0x020 ∨ a = 0x021 ∨ a = 0x022 ∨ a = 0x02B then 2
  else if a = 0x02A then 0
  else if 0x020 ≤ a ∧ a ≤ 0x02F then 1
  else 3

/-- Highest ring number that may write a CSR; a read-only CSR may be written, to no effect, by the rings that may read
it (R165, R208). -/
def csrWriteRing (a : Nat) : Nat :=
  if a ≤ 0x003 then 3
  else if a = 0x010 ∨ a = 0x011 ∨ a = 0x050 ∨ a = 0x051 then 1
  else if a = 0x012 ∨ a = 0x013 then 0
  else if a = 0x025 ∨ a = 0x026 ∨ a = 0x027 ∨ a = 0x02A ∨ a = 0x02C ∨ a = 0x02D then 0
  else if 0x020 ≤ a ∧ a ≤ 0x02F then 1
  else 3

/-- Basin of a well under the layout in force (R16, R166). -/
def basinOfWell (mode : BitVec 2) (w : WellId) : Nat :=
  if mode = 1 then w.val / 64 else if mode = 2 then w.val / 32 else 0

/-- VTYPE as a word (R126). -/
def vtypeWord (t : VType) : W64 := putB 15 t.tset ||| putB 8 t.falt ||| t.ebytes.setWidth 64

/-- A counter word with its OVF bit (R166). -/
def counterWord (c : Counter48) : W64 := putB 63 c.ovf ||| c.count.setWidth 64

/-- A CSR as the instruction finds it in program order (R182). -/
def csrRead (s : State) (w : WellId) (a : Nat) : W64 :=
  let u := s.wells[w]
  let c := u.cpu
  let x := c.exc
  match a with
  | 0x000 => putN 8 c.wr.frm.toNat ||| c.flags.setWidth 64
  | 0x001 => vtypeWord c.wr.vtype
  | 0x002 => u.flume.vl.setWidth 64
  | 0x003 => u.flume.vstart.setWidth 64
  | 0x010 => putB 1 c.wr.bank ||| putB 0 c.wr.ie
  | 0x011 => c.wr.ring.setWidth 64
  | 0x012 => c.wasid.setWidth 64
  | 0x013 => putN 12 c.drlim.toNat
  | 0x020 => x.cause
  | 0x021 => x.epc
  | 0x022 => x.einfo
  | 0x023 => if c.eff.ring = 0 then x.entry else x.entryR1
  | 0x024 => x.xsp.setWidth 64
  | 0x025 => x.xbase.setWidth 64
  | 0x026 => x.xlimit.setWidth 64
  | 0x027 => x.sltbase
  | 0x028 => x.ienable.setWidth 64
  | 0x029 => x.ipend.setWidth 64
  | 0x02A => x.entryR1
  | 0x02B => x.estatus &&& estatusMask
  | 0x02C => x.edeleg
  | 0x02D => x.ideleg.setWidth 64
  | 0x02E => x.timecmp.setWidth 64
  | 0x02F => x.edepth.setWidth 64
  | 0x040 => 0x0100
  | 0x041 => 0xF
  | 0x042 => putN 8 (basinOfWell s.basinMode w) ||| w64 w.val
  | 0x050 => counterWord c.cycle
  | 0x051 => counterWord c.instret
  | 0x060 => c.stageNumber
  | 0x061 => c.stagePhase.setWidth 64
  | _ => 0

/-- Codes that may be delegated (R210, R211): 0x01-0x08, 0x10-0x14, 0x17, 0x18, 0x20-0x23, 0x26, 0x28-0x2B, 0x2E, 0x2F. -/
def edelegMask : W64 := 0x0000CF4F019F01FE

/-- RW1C flags written: `csrs` and `csrc` write zero to them (R182). -/
def clearBits (op : Nat) (old v m : W64) : W64 := if op = 0x002 then old &&& ~~~(v &&& m) else old

/-- The value that a CSR write instruction writes to RW fields (R182). -/
def csrNew (op : Nat) (old v : W64) : W64 := if op = 0x002 then v else if op = 0x003 then old ||| v else old &&& ~~~v

/-- Lines that the current ring may write in IENABLE and IPEND (R208). -/
def lineMask (c : Windlass) : BitVec 11 := if c.eff.ring = 0 then ~~~0 else c.exc.ideleg

/-- The register that a CSR address names: ENTRY is the copy of the current ring, and ring 1's copy is ENTRY_R1 (R208). -/
def csrReg (c : Windlass) (a : Nat) : BitVec 12 := if a = 0x023 ∧ c.eff.ring ≠ 0 then 0x02A else BitVec.ofNat 12 a

/-- The effect of a CSR write of the field values n (RW) with v as operand (RW1C), fields that no write reaches keeping
their values (R165-R167, R208, R209). -/
def csrApply (op a : Nat) (v : W64) (w : WellId) (s : State) : State :=
  let old := csrRead s w a
  let n := csrNew op old v
  let exc (f : ExcRegs → ExcRegs) : State := s.modCpu w (fun c => { c with exc := f c.exc })
  let s' := match a with
  | 0x000 =>
    let f : BitVec 3 := n.extractLsb' 8 3
    s.modCpu w (fun c =>
      let c := { c with flags := (clearBits op (c.flags.setWidth 64) v 0x3F).truncate 6 }
      if c.wr.frm = f then c else c.openMode (.frm f))
  | 0x003 => s.modFlume w (fun f => { f with vstart := n.truncate 11 })
  | 0x010 => s.modCpu w (fun c => if c.wr.ie = bitB n 0 then c else c.openMode (.ie (bitB n 0)))
  | 0x011 => s.modCpu w (fun c => if c.wr.ring = n.truncate 2 then c else c.openMode (.ring (n.truncate 2)))
  | 0x012 => s.modCpu w (fun c => { c with wasid := n.truncate 16 })
  | 0x013 => s.modCpu w (fun c =>
      let l := fieldN n 12 12
      if 0x700 ≤ l ∧ l ≤ 0x720 then { c with drlim := BitVec.ofNat 12 l } else c)
  | 0x020 => exc (fun x => { x with cause := n &&& causeMask })
  | 0x021 => exc (fun x => { x with epc := n &&& epcMask })
  | 0x022 => exc (fun x => { x with einfo := n })
  | 0x023 => s.modCpu w (fun c =>
      if c.eff.ring = 0 then { c with exc := { c.exc with entry := n &&& entryMask } }
      else { c with exc := { c.exc with entryR1 := n &&& entryMask } })
  | 0x024 => exc (fun x => { x with xsp := n.truncate 24 })
  | 0x025 => exc (fun x => { x with xbase := n.truncate 24 })
  | 0x026 => exc (fun x => { x with xlimit := n.truncate 24 })
  | 0x027 => exc (fun x => { x with sltbase := n &&& 0xFFF000 })
  | 0x028 => s.modCpu w (fun c =>
      let m := lineMask c
      { c with exc := { c.exc with ienable := (c.exc.ienable &&& ~~~m) ||| (n.truncate 11 &&& m) } })
  | 0x029 => s.modCpu w (fun c =>
      { c with exc := { c.exc with
                        ipend := (clearBits op (c.exc.ipend.setWidth 64) v ((lineMask c).setWidth 64)).truncate 11 } })
  | 0x02A => exc (fun x => { x with entryR1 := n &&& entryMask })
  | 0x02B => exc (fun x => { x with estatus := n &&& estatusMask })
  | 0x02C => exc (fun x => { x with edeleg := n &&& edelegMask })
  | 0x02D => exc (fun x => { x with ideleg := n.truncate 11 &&& 0x7FC })
  | 0x02E => exc (fun x => { x with timecmp := n.truncate 48 })
  | 0x050 => s.modCpu w (fun c => { c with cycle := { c.cycle with ovf := c.cycle.ovf && !(op == 0x002 && bitB v 63) } })
  | 0x051 => s.modCpu w (fun c => { c with instret := { c.instret with ovf := c.instret.ovf && !(op == 0x002 && bitB v 63) } })
  | _ => s
  s'.modCpu w (fun c => { c with badRegs := c.badRegs.filter (· != .csr (csrReg c a)) })

/-- FFLAGS, VTYPE, VL and VSTART wait for every issued Flume instruction, and FFLAGS for the DJ-Q results (R140, R200). -/
def csrWaits (s : State) (w : WellId) (a : Nat) : Option Stall :=
  let u := s.wells[w]
  if a ≤ 0x003 ∧ !u.flume.window.isEmpty then some .csrWait
  else if a = 0x000 ∧ !u.cpu.djq.isEmpty then some .csrWait
  else none

/-- CSR address of a CLASS 0x3 word. -/
def csrAddr (i : W64) : Nat := immN i 0 12

/-- CSRR (R182). -/
def execCsrr (w : WellId) (i : W64) (s : State) : Out :=
  issue w i { mnemonic := "CSRR", cls := 3, lo := 0x001, hi := 0x001,
              legal := fun i => noS1 i && noS2 i && noS3 i && immZero i 12 18 && csrKnown (csrAddr i) }
    (fun c => { reads := [.csr (csrReg c (csrAddr i))], writes := gRefs c [wDest i], opens := false })
    (fun s =>
      if csrReadRing (csrAddr i) < (s.cpu w).eff.ring.toNat then .fault 0x02 i s
      else match csrWaits s w (csrAddr i) with
      | some why => .wait why s
      | none => .done (setG w (wDest i) (csrRead s w (csrAddr i)) s)) s

/-- A CSR write: reserved FRM codes are illegal (R44), then the rings of R165 and R208, then R167. -/
def csrWriteBody (w : WellId) (i : W64) (s : State) : CpuRes :=
  let a := csrAddr i
  let op := wOp i
  let c := s.cpu w
  let v := c.rd (wS1 i)
  let n := csrNew op (csrRead s w a) v
  let ring := if op = 0x002 then csrWriteRing a else min (csrReadRing a) (csrWriteRing a)
  if a = 0x000 ∧ (fieldN n 8 3 = 0 ∨ 4 < fieldN n 8 3) then .fault 0x01 i s
  else if min ring (csrReadRing a) < c.eff.ring.toNat then .fault 0x02 i s
  else if a = 0x011 ∧ fieldN n 0 2 < c.wr.ring.toNat then .fault 0x02 i s
  else match (if op = 0x002 then none else csrWaits s w a) with
  | some why => .wait why s
  | none => .done (csrApply op a v w s)

/-- Issue of the three CSR writes; a write to STATUS, RING or FFLAGS is one that would open a window (R176). -/
def csrWriteIssue (mn : String) (op : Nat) (w : WellId) (i : W64) (s : State) : Out :=
  issue w i { mnemonic := mn, cls := 3, lo := op, hi := op,
              legal := fun i => noDest i && noS2 i && noS3 i && immZero i 12 18 && csrKnown (csrAddr i) }
    (fun c => { reads := gRefs c [wS1 i] ++ (if op = 0x002 then [] else [.csr (csrReg c (csrAddr i))]), writes := [],
                opens := decide (csrAddr i = 0x000 ∨ csrAddr i = 0x010 ∨ csrAddr i = 0x011) })
    (csrWriteBody w i) s

/-- CSRW (R182). -/
def execCsrw (w : WellId) (i : W64) (s : State) : Out := csrWriteIssue "CSRW" 0x002 w i s
/-- CSRS (R182). -/
def execCsrs (w : WellId) (i : W64) (s : State) : Out := csrWriteIssue "CSRS" 0x003 w i s
/-- CSRC (R182). -/
def execCsrc (w : WellId) (i : W64) (s : State) : Out := csrWriteIssue "CSRC" 0x004 w i s

/-- Whether the sluice table lies wholly in protected data RAM (R217). -/
def sluiceTableOk (c : Windlass) : Bool :=
  let b := fieldN c.exc.sltbase 12 12 * 0x1000
  decide (c.drlim.toNat * 0x1000 ≤ b ∧ b + 0x1000 ≤ 0x71FE00)

/-- Checks 2-4 of R219 on the two words of an entry, for ring r. -/
def sluiceEntryOk (e0 e1 : W64) (r : Nat) : Bool :=
  bitB e0 63 && fieldN e0 60 3 == 0 && fieldN e0 56 2 == 0 && fieldN e0 0 3 == 0 && fieldN e1 5 59 == 0 &&
    bitB e1 r && decide (fieldN e0 58 2 ≤ r)

/-- Entering sluice n with its entry (R219). -/
def takeTrap (w : WellId) (n : Nat) (e0 e1 : W64) (s : State) : State :=
  let c := s.cpu w
  enter w (causeWord false c.eff.ring (BitVec.ofNat 8 n) 0x30) (c.pc + 8) c.pc 0 (e0.extractLsb' 58 2) (bitB e1 4) none
    (some (e0.extractLsb' 0 56 &&& ~~~7)) (prepareEntry w s)

/-- TRAP (R219). The entry is read after the store buffer has drained (R213). Where an open load's data is bad, STORE_ERR is taken in its
place and the `trap` has no effect (R179). -/
def execTrap (w : WellId) (i : W64) (s : State) : Out :=
  issue w i { mnemonic := "TRAP", cls := 3, lo := 0x008, hi := 0x008,
              legal := fun i => noDest i && noS1 i && noS2 i && noS3 i && immZero i 8 22 }
    (fun _ => { reads := [.csr 0x027, .csr 0x013], writes := [], opens := false })
    (fun s =>
      let c := s.cpu w
      let n := immN i 0 8
      if !sluiceTableOk c then .fault 0x07 (w64 n) s
      else
        let s1 := s.drainAll w
        let o := fieldN c.exc.sltbase 12 12 * 0x1000 + 16 * n
        let r := eccRead w 0 o 16 s1
        match r.1 with
        | some bad => .fault 0x15 (w64 bad) r.2
        | none =>
          let e0 := r.2.readWord (wellAddr w o)
          let e1 := r.2.readWord (wellAddr w (o + 8))
          if !sluiceEntryOk e0 e1 c.eff.ring.toNat then .fault 0x07 (w64 n) s
          else match c.badLoad with
          | some ea => .fault 0x15 ea s
          | none => .leave (takeTrap w n e0 e1 r.2)) s

/-- The body of `rete` and `retg` (R220, R178, R179). After REG_PARITY the Windlass does not return (R164). -/
def returnBody (sluice : Bool) (w : WellId) (i : W64) (s : State) : CpuRes :=
  let c := s.cpu w
  ringAtMost w (if sluice then 2 else 1) i s
    (if returnRefused c sluice then .fault 0x08 c.exc.estatus s
     else if c.parityStop then .wait .parity s
     else match c.badLoad with
     | some ea => .fault 0x15 ea s
     | none =>
       if bitB c.exc.estatus 1 && popOk c.exc then
         let r := eccRead w 0 (c.exc.xsp.toNat - 512) 512 (s.drainAll w)
         .leave (returnFrom w sluice r.1.isSome r.2)
       else .leave (returnFrom w sluice false s))

/-- CSRs that a return reads (R220, R223): ESTATUS and EPC, CAUSE where it is a `retg`, and XSP, XBASE and EDEPTH where it pops. -/
def returnUses (sluice : Bool) (c : Windlass) : Uses :=
  { reads := [.csr 0x02B, .csr 0x021] ++ (if sluice then [.csr 0x020] else []) ++
      (if bitB c.exc.estatus 1 then [.csr 0x024, .csr 0x025, .csr 0x02F] else []), writes := [], opens := false }

/-- RETG (R220). -/
def execRetg (w : WellId) (i : W64) (s : State) : Out :=
  issue w i { mnemonic := "RETG", cls := 3, lo := 0x009, hi := 0x009, legal := bareLegal } (returnUses true) (returnBody true w i) s

/-- RETE (R220). -/
def execRete (w : WellId) (i : W64) (s : State) : Out :=
  issue w i { mnemonic := "RETE", cls := 3, lo := 0x00A, hi := 0x00A, legal := bareLegal } (returnUses false) (returnBody false w i) s

/-- BRK (R182, R197). -/
def execBrk (w : WellId) (i : W64) (s : State) : Out :=
  issue w i { mnemonic := "BRK", cls := 3, lo := 0x00B, hi := 0x00B, legal := bareLegal } (fun _ => Uses.none)
    (fun s => .fault 0x06 0 s) s

/-- FENCE (R183, R196). -/
def execFence (w : WellId) (i : W64) (s : State) : Out :=
  issue w i { mnemonic := "FENCE", cls := 3, lo := 0x010, hi := 0x010, legal := bareLegal } (fun _ => Uses.none)
    (fun s => .done (s.drainAll w)) s

/-- WFI (R183): waits until some interrupt is pending, whether or not it may be taken. -/
def execWfi (w : WellId) (i : W64) (s : State) : Out :=
  issue w i { mnemonic := "WFI", cls := 3, lo := 0x011, hi := 0x011, legal := bareLegal } (fun _ => Uses.none)
    (fun s => ringAtMost w 1 i s (if (s.cpu w).exc.ipend = 0 then .wait .wfi s else .done s)) s

/-- ICINV (R183): it starts its invalidation and waits for its end; the lines are gone when it is sent again and completes, and an
interrupt taken in between makes it start again (R230). -/
def execIcinv (w : WellId) (i : W64) (s : State) : Out :=
  issue w i { mnemonic := "ICINV", cls := 3, lo := 0x012, hi := 0x012, legal := bareLegal } (fun _ => Uses.none)
    (fun s => ringAtMost w 1 i s
      (if (s.cpu w).stall = some .icinv then .done (s.modCpu w (fun c => { c with icache := [] })) else .wait .icinv s)) s

/-- XGET (R162): gs of the bank not in use. -/
def execXget (w : WellId) (i : W64) (s : State) : Out :=
  issue w i { mnemonic := "XGET", cls := 3, lo := 0x018, hi := 0x018, legal := fun i => noS2 i && noS3 i && immZero i 0 30 }
    (fun c => { reads := if wS1 i = 0 then [] else [.g (!c.eff.bank) (wS1 i)], writes := gRefs c [wDest i], opens := false })
    (fun s => ringAtMost w 2 i s
      (let c := s.cpu w
       .done (setG w (wDest i) (c.gGet (!c.eff.bank) (wS1 i)) s))) s

/-- XPUT (R162): gs into gd of the bank not in use. -/
def execXput (w : WellId) (i : W64) (s : State) : Out :=
  issue w i { mnemonic := "XPUT", cls := 3, lo := 0x019, hi := 0x019, legal := fun i => noS2 i && noS3 i && immZero i 0 30 }
    (fun c => { reads := gRefs c [wS1 i], writes := if wDest i = 0 then [] else [.g (!c.eff.bank) (wDest i)], opens := false })
    (fun s => ringAtMost w 2 i s
      (.done (s.modWell w (fun u => u.gWrite (!u.cpu.eff.bank) (wDest i) (u.cpu.rd (wS1 i)))))) s

end Sys2Proof.Machine
end

