-- ==== Sys2Proof/Machine/StoresFam.lean ====
section
/-! DEFINITION. The well stores: tag instructions, waits, the two modes and the bank commands (R240-R263). -/

namespace Sys2Proof.Machine

/-- Start and length of a tag instruction's range; `tag.get` reads 64 slots (R242). -/
def tagStart (c : Windlass) (i : W64) : W64 := c.rd (wS1 i)
def tagLen (c : Windlass) (i : W64) : W64 := if wOp i = 0x045 then 0x8000 else c.rd (wS2 i)

/-- The refusal of a tag instruction: EINFO (R243). -/
def tagRefusal (c : Windlass) (st : Stores) (i : W64) : Option W64 :=
  let a := tagStart c i
  let n := tagLen c i
  if a.toNat % 512 ≠ 0 then some a
  else if wOp i = 0x045 ∧ a.toNat % 0x8000 ≠ 0 then some a
  else if n.toNat % 512 ≠ 0 then some (a + (n &&& ~~~511))
  else if n = 0 then none
  else if 0x700000 < a.toNat + n.toNat then some (w64 (max a.toNat 0x700000))
  else ((slotsOf a.toNat n.toNat).find? (fun k => !bankOpenAt st (k.val * 512))).map (fun k => w64 (k.val * 512))

/-- The slots of the range. -/
def tagSlots (c : Windlass) (i : W64) : List SlotId := slotsOf (tagStart c i).toNat (tagLen c i).toNat

/-- Whether an incomplete Flume memory instruction's span overlaps the range (R244). -/
def flumeOverlaps (u : Well) (a n : Nat) : Bool :=
  decide (0 < n) && u.flume.window.any (fun e => match e.span with | some sp => spanOverlap sp (mkSpan a n false) | none => false)

/-- Encoding of the tag instructions (R242). -/
def tagLegal (get : Bool) (i : W64) : Bool := noS3 i && immZero i 0 30 && (if get then noS2 i else noDest i)

/-- What all six tag instructions do before their effect: the hold of R250, the drain of the store buffer (R196), the refusal of
R243, and in tag service the wait for a group with bad parity (R253); in scoreboard mode `tag.get` reads the tags as they stand
(R246). -/
def tagIssue (mn : String) (op : Nat) (body : State → List SlotId → CpuRes) (w : WellId) (i : W64) (s : State) : Out :=
  issue w i { mnemonic := mn, cls := 8, lo := op, hi := op, legal := tagLegal (op == 0x045) }
    (fun c => { reads := gRefs c (wS1 i :: if op = 0x045 then [] else [wS2 i]), writes := gRefs c (if op = 0x045 then [wDest i] else []),
                opens := false })
    (fun s => holdPend w s <|
      let s := s.drainAll w
      let u := s.wells[w]
      match tagRefusal u.cpu u.st i with
      | some e => .fault 0x17 e (s.modSt w (fun t => t.releaseAll .windlass))
      | none =>
        let ks := tagSlots u.cpu i
        if u.st.scoreboard && op != 0x045 then
          (let a := (tagStart u.cpu i).toNat
           let n := (tagLen u.cpu i).toNat
           if n ≠ 0 ∧ (heldEntries s w).any (fun h => spanOverlap h.2 (mkSpan a n false)) then .wait .tagWait s else .done s)
        else if !u.st.scoreboard && u.st.tagBad.any (fun g => ks.any (fun k => k.val / 64 == g.1.val)) then
          .wait .tagWait (noteTagParity w ks s)
        else body s ks) s

/-- `tag.fill`, `tag.empty` (R242, R244): every slot of the range is set once the Flume's overlapping instructions have
completed. -/
def tagSetBody (w : WellId) (i : W64) (full : Bool) (s : State) (ks : List SlotId) : CpuRes :=
  let u := s.wells[w]
  if flumeOverlaps u (tagStart u.cpu i).toNat (tagLen u.cpu i).toNat then .wait .tagWait s
  else .done (s.modSt w (fun t => ks.foldl (fun t k => t.setTag k full) t))

/-- TAG_FILL (R242). -/
def execTagFill (w : WellId) (i : W64) (s : State) : Out := tagIssue "TAG_FILL" 0x040 (tagSetBody w i true) w i s
/-- TAG_EMPTY (R242). -/
def execTagEmpty (w : WellId) (i : W64) (s : State) : Out := tagIssue "TAG_EMPTY" 0x041 (tagSetBody w i false) w i s

/-- `tag.wait.full`, `tag.wait.empty` (R242). -/
def tagWaitBody (w : WellId) (full : Bool) (s : State) (ks : List SlotId) : CpuRes :=
  if ks.all (fun k => s.wells[w].st.full k == full) then .done s else .wait .tagWait s

/-- TAG_WAIT_FULL (R242). -/
def execTagWaitFull (w : WellId) (i : W64) (s : State) : Out := tagIssue "TAG_WAIT_FULL" 0x042 (tagWaitBody w true) w i s
/-- TAG_WAIT_EMPTY (R242). -/
def execTagWaitEmpty (w : WellId) (i : W64) (s : State) : Out := tagIssue "TAG_WAIT_EMPTY" 0x043 (tagWaitBody w false) w i s

/-- TAG_TAKE (R242, R239): the slots are consumed together once each is full and free to claim; until then the instruction
holds a place at each slot that is not ready. -/
def execTagTake (w : WellId) (i : W64) (s : State) : Out :=
  tagIssue "TAG_TAKE" 0x044 (fun s ks =>
    let u := s.wells[w]
    if flumeOverlaps u (tagStart u.cpu i).toNat (tagLen u.cpu i).toNat then .wait .tagWait s
    else
      let late := ks.filter (fun k => !tagReady u.st .windlass .consume k)
      if late.isEmpty then .done (s.modSt w (fun t => ks.foldl (fun t k => t.useSlot .windlass .consume k) t))
      else .wait .tagWait (s.modSt w (fun t => late.foldl (fun t k => t.await .windlass .consume k) t))) w i s

/-- TAG_GET (R242): bit i is 1 when slot gs1 / 512 + i is full. -/
def execTagGet (w : WellId) (i : W64) (s : State) : Out :=
  tagIssue "TAG_GET" 0x045 (fun s _ =>
    let u := s.wells[w]
    .done (setG w (wDest i) ((u.st.tags >>> ((tagStart u.cpu i).toNat / 512)).truncate 64) s)) w i s

/-- TAG_WAIT_GRANT (R240): the slot is granted to the first waiter that it suits. A producer or consumer receives the
claim; a leave-full reader needs none. -/
def execTagWaitGrant (w : WellId) (k : SlotId) (s : State) : Out :=
  .next (s.modSt w (fun t =>
    if t.scoreboard || t.tagBad.any (fun g => g.1.val == k.val / 64) then t
    else match t.waiters.find? (fun x => x.slot == k && x.use != .leaveFull && tagSuits t x.agent x.use k) with
    | none => t
    | some x => { t with
      waiters := t.waiters.filter (fun y => !(y.slot == k && y.agent == x.agent))
      claims := (k, x.agent) :: t.claims.filter (fun c => c.1 != k) }))

/-- TAG_STALL (R263): a wait on the slot has lasted longer than LIMIT. -/
def execTagStall (w : WellId) (k : SlotId) (s : State) : Out :=
  .next (
    let t := s.wells[w].st
    if t.limit = 0 || t.stalled || !t.waiters.any (fun x => x.slot == k) then s
    else (s.modSt w (fun t => { t with stalled := true, woff := BitVec.ofNat 24 (k.val * 512) })).report (wellUnit w) 0x03 0)

/-- A stopped well (R249). -/
def wellStopped (s : State) (w : WellId) : Bool :=
  let u := s.wells[w]
  (!u.cpu.running || u.cpu.wedged) && u.mr.queue.isEmpty && u.flume.window.isEmpty &&
    s.pumps[wellPump w 0].queue.isEmpty && s.pumps[wellPump w 1].queue.isEmpty

/-- The waits of the agents that p picks end (R240): a Pump's descriptor completes with a status, an engine's operation with a status that
R385 does not state, and a Flume or Windlass instruction meets its own refusal when it comes again. -/
def endWaits (w : WellId) (p : Waiter → Bool) (st : BitVec 8) (s : State) : State :=
  let gone := (s.wells[w].st.waiters.filter p).map (·.agent)
  let s := s.modSt w (fun t => { t with waiters := t.waiters.filter (fun x => !p x) })
  gone.eraseDups.foldl (fun s a => match a with
    | .pump q seq => failDesc q seq st s
    | .engine e id =>
      let f := s.takeFree
      f.2.modEng e (fun x => { x with ops := x.ops.map (fun o => if o.id = id then { o with status := f.1.truncate 8, phase := .written } else o) })
    | _ => s) s

/-- Whether an agent lies outside a well (R247). -/
def outsideWell (w : WellId) : TagAgent → Bool
  | .pump p _ => wellOfPump p != some w
  | .engine _ _ => true
  | _ => false

/-- The change to scoreboard mode (R249): outside agents' waits end with WELL_SCOREBOARD, and every claim is released. -/
def enterScoreboard (w : WellId) (s : State) : State :=
  (endWaits w (fun x => outsideWell w x.agent) stScoreboard s).modSt w (fun t =>
    { t with scoreboard := true, pend := false, claims := [], waiters := [] })

/-- A request for scoreboard mode (R249). -/
def toScoreboard (w : WellId) (src : Agent) (s : State) : State :=
  if src = .headwater && wellStopped s w then enterScoreboard w s
  else s.modSt w (fun t => { t with modeErr := 1 })

/-- A request for tag service (R250): held with PEND unless INIT is reserved or the image is bad. -/
def toTagService (w : WellId) (v : W64) (s : State) : State :=
  let img := fieldN v 16 24
  if fieldN v 1 2 = 3 then s.modSt w (fun t => { t with modeErr := 3 })
  else if fieldN v 1 2 = 2 ∧ (img % 64 ≠ 0 ∨ img < 0x700000 ∨ 0x720000 < img + 1792) then s.modSt w (fun t => { t with modeErr := 2 })
  else s.modSt w (fun t => { t with pend := true, image := v.extractLsb' 16 24, init := v.extractLsb' 1 2 })

/-- WS_MODE_TO_TAG_SERVICE (R250): a write of MODE := 0 in scoreboard mode. -/
def execWsModeToTagService (w : WellId) (v : W64) (s : State) : Out :=
  .next (if s.wells[w].st.scoreboard then toTagService w v s else s)

/-- A held change to tag service is withdrawn and the instructions that it held go on (R250). -/
def withdrawHeld (w : WellId) (s : State) : State :=
  s.modWell w (fun u => { u with
    st := { u.st with pend := false }
    cpu := if u.cpu.stall = some .wsModePend then { u.cpu with stall := none } else u.cpu })

/-- WS_MODE_TO_SCOREBOARD (R249); a well already in scoreboard mode keeps it, and a change held to tag service is withdrawn (R250). -/
def execWsModeToScoreboard (w : WellId) (src : Agent) (s : State) : Out :=
  .next (
    let t := s.wells[w].st
    if t.pend then withdrawHeld w s else if t.scoreboard then s else toScoreboard w src s)

/-- Keeping the INIT and IMAGE fields of a write (R248). -/
def keepModeFields (w : WellId) (v : W64) (s : State) : State :=
  s.modSt w (fun t => { t with image := v.extractLsb' 16 24, init := v.extractLsb' 1 2 })

/-- WS_MODE_WITHDRAW (R250): a write of MODE := 1 while PEND = 1; held instructions go on. -/
def withdrawMode (w : WellId) (v : W64) (s : State) : State :=
  withdrawHeld w (keepModeFields w v s)

/-- WS_MODE_WITHDRAW (R250). -/
def execWsModeWithdraw (w : WellId) (v : W64) (s : State) : Out :=
  .next (if s.wells[w].st.pend then withdrawMode w v s else s)

/-- The words of a tag image from an offset, read with their check bits (R251). A word with an uncorrectable error delivers no data, so
its tags are free values; source is the SOURCE that WS_ELAST records, which R263 does not state for this reader (log 188). -/
def imageWords (w : WellId) (source o : Nat) : Nat → State → List W64 × State
  | 0, s => ([], s)
  | n + 1, s =>
    let r := eccRead w source o 8 s
    let f := if r.1.isSome then r.2.takeFree else (r.2.readWord (wellAddr w o), r.2)
    let q := imageWords w source (o + 8) n f.2
    (f.1 :: q.1, q.2)

/-- The tags that an image's words give: slot s is bit s mod 8 of byte s div 8 (R248). -/
def tagsOfWords (ws : List W64) : BitVec 14336 := BitVec.ofNat 14336 (ws.foldr (fun v acc => v.toNat + 2 ^ 64 * acc) 0)

/-- TAG_SERVICE_CHANGEOVER (R250): once the well is quiet the tags are set under INIT, claims are cleared and tag service
begins. -/
def execTagServiceChangeover (w : WellId) (s : State) : Out :=
  .next (
    let t := s.wells[w].st
    if !t.pend || !(heldEntries s w).isEmpty then s
    else
      let f := s.takeFree
      let r := if t.init = 2 then imageWords w (f.1.toNat % 8) t.image.toNat 224 f.2 else ([], s)
      let tags : BitVec 14336 := if t.init = 0 then 0 else if t.init = 1 then ~~~0 else tagsOfWords r.1
      r.2.modWell w (fun u => { u with
        st := { u.st with tags := tags, tagBad := [], claims := [], scoreboard := false, pend := false }
        cpu := if u.cpu.stall = some .wsModePend then { u.cpu with stall := none } else u.cpu }))

/-- SCOREBOARD_CONFLICT_RELEASE (R246): the entries that blocked the held instruction have been released, and it issues
again. -/
def execScoreboardConflictRelease (w : WellId) (s : State) : Out :=
  .next (s.modCpu w (fun c => if c.stall = some .scoreboard then { c with stall := none } else c))

/-- Bank indices of a mask. -/
def maskBanks (mask : BitVec 28) : List (Fin 28) := (List.range 28).filterMap (fun b =>
  if h : b < 28 then (if mask.getLsbD b then some ⟨b, h⟩ else none) else none)

/-- A bank of the mask lies in the span of a queued Millrace instruction or holds a unit of a BUSY tile (R258). -/
def bankHeld (m : Millrace) (mask : BitVec 28) : Bool :=
  (maskBanks mask).any (fun b =>
    (queueSpans m).any (fun sp => spanOverlap sp (mkSpan (b.val * 0x40000) 0x40000 false)) || hitsBusy m (b.val * 0x40000) 0x40000)

/-- What a command does to the state of each bank when it closes (R256, R257); a bank that is OFF stays OFF but for OPEN
(R259). -/
def BankCmd.start (cmd : BankCmd) (b : BankState) : BankState :=
  match cmd, b with
  | .open, .closed => .open
  | .open, .off => .changing
  | .open, x => x
  | _, .off => .off
  | .close, .closed => .closed
  | _, _ => .changing

/-- Waits and claims on slots of the banks end (R240, R257): a waiting Pump's descriptor with BANK_CLOSED. -/
def endBankWaits (w : WellId) (mask : BitVec 28) (s : State) : State :=
  let inMask (k : SlotId) : Bool := mask.getLsbD (k.val / 512)
  (endWaits w (fun x => inMask x.slot) stBankClosed s).modSt w (fun t => { t with claims := t.claims.filter (fun c => !inMask c.1) })

/-- The banks that a started command changes. -/
def changingMask (t : Stores) (mask : BitVec 28) : BitVec 28 :=
  (maskBanks mask).foldl (fun (m : BitVec 28) b => if t.banks[b] = .changing then m ||| (1#28 <<< b.val) else m) 0

/-- A bank command (R256-R258): refused as a whole, or every masked bank closes and the command is in progress. -/
def bankCommand (w : WellId) (cmd : BankCmd) (mask : BitVec 28) (s : State) : State :=
  let u := s.wells[w]
  if u.st.bankOp.isSome then s.modSt w (fun t => { t with bankErr := 3 })
  else if bankHeld u.mr mask then s.modSt w (fun t => { t with bankErr := 1 })
  else
    let s := s.modSt w (fun t => { t with banks := (maskBanks mask).foldl (fun (v : Vector BankState 28) (b : Fin 28) => v.set b (cmd.start v[b])) t.banks })
    let s := if cmd = .open then s else endBankWaits w mask s
    s.modSt w (fun t =>
    let ch := changingMask t mask
    { t with bankOp := if ch = 0 then none else some { cmd := cmd, mask := ch, drained := cmd == .open } })

/-- BANK_CLOSE (R256). -/
def execBankClose (w : WellId) (mask : BitVec 28) (s : State) : Out := .next (bankCommand w .close mask s)
/-- BANK_OFF (R256). -/
def execBankOff (w : WellId) (mask : BitVec 28) (s : State) : Out := .next (bankCommand w .off mask s)
/-- BANK_CLEAR (R256). -/
def execBankClear (w : WellId) (mask : BitVec 28) (s : State) : Out := .next (bankCommand w .clear mask s)
/-- BANK_OPEN (R256). -/
def execBankOpen (w : WellId) (mask : BitVec 28) (s : State) : Out := .next (bankCommand w .open mask s)

/-- BANK_DRAIN_COMPLETE (R257): what the banks had accepted has completed; the store buffer's entries drain. -/
def execBankDrainComplete (w : WellId) (s : State) : Out :=
  .next (match s.wells[w].st.bankOp with
    | none => s
    | some op => if op.drained then s else (s.drainAll w).modSt w (fun t => { t with bankOp := some { op with drained := true } }))

/-- One bank reads zero with correct ECC, its tags empty, no claim on it (R256). -/
def clearBank (w : WellId) (b : Fin 28) (s : State) : State :=
  (s.clearBytes (wellAddr w (b.val * 0x40000)) (wellAddr w (b.val * 0x40000 + 0x40000))).modSt w
    (fun t => { t with
      tags := t.tags &&& ~~~((BitVec.ofNat 14336 (2 ^ 512 - 1)) <<< (b.val * 512))
      tagBad := t.tagBad.filter (fun g => g.1.val / 8 != b.val)
      claims := t.claims.filter (fun c => c.1.val / 512 != b.val) })

/-- State of the banks at the end of a command (R256). -/
def BankCmd.finish : BankCmd → BankState
  | .close => .closed
  | .off => .off
  | .clear | .open => .open

/-- BANK_COMMAND_COMPLETE (R256): after the drain the banks take the command's final state; OFF loses their contents,
CLEAR and the OPEN of an unpowered bank clear them. -/
def execBankCommandComplete (w : WellId) (s : State) : Out :=
  .next (match s.wells[w].st.bankOp with
    | none => s
    | some op =>
      if !op.drained then s
      else
        let s := if op.cmd = .close then s else (maskBanks op.mask).foldl (fun s b => clearBank w b s) s
        s.modSt w (fun t => { t with
          banks := (maskBanks op.mask).foldl (fun (v : Vector BankState 28) (b : Fin 28) => v.set b op.cmd.finish) t.banks
          bankOp := none }))

end Sys2Proof.Machine
end

