-- ==== Sys2Proof/Machine/WellRegs.lean ====
section
/-! DEFINITION. The well control registers by their well-window offset (R110, R111, R118, R248, R260-R263, R291, R419). An offset
that the spec gives no register reads as zero and ignores writes, as a reserved field does (R3, R6). -/

namespace Sys2Proof.Machine

/-- STATE codes of R254. -/
def BankState.code : BankState → Nat
  | .off => 0 | .open => 1 | .closed => 2 | .changing => 3

/-- PU_STATp (R291). -/
def puStat (s : State) (p : PumpId) : W64 :=
  let x := s.pumps[p]
  let h := x.queue.head?
  let held := h.bind (fun d => d.heldS <|> d.heldD)
  let waits := match h with
    | some d => d.waiting || (!d.started && dWaitc d.words && !counterAtLeast s d.wctr (dWthr d.words))
    | none => false
  putB 63 held.isSome ||| putB 62 waits ||| putN 48 ((held.map (·.2.val)).getD 0) ||| putN 32 x.queue.length ||| x.doneSeq.setWidth 64

/-- PU_ERRp (R291). -/
def puErr (x : Pump) : W64 := putB 63 x.errValid ||| putN 48 x.errStatus.toNat ||| putN 32 x.nerr.toNat ||| x.errSeq.setWidth 64

/-- WS_MODE (R248). -/
def wsModeWord (t : Stores) : W64 :=
  putB 63 t.pend ||| putN 60 t.modeErr.toNat ||| putN 16 t.image.toNat ||| putN 1 t.init.toNat ||| putB 0 t.scoreboard

/-- WS_BANKST (R261). -/
def wsBankst (t : Stores) : W64 :=
  (List.range 28).foldl (fun acc i => acc ||| putN (2 * i) (t.banks.getD i .off).code)
    (putB 63 t.bankOp.isSome ||| putN 60 t.bankErr.toNat)

/-- WS_SBENTn (R262). -/
def wsSbent (s : State) (w : WellId) (n : Nat) : W64 :=
  match (heldEntries s w)[n]? with
  | none => 0
  | some (o, sp) => putB 63 true ||| putB 62 sp.write ||| putN 60 o ||| putN 24 sp.hi.toNat ||| sp.lo.setWidth 64

/-- A read of the well control register at an offset, with the clearing of its RC fields (R3). -/
def readWellReg (w : WellId) (o : Nat) (s : State) : W64 × State :=
  let u := s.wells[w]
  let t := u.st
  let m := u.mr
  match o with
  | 0xF04008 => (u.mailIn, s.modWell w (fun u => { u with mailIn := 0 }))
  | 0xF05000 => (puStat s (wellPump w 0), s)
  | 0xF05008 => (puStat s (wellPump w 1), s)
  | 0xF05010 => (puErr s.pumps[wellPump w 0], s.modPump (wellPump w 0) (fun x => { x with nerr := 0 }))
  | 0xF05018 => (puErr s.pumps[wellPump w 1], s.modPump (wellPump w 1) (fun x => { x with nerr := 0 }))
  | 0xF06000 => (wsModeWord t, s)
  | 0xF06010 => (wsBankst t, s)
  | 0xF06018 => (putN 8 t.peak.toNat ||| w64 (heldEntries s w).length, notePeak w (s.modSt w (fun t => { t with peak := 0 })))
  | 0xF06020 => (putB 63 t.stalled ||| putN 32 t.limit.toNat ||| t.woff.setWidth 64, s)
  | 0xF06028 => (putB 63 t.cecnt.ovf ||| t.cecnt.count.setWidth 64, s)
  | 0xF06030 => (t.elast, s)
  | 0xF07000 => (progressWord m, s)
  | 0xF07008 => qpcRead w s
  | 0xF07100 => (putN 16 m.trigCount.toNat ||| m.trigBase.setWidth 64, s)
  | _ =>
    if 0xF06040 ≤ o ∧ o < 0xF06080 then (wsSbent s w ((o - 0xF06040) / 8), s)
    else if 0xF08000 ≤ o ∧ o < 0xF18000 then
      (let n := (o - 0xF08000) / 0x1000
       (sidebandAt m n (o % 0x1000 / 8), s))
    else (0, s)

/-- A write of WS_MODE (R248-R250). -/
def writeWsMode (src : Agent) (w : WellId) (v : W64) (s : State) : State :=
  let t := s.wells[w].st
  if bitB v 0 then
    (if t.pend then withdrawMode w v s
     else if t.scoreboard then keepModeFields w v s
     else if src = .headwater && wellStopped s w then keepModeFields w v (toScoreboard w src s)
     else toScoreboard w src s)
  else if t.scoreboard then toTagService w v s
  else keepModeFields w v s

/-- A write of WS_BANKCTL (R256, R261). -/
def writeBankctl (w : WellId) (v : W64) (s : State) : State :=
  let mask : BitVec 28 := v.extractLsb' 0 28
  match fieldN v 60 4 with
  | 1 => bankCommand w .close mask s
  | 2 => bankCommand w .off mask s
  | 3 => bankCommand w .clear mask s
  | 4 => bankCommand w .open mask s
  | _ => s.modSt w (fun t => { t with bankErr := 2 })

/-- A write of a PU_ERR register (R291). -/
def writePuErr (p : PumpId) (v : W64) (s : State) : State :=
  s.modPump p (fun x => { x with errValid := x.errValid && !bitB v 63 })

/-- A write of PU_CTL (R291). -/
def writePuCtl (w : WellId) (v : W64) (s : State) : State :=
  let s := if bitB v 0 then dropQueue (wellPump w 0) s else s
  if bitB v 1 then dropQueue (wellPump w 1) s else s

/-- A write of the well control register at an offset. WM_IN takes messages from Headwater only (R419), and only ring 0 writes
MR_TRIGWIN (R111). -/
def writeWellReg (src : Agent) (w : WellId) (o : Nat) (v : W64) (s : State) : State :=
  match o with
  | 0xF04000 => s.modWell w (fun u => { u with mailOut := some v })
  | 0xF04008 => if src = .headwater then syncLine w 0 (s.modWell w (fun u => { u with mailIn := v })) else s
  | 0xF05010 => writePuErr (wellPump w 0) v s
  | 0xF05018 => writePuErr (wellPump w 1) v s
  | 0xF05020 => writePuCtl w v s
  | 0xF06000 => writeWsMode src w v s
  | 0xF06008 => writeBankctl w v s
  | 0xF06020 => s.modSt w (fun t => { t with stalled := t.stalled && !bitB v 63, limit := v.extractLsb' 32 16 })
  | 0xF06028 => s.modSt w (fun t => { t with cecnt := { t.cecnt with ovf := t.cecnt.ovf && !bitB v 63 } })
  | 0xF06030 => s.modSt w (fun t => { t with elast := if bitB v 63 then t.elast &&& ~~~(putB 63 true) else t.elast })
  | 0xF07100 =>
    if src = .windlass ∧ fieldN v 16 13 ≤ 4096 then
      s.modMr w (fun m => { m with trigBase := v.extractLsb' 0 12, trigCount := v.extractLsb' 16 13 })
    else s
  | _ => if 0xF08000 ≤ o ∧ o < 0xF18000 then writeSideband w o v s else s

/-- Whether a write to WM_OUT has to wait for Headwater to take the previous message (R419). -/
def mailWaits (s : State) (w : WellId) (o : Nat) : Bool := o == 0xF04000 && s.wells[w].mailOut.isSome

end Sys2Proof.Machine
end

