-- ==== Sys2Proof/Machine/Pumps.lean ====
section
/-! DEFINITION. The Pump instructions and what the Pumps do with their descriptors (R264-R278, R284, R290, R291). -/

namespace Sys2Proof.Machine

/-! Instructions of CLASS 0x8. -/

/-- The submission number is written to gd; or the instruction waits (R272). -/
def submitRes (w : WellId) (i : W64) (p : PumpId) (d : DWords) (s : State) : CpuRes :=
  let seq := s.pumps[p].nextSeq
  match submit w p d s with
  | (none, s') => .done (setG w (wDest i) (seq.setWidth 64) s')
  | (some why, s') => .wait why s'

/-- A descriptor in data RAM. -/
def readDesc (w : WellId) (o : Nat) (s : State) : DWords := Vector.ofFn (fun (k : Fin 8) => s.readWord (wellAddr w (o + 8 * k.val)))

/-- PUMP_SUB (R270-R272). -/
def execPumpSub (w : WellId) (i : W64) (s : State) : Out :=
  issue w i { mnemonic := "PUMP_SUB", cls := 8, lo := 0x001, hi := 0x001, legal := fun i => noS2 i && noS3 i && immZero i 1 29 }
    (fun c => { reads := gRefs c [wS1 i], writes := gRefs c [wDest i], opens := false })
    (fun s => holdPend w s <|
      let s := s.drainAll w
      let c := s.cpu w
      let a := c.rd (wS1 i)
      let o := a.toNat
      let p := wellPump w (Fin.ofNat 2 (immN i 0 1))
      if o % 64 ≠ 0 ∨ o < 0x700000 ∨ ownLimit c.drlim c.eff.ring < o + 64 then .fault 0x18 a s
      else
        let r := eccRead w 0 o 64 s
        match r.1 with
        | some bad => .fault 0x15 (w64 bad) r.2
        | none =>
          let d := readDesc w o r.2
          if dRefused d c.eff.ring c.drlim (s.wells[w].mr.trigCount) then .fault 0x18 a r.2
          else submitRes w i p d r.2) s

/-- The descriptor that `czero` submits (R270). -/
def czeroDesc (a n : W64) : DWords :=
  #v[4, 0, a, if n = 0x100000000 then 0 else n, 0, 0, 0, 0]

/-- CZERO (R270, R271). -/
def execCzero (w : WellId) (i : W64) (s : State) : Out :=
  issue w i { mnemonic := "CZERO", cls := 8, lo := 0x002, hi := 0x002, legal := fun i => noS3 i && immZero i 1 29 }
    (fun c => { reads := gRefs c [wS1 i, wS2 i], writes := gRefs c [wDest i], opens := false })
    (fun s => holdPend w s <|
      let s := s.drainAll w
      let c := s.cpu w
      let a := c.rd (wS1 i)
      let n := c.rd (wS2 i)
      let p := wellPump w (Fin.ofNat 2 (immN i 0 1))
      if n = 0 ∨ n.toNat % 256 ≠ 0 ∨ 2 ^ 32 < n.toNat ∨ dRefused (czeroDesc a n) c.eff.ring c.drlim s.wells[w].mr.trigCount then .fault 0x18 a s
      else submitRes w i p (czeroDesc a n) s) s

/-- A relative counter made absolute (R112); none where the well may not name it. -/
def absCounter (m : Millrace) (n : W64) : Option (BitVec 12) :=
  if n.toNat < m.trigCount.toNat then some (m.trigBase + n.truncate 12) else none

/-- INV_AS (R290). -/
def execInvAs (w : WellId) (i : W64) (s : State) : Out :=
  issue w i { mnemonic := "INV_AS", cls := 8, lo := 0x020, hi := 0x020,
              legal := fun i => noDest i && noS3 i && immZero i 1 29 && (bitB i 0 || noS2 i) }
    (fun c => { reads := gRefs c (wS1 i :: if bitB i 0 then [wS2 i] else []), writes := [], opens := false })
    (fun s => holdPend w s <| ringAtMost w 1 i s
      (let s := s.drainAll w
       let c := s.cpu w
       let asid : BitVec 16 := (c.rd (wS1 i)).truncate 16
       let n := c.rd (wS2 i)
       if c.eff.ring = 1 ∧ asid ≠ c.wasid then .fault 0x02 i s
       else
         let ctr := if bitB i 0 then absCounter s.wells[w].mr n else none
         if bitB i 0 && ctr.isNone then .fault 0x18 n s
         else if 4 ≤ s.invals.length then .wait .invBusy s
         else .done (admitInval asid ctr (some w) s))) s

/-- TRIG_WAIT (R278). -/
def execTrigWait (w : WellId) (i : W64) (s : State) : Out :=
  issue w i { mnemonic := "TRIG_WAIT", cls := 8, lo := 0x030, hi := 0x030, legal := fun i => noDest i && noS3 i && immZero i 0 30 }
    (fun c => { reads := gRefs c [wS1 i, wS2 i], writes := [], opens := false })
    (fun s => holdPend w s <|
      let s := s.drainAll w
      let c := s.cpu w
      match absCounter s.wells[w].mr (c.rd (wS1 i)) with
      | none => .fault 0x18 (c.rd (wS1 i)) s
      | some k => if counterAtLeast s k (c.rd (wS2 i)).toNat then .done s else .wait .counterWait s) s

/-- TRIG_GET (R278): the request goes out; its arrival at the counter's engine writes gd. -/
def execTrigGet (w : WellId) (i : W64) (s : State) : Out :=
  issue w i { mnemonic := "TRIG_GET", cls := 8, lo := 0x031, hi := 0x031, legal := fun i => noS2 i && noS3 i && immZero i 0 30 }
    (fun c => { reads := gRefs c [wS1 i], writes := gRefs c [wDest i], opens := false })
    (fun s => holdPend w s <|
      let s := s.drainAll w
      let c := s.cpu w
      match absCounter s.wells[w].mr (c.rd (wS1 i)) with
      | none => .fault 0x18 (c.rd (wS1 i)) s
      | some k => .done ({ s with inflight := s.inflight ++ [InFlight.get w k] }.modWell w (fun u =>
          let u := u.dropLate c.eff.bank (wDest i)
          { u with cpu := { u.cpu with getPend := u.cpu.getPend ++ [(c.eff.bank, wDest i)] } }))) s

/-- TRIG_ADD (R278). -/
def execTrigAdd (w : WellId) (i : W64) (s : State) : Out :=
  issue w i { mnemonic := "TRIG_ADD", cls := 8, lo := 0x032, hi := 0x032, legal := fun i => noDest i && noS3 i && immZero i 0 30 }
    (fun c => { reads := gRefs c [wS1 i, wS2 i], writes := [], opens := false })
    (fun s => holdPend w s <|
      let s := s.drainAll w
      let c := s.cpu w
      let n := (c.rd (wS2 i)).toNat
      match absCounter s.wells[w].mr (c.rd (wS1 i)) with
      | none => .fault 0x18 (c.rd (wS1 i)) s
      | some k =>
        if n = 0 ∨ 65535 < n then .fault 0x18 (c.rd (wS1 i)) s
        else .done { s with inflight := s.inflight ++ [InFlight.inc (.well w) k (BitVec.ofNat 32 n)] }) s

/-! Running descriptors. -/

/-- Whether a Pump runs: its domain is on, that of a well Pump being its well group's (R19), and its die has a clock (R503). -/
def pumpOn (s : State) (p : PumpId) : Bool := s.dieClocked && (match wellOfPump p with | some w => s.wellOn w | none => true)

/-- The descriptor whose accesses issue next: the first one that has not issued its whole shape, and none while one that has met
an error waits for its completion (R277). -/
def issuing (x : Pump) : Option Desc :=
  match x.queue.find? (fun d => d.err.isSome || !(d.started && decide (dTotal d.words ≤ d.pos))) with
  | some d => if d.err.isSome then none else some d
  | none => none

/-- Whether a resolved field translates the page of a VA (R283, R284). -/
def fieldHolds (r : W64) (page : Nat) (va : Nat) : Bool :=
  bitB r 63 && (fieldN r 60 2 == 0 || page == pageOf (fieldN r 60 2 == 2) (BitVec.ofNat 56 va))

/-- Whether the page of byte va of a side is resolved. -/
def sideHolds (d : Desc) (dst : Bool) (va : Nat) : Bool :=
  !dHas d.words dst || fieldHolds (if dst then d.rdst else d.rsrc) (if dst then d.vpD else d.vpS) va

/-- Global address of a side's address under its resolved field: own-well offsets lie in the submitting well. -/
def globalOf (s : State) (p : PumpId) (d : Desc) (dst : Bool) (a : Nat) : Nat :=
  match dMode d.words dst with
  | 0 =>
    let r := if dst then d.rdst else d.rsrc
    fieldN r 26 34 * 2 ^ 26 + a % (if fieldN r 60 2 = 2 then 2 ^ 32 else 2 ^ 26)
  | 1 => s.devId.toNat * 2 ^ 44 + (match wellOfPump p with | some w => wellAddr w a | none => 0x10000000000)
  | _ => a

/-- Where a global address leads (R27, R28). -/
inductive Target where
  | here (pa : Nat) | away (dev : BitVec 16) (la : Nat) | bad (st : BitVec 8)
  deriving DecidableEq, Repr

/-- R27 and R28. -/
def targetOf (s : State) (g : Nat) : Target :=
  if 2 ^ 60 ≤ g then .bad 0x01
  else if g / 2 ^ 44 = s.devId.toNat then .here (g % 2 ^ 44)
  else if s.devValid then .away (BitVec.ofNat 16 (g / 2 ^ 44)) (g % 2 ^ 44)
  else .bad 0x0F

/-- The addresses of a range at which its place can change: its ends and every multiple of 1 MiB between them (R16, R22, R23). -/
def rangeProbes (lo n : Nat) : List Nat :=
  lo :: (lo + (n - 1)) :: (List.range ((lo + (n - 1)) / 2 ^ 20 - lo / 2 ^ 20)).map (fun i => (lo / 2 ^ 20 + i + 1) * 2 ^ 20)

/-- A physical endpoint that names another basin's resources (R17, R268) or sets bits [63:60], in a shape of no bytes too (R28). -/
def physicalBad (s : State) (p : PumpId) (d : DWords) (dst : Bool) : Bool :=
  dHas d dst && dMode d dst == 2 && (List.range (dN1 d * dN2 d)).any (fun k =>
    (rangeProbes (dAddr d dst k 0) (dLen d)).any (fun g => decide (2 ^ 60 ≤ g) ||
      (dLen d != 0 && s.basinMode != 0 && decide (g / 2 ^ 44 = s.devId.toNat) &&
        (match basinOfPlace s.basinMode (placeOf (g % 2 ^ 44)) with
          | some b => b != basinOfPump s.basinMode p
          | none => false))))

/-- Whether a local address lies in a well's control registers. -/
def inWellRegs (pa : Nat) : Bool := match placeOf pa with | .well _ o => decide (0xF00000 ≤ o) | _ => false

/-- Whether a physical endpoint reaches a well's control registers of this device (R269). -/
def regsEnd (s : State) (d : Desc) (dst : Bool) : Bool :=
  dHas d.words dst && dMode d.words dst == 2 && (dRows d.words dst).any (fun r =>
    (rangeProbes r.1 r.2).any (fun g => decide (g / 2 ^ 44 = s.devId.toNat) && inWellRegs (g % 2 ^ 44)))

/-- Whether a local or remote address lies in a stack or the scratchpad (R267). -/
def centralPlace (g : Nat) : Bool := match placeOf (g % 2 ^ 44) with | .stack _ => true | .scratch _ => true | _ => false

/-- What a descriptor can be refused for when it starts (R28, R267-R269): the status. -/
def startError (s : State) (p : PumpId) (d : Desc) : Option (BitVec 8) :=
  let central := centralPlace (globalOf s p d true (dAddr d.words true 0 0))
  let odd (dst : Bool) : Bool := dBase d.words dst % 8 != 0 || dLen d.words % 8 != 0 || dStr1 d.words dst % 8 != 0 || dStr2 d.words dst % 8 != 0
  if physicalBad s p d.words false || physicalBad s p d.words true then some 0x01
  else if dKind d.words = 3 ∧ !central then some 0x0B
  else if dKind d.words = 4 ∧ !central then some 0x01
  else if (regsEnd s d false && odd false) || (regsEnd s d true && odd true) then some 0x02
  else none

/-- The first byte after the page that an endpoint's field holds, among the bytes that have not issued (R284). -/
def nextPage (d : Desc) (dst : Bool) : Option Nat :=
  let w := d.words
  let big := fieldN (if dst then d.rdst else d.rsrc) 60 2 == 2
  let page := if dst then d.vpD else d.vpS
  let k := d.pos / max 1 (dLen w)
  let j := d.pos % max 1 (dLen w)
  let rows := (dAddr w dst k j, dLen w - j) :: (List.range (dN1 w * dN2 w - (k + 1))).map (fun i => (dAddr w dst (k + 1 + i) 0, dLen w))
  ((rows.flatMap (fun r => (cutGranules r.1 r.2).map (fun c => c.1 % 2 ^ 56))).find? (fun va => pageOf big (BitVec.ofNat 56 va) != page))

/-- A descriptor that works on a page asks for the next one (R284). -/
def askAhead (p : PumpId) (d : Desc) (s : State) : State :=
  let ask (dst : Bool) (s : State) : State :=
    if !dVirtual d dst || (if dst then d.aheadD else d.aheadS) || d.asking dst then s
    else match nextPage d dst with
      | none => s
      | some va => requestXlate (frontOfPump p) (.pump p d.seq dst true) d.asid (BitVec.ofNat 56 va) (dNeed d.words dst)
          (modDesc p d.seq (fun x => if dst then { x with aheadD := true } else { x with aheadS := true }) s)
  ask true (ask false s)

/-- PUMP_DESCRIPTOR_START (R273). -/
def execPumpDescriptorStart (p : PumpId) (s : State) : Out :=
  .next (
    if !pumpOn s p then s
    else
      let x := s.pumps[p]
      match issuing x with
      | none => s
      | some d =>
        if d.started || d.waitCut || d.asking false || d.asking true then s
        else if dWaitc d.words && !counterAtLeast s d.wctr (dWthr d.words) then s
        else if dOrd d.words && x.queue.head?.map (·.seq) != some d.seq then s
        else if !(sideHolds d false (dAddr d.words false 0 0) && sideHolds d true (dAddr d.words true 0 0)) then s
        else match startError s p d with
          | some st => failDesc p d.seq st s
          | none => askAhead p { d with started := true } (modDesc p d.seq (fun x => { x with started := true }) s))

/-- The next access of a descriptor: row, byte of the row, length. Accesses hold at most 512 B and do not cross a 512 B
boundary at either end. -/
structure Access where
  src : Nat
  dst : Nat
  n   : Nat
  row : Nat
  off : Nat
  deriving DecidableEq, Repr

/-- R274. -/
def nextAccess (d : Desc) : Access :=
  let w := d.words
  let row := d.pos / max 1 (dLen w)
  let off := d.pos % max 1 (dLen w)
  let sa := dAddr w false row off
  let da := dAddr w true row off
  let n := min (dLen w - off) (512 - da % 512)
  { src := sa, dst := da, n := if dHas w false then min n (512 - sa % 512) else n, row := row, off := off }

/-- The access of a descriptor that reaches a well's control registers: one whole 8 B word (R269). -/
def accessOf (s : State) (d : Desc) : Access :=
  let a := nextAccess d
  if regsEnd s d false || regsEnd s d true then { a with n := 8 } else a

/-- Whether a byte of the shape from position pos on lies in the 512 B slot at lo on a side (R239). -/
def touchesFrom (d : Desc) (dst : Bool) (pos lo : Nat) : Bool :=
  let w := d.words
  let k := pos / max 1 (dLen w)
  let j := pos % max 1 (dLen w)
  let r := dAddr w dst k j
  decide (k < dN1 w * dN2 w ∧ r < lo + 512 ∧ lo < r + (dLen w - j)) ||
    (List.range (dN1 w * dN2 w)).any (fun i => decide (k < i) &&
      (let r := dAddr w dst i 0
       decide (r < lo + 512 ∧ lo < r + dLen w)))

/-- The last byte of a slot of the shape has been moved: none is left to issue from position pos on, and none that is to land in it is
outstanding (R239). -/
def slotMoved (s : State) (p : PumpId) (d : Desc) (dst : Bool) (pos lo : Nat) : Bool :=
  !touchesFrom d dst pos lo && (!dst || !s.far.remote.any (fun q => q.pump == p && q.seq == d.seq &&
    (match q.dest with | some (_, some a) => decide (a < lo + 512 ∧ lo < a + q.bytes) | _ => false)))

/-- What preparing one end of an access answers. -/
inductive Prep where
  | go (s : State) | hold (s : State) | fail (st : BitVec 8) (s : State)

/-- The use of store tags on a side (R265, R275). -/
def tagUse (d : DWords) (dst : Bool) : Option TagUse :=
  if dst then (if dDstTag d = 1 then some .produce else none)
  else if dSrcTag d = 1 then some .leaveFull else if dSrcTag d = 2 then some .consume else none

/-- The tag side of an end in well w's stores (R238-R240, R253): each slot is claimed, or the Pump waits for the first that cannot be. -/
def prepTag (p : PumpId) (d : Desc) (w : WellId) (u : TagUse) : List SlotId → State → Prep
  | [], s => .go s
  | k :: ks, s =>
    let me : TagAgent := .pump p d.seq
    let t := s.wells[w].st
    if t.scoreboard then .go s
    else if t.tagBad.any (fun g => g.1.val == k.val / 64) then
      .hold (modDesc p d.seq (fun x => { x with waiting := true }) (noteTagParity w [k] s))
    else if tagReady t me u k then
      prepTag p d w u ks (s.modSt w (fun t =>
        let t := { t with waiters := t.waiters.filter (fun x => !(x.slot == k && x.agent == me)) }
        if u == .leaveFull || t.claim k == some me then t else { t with claims := (k, me) :: t.claims }))
    else .hold (modDesc p d.seq (fun x => { x with waiting := true }) (s.modSt w (fun t => t.await me u k)))

/-- In scoreboard mode an access to the well's own stores stays within an entry that the descriptor holds (R245). -/
def outsideEntries (s : State) (p : PumpId) (d : Desc) (w : WellId) (o n : Nat) (write : Bool) : Bool :=
  s.wells[w].st.scoreboard && wellOfPump p == some w &&
    !d.spans.any (fun sp => sp.write == write && decide (sp.lo.toNat ≤ o ∧ o + n ≤ sp.hi.toNat + 1))

/-- One local end of an access: what refuses it (R21, R26, R92, R245, R247, R255, R269, R300), what holds it (R239, R419, R428). -/
def prepEnd (p : PumpId) (d : Desc) (dst : Bool) (pa n : Nat) (s : State) : Prep :=
  let mode := dMode d.words dst
  match placeOf pa with
  | .stack _ | .scratch _ =>
    match centralRefusal s pa with
    | some st => .fail st s
    | none =>
      if captureHeld s pa n then .hold s
      else if dst then (let c := captureFor pa n s; if c.1 then .hold c.2 else .go c.2)
      else .go s
  | .well w o =>
    if !s.wellOn w then .fail stDomainOff s
    else if o < 0x700000 then
      (match storeRefusal s w o n (wellOfPump p == some w) with
        | some st => .fail st s
        | none =>
          if outsideEntries s p d w o n dst then .fail stScoreboard s
          else match tagUse d.words dst with
            | some u => prepTag p d w u (slotsOf o n) s
            | none => .go s)
    else if mode = 0 then .fail stUnmapped s
    else if o + n ≤ 0x720000 then .go s
    else if mode = 2 ∧ 0xF00000 ≤ o then (if dst && mailWaits s w o then .hold s else .go s)
    else .fail stUnmapped s
  | _ => .fail stUnmapped s

/-- Registers read in whole words. -/
def readRegs (w : WellId) : Nat → Nat → State → List Byte × State
  | _, 0, s => ([], s)
  | o, n + 1, s =>
    let r := readWellReg w o s
    let q := readRegs w (o + 8) n r.2
    (wordBytes r.1 ++ q.1, q.2)

/-- Registers written in whole words by a Pump, on behalf of the ring-0 software that submitted it. -/
def writeRegs (w : WellId) : Nat → List Byte → Nat → State → State
  | _, _, 0, s => s
  | o, bs, n + 1, s => writeRegs w (o + 8) (bs.drop 8) n (writeWellReg .windlass w o (bytesWord (bs.take 8)) s)

/-- Reading the bytes of a local end (R251, R277, R314): the status where they cannot be delivered. -/
def readEnd (urgent : Bool) (source pa n : Nat) (s : State) : (Except (BitVec 8) (List Byte)) × State :=
  match placeOf pa with
  | .well w o =>
    if 0xF00000 ≤ o then (let r := readRegs w o (n / 8) s; (.ok r.1, r.2))
    else
      let r := eccRead w source o n s
      (if r.1.isSome then .error stStoreErr else .ok (r.2.readBytes pa n), r.2)
  | _ =>
    let r := centralRead urgent pa n s
    (match r.1 with | some bs => .ok bs | none => .error stMemErr, r.2)

/-- Writing the bytes of a local end. -/
def writeEnd (pa : Nat) (bs : List Byte) (s : State) : State :=
  match placeOf pa with
  | .well w o => if 0xF00000 ≤ o then writeRegs w o bs (bs.length / 8) s else s.writeBytes pa bs
  | _ => centralWrite pa bs s

/-- The bytes of n at an end have been read or written, and the shape goes on from position pos: the tag of every slot whose last byte
this was changes (R239). a is the end's address on its side of the shape. -/
def finishTag (p : PumpId) (d : Desc) (dst : Bool) (pos a pa n : Nat) (s : State) : State :=
  match placeOf pa, tagUse d.words dst with
  | .well w o, some u =>
    if o < 0x700000 && !s.wells[w].st.scoreboard then
      (slotsOf o n).zipIdx.foldl (fun s k =>
        if slotMoved s p d dst pos ((a / 512 + k.2) * 512) then s.modSt w (fun t => t.useSlot (.pump p d.seq) u k.1) else s) s
    else s
  | _, _ => s

/-- An access has issued: the descriptor goes on. -/
def advance (p : PumpId) (d : Desc) (n : Nat) (s : State) : State :=
  modDesc p d.seq (fun x => { x with pos := x.pos + n, waiting := false }) s

/-- The shape's ends overlap on this access's pages, so any mixture of old and new bytes may result (R267). -/
def endsOverlap (d : Desc) (a : Access) (sg dg : Nat) : Bool :=
  let hs := dHull d.words false
  let hd := dHull d.words true
  let ds : Int := (sg : Int) - a.src
  let dd : Int := (dg : Int) - a.dst
  decide (hs.1 + ds < hd.2 + dd ∧ hd.1 + dd < hs.2 + ds) ||
    (dMode d.words false == dMode d.words true && decide (hs.1 < hd.2 ∧ hd.1 < hs.2))

/-- A free mixture of old and new bytes. -/
def mixture (olds news : List Byte) (s : State) : List Byte × State :=
  (((olds.zip news).zip (List.range news.length)).map (fun x =>
    if bitB (Config.freeWord (s.free + x.2 / 64)) (x.2 % 64) then x.1.2 else x.1.1),
   { s with free := s.free + (news.length + 63) / 64 })

/-- Links' share of the Pump limit of R274 for a Pump's basin (R363). -/
def portLimit (s : State) (p : PumpId) (l : LinkId) : Nat :=
  if s.basinMode = 0 then 262144
  else
    let ws := s.far.links[l].weirs
    let sum := ws.toList.foldl (fun acc x => acc + (if x.en then x.floor.toNat else 0)) 0
    let b := Fin.ofNat 4 (basinOfPump s.basinMode p)
    if sum = 0 then 262144 else 262144 * ws[b].floor.toNat / sum

/-- Remote bytes outstanding for a Pump, and for the Pumps of p's basin at a link (R274, R363). -/
def outstandingOf (s : State) (p : PumpId) : Nat := (s.far.remote.filter (fun q => q.pump == p)).foldl (fun acc q => acc + q.bytes) 0
def outstandingAt (s : State) (p : PumpId) (l : LinkId) : Nat :=
  (s.far.remote.filter (fun q => q.link == l && basinOfPump s.basinMode q.pump == basinOfPump s.basinMode p)).foldl (fun acc q => acc + q.bytes) 0

/-- Whether a link admits n more bytes of a Pump's accesses (R274). -/
def portAdmits (s : State) (p : PumpId) (l : LinkId) (n : Nat) : Bool :=
  decide (outstandingAt s p l + n ≤ portLimit s p l ∧ outstandingOf s p + n ≤ 2097152 ∧ s.far.remote.length < 4096)

/-- A tag that no outstanding access uses. -/
def freeTag (s : State) : BitVec 12 :=
  BitVec.ofNat 12 (s.far.nextTag.toNat + ((findBelow 4096 (fun k => !s.far.remote.any (fun q => q.tag == s.far.nextTag + BitVec.ofNat 12 k))).getD 0))

/-- The reach of the job that owns the Pump's well escapes (R422). -/
def markEscape (p : PumpId) (s : State) : State :=
  match wellOfPump p with
  | some w => (match s.wellJob[w] with | some k => s.modJob k (fun j => { j with escaped := true }) | none => s)
  | none => s

/-- An access to another device issues (R27, R274, R364, R365): none where the port grants no credit. READ's LEN is the number of
bytes it asks for. -/
def sendRemote (p : PumpId) (d : Desc) (kind : Nat) (dev : BitVec 16) (la n : Nat) (data : List Byte) (dest : Option (BitVec 64 × Option Nat))
    (ret : Option (BitVec 24)) (s : State) : Prep :=
  let flow := (Config.flowNumber p.val d.seq.toNat).toNat
  match pickLink s 2 s.devId dev flow with
  | none => .fail 0x04 (countDrop dev s)
  | some l =>
    if !linkBridgeOn s l then .fail stDomainOff s
    else if !portAdmits s p l n then .hold s
    else
      let tag := freeTag s
      let len := if kind = 1 then n else data.length
      let r := sendPacket (Fin.ofNat 4 (basinOfPump s.basinMode p)) (mkPacket kind 2 0 s.devId dev tag len flow la data) s
      match r.1 with
      | none => .fail 0x04 r.2
      | some l =>
        let q : RemoteReq := { tag := tag, pump := p, seq := d.seq, link := l, dev := dev, bytes := n, dest := dest, ret := ret }
        let s := r.2.modFar (fun x => { x with remote := x.remote ++ [q], nextTag := tag + 1 })
        .go (markEscape p (modDesc p d.seq (fun x => { x with remote := x.remote + n }) s))

/-- Paths of a Pump's access to one end (R318): the hybrid bond for a well's Pump, the bridge between the halves, and the bridge to the I/O
die of the link that carries a remote end. -/
def endNeed (s : State) (p : PumpId) (d : Desc) (dst : Bool) (g n : Nat) : List WeirNeed :=
  let half : HalfId := match wellOfPump p with | some w => halfOfPlace s.basinMode (wellAddr w 0) | none => if p.val < 264 then 0 else 1
  let basin := Fin.ofNat 4 (basinOfPump s.basinMode p)
  let paths : List WeirPath :=
    if !dHas d.words dst then []
    else match targetOf s g with
      | .here pa => (match placeOf pa with
          | .stack _ | .scratch _ => if p.val < 256 then dieNeed half (halfOf s.basinMode pa) (!dst) else bridgeNeed half (halfOf s.basinMode pa) (!dst)
          | _ => [])
      | .away dev _ => (match pickLink s 2 s.devId dev (Config.flowNumber p.val d.seq.toNat).toNat with
          | some l => ioNeed (if l.val < 18 then 0 else 1) half dst
          | none => [])
      | .bad _ => []
  paths.map (fun q => { path := q, basin := basin, bytes := n })

/-- The bytes of an access cross its weirs, or wait there (R318). -/
def crossWeirs (p : PumpId) (d : Desc) (sg dg n : Nat) (s : State) : Prep :=
  let r := weirCross (.pump p d.seq) (endNeed s p d false sg n ++ endNeed s p d true dg n) s
  if r.1 then .go r.2 else .hold r.2

/-- What to do after a preparation. -/
def Prep.andThen (r : Prep) (p : PumpId) (d : Desc) (f : State → State) : State :=
  match r with
  | .go s => f s
  | .hold s => s
  | .fail st s => failDesc p d.seq st s

/-- The data of a write is at hand: it goes to the destination of the access. -/
def putData (p : PumpId) (d : Desc) (a : Access) (dg : Nat) (bs : List Byte) (s : State) : State :=
  match targetOf s dg with
  | .bad st => failDesc p d.seq st s
  | .here pa => advance p d a.n (finishTag p d true (d.pos + a.n) a.dst pa a.n (writeEnd pa bs s))
  | .away dev la => (sendRemote p d 2 dev la a.n bs none none s).andThen p d (fun s => advance p d a.n s)

/-- One access of a COPY (R266, R267): both ends are prepared, then the bytes move. -/
def copyAccess (p : PumpId) (d : Desc) (a : Access) (s : State) : State :=
  let sg := globalOf s p d false a.src
  let dg := globalOf s p d true a.dst
  let prepDst (s : State) : Prep := match targetOf s dg with
    | .bad st => .fail st s
    | .here pa => prepEnd p d true pa a.n s
    | .away dev _ => (match pickLink s 2 s.devId dev (Config.flowNumber p.val d.seq.toNat).toNat with
        | none => .fail 0x04 (countDrop dev s)
        | some l => if !linkBridgeOn s l then .fail stDomainOff s else if portAdmits s p l a.n then .go s else .hold s)
  match targetOf s sg with
  | .bad st => failDesc p d.seq st s
  | .here pa =>
    (prepEnd p d false pa a.n s).andThen p d (fun s =>
      (prepDst s).andThen p d (fun s => (crossWeirs p d sg dg a.n s).andThen p d (fun s =>
        let r := readEnd (dUrgent d.words) 3 pa a.n s
        match r.1 with
        | .error st => failDesc p d.seq st r.2
        | .ok bs =>
          let s := finishTag p d false (d.pos + a.n) a.src pa a.n r.2
          match targetOf s dg with
          | .here da => if endsOverlap d a sg dg then
              (let m := mixture (s.readBytes da a.n) bs s
               putData p d a dg m.1 m.2) else putData p d a dg bs s
          | _ => putData p d a dg bs s)))
  | .away dev la =>
    (prepDst s).andThen p d (fun s => (crossWeirs p d sg dg a.n s).andThen p d (fun s =>
      (sendRemote p d 1 dev la a.n [] (some (BitVec.ofNat 64 dg, if (tagUse d.words true).isSome then some a.dst else none)) none s).andThen p d
        (fun s => advance p d a.n s)))

/-- A COPY, FILL, ZERO or ATOMIC access (R267). -/
def oneAccess (p : PumpId) (d : Desc) (s : State) : State :=
  let a := accessOf s d
  let w := d.words
  let dg := globalOf s p d true a.dst
  let store (bs : List Byte) : State := match targetOf s dg with
    | .here pa => (prepEnd p d true pa a.n s).andThen p d (fun s =>
        (crossWeirs p d 0 dg a.n s).andThen p d (fun s => putData p d a dg bs s))
    | _ => (crossWeirs p d 0 dg a.n s).andThen p d (fun s => putData p d a dg bs s)
  match dKind w with
  | 1 => copyAccess p d a s
  | 2 => store ((List.range a.n).map (fun i => (w[1].extractLsb' (8 * ((a.dst + i) % 8)) 8)))
  | 3 =>
    let op := (aopOf (fieldN w[3] 0 4)).getD .add
    let ret : Option (BitVec 24) := if bitB w[5] 63 then some (w[5].extractLsb' 0 24) else none
    (match targetOf s dg with
      | .bad st => failDesc p d.seq st s
      | .here pa => (prepEnd p d true pa 8 s).andThen p d (fun s => (crossWeirs p d 0 dg 8 s).andThen p d (fun s =>
          let r := centralAtomic op pa w[1] w[4] s
          match r.1 with
          | none => failDesc p d.seq stMemErr r.2
          | some old =>
            let s := match ret, wellOfPump p with | some o, some v => r.2.writeWord (wellAddr v o.toNat) old | _, _ => r.2
            advance p d 8 s))
      | .away dev la =>
        let data := wordBytes (w64 (fieldN w[3] 0 4)) ++ wordBytes w[1] ++ wordBytes w[4]
        (sendRemote p d 3 dev la 8 data none ret s).andThen p d (fun s => advance p d 8 s))
  | _ =>
    if dg < 2 ^ 60 && !centralPlace dg then failDesc p d.seq 0x01 s
    else match targetOf s dg with
      | .here pa => (prepEnd p d true pa a.n s).andThen p d (fun s =>
          (crossWeirs p d 0 dg a.n s).andThen p d (fun s => advance p d a.n (centralZero pa a.n s)))
      | _ => (crossWeirs p d 0 dg a.n s).andThen p d (fun s => putData p d a dg (List.replicate a.n 0) s)

/-- PUMP_ACCESS_ISSUE (R274, R284): the next access of the running descriptor. -/
def execPumpAccessIssue (p : PumpId) (s : State) : Out :=
  .next (
    if !pumpOn s p then s
    else match issuing s.pumps[p] with
    | none => s
    | some d =>
      if !d.started then s
      else
        let a := accessOf s d
        if sideHolds d false a.src && sideHolds d true a.dst then oneAccess p d (askAhead p d s) else s)

/-- PUMP_PAGE_CROSSING (R284, R286): the pages that the next access needs and the fields do not hold are asked for, once no earlier
request of the endpoint is open. -/
def execPumpPageCrossing (p : PumpId) (s : State) : Out :=
  .next (
    if !pumpOn s p then s
    else match issuing s.pumps[p] with
    | none => s
    | some d =>
      if !d.started then s
      else
        let a := accessOf s d
        let ask (dst : Bool) (va : Nat) (s : State) : State :=
          if sideHolds d dst va || d.asking dst then s
          else requestXlate (frontOfPump p) (.pump p d.seq dst false) d.asid (BitVec.ofNat 56 va) (dNeed d.words dst)
            (modDesc p d.seq (fun x => if dst then { x with rdst := 0 } else { x with rsrc := 0 }) s)
        ask true a.dst (ask false a.src s))

/-- PUMP_DESCRIPTOR_COMPLETE (R276): the head has issued its whole shape and nothing is outstanding. -/
def execPumpDescriptorComplete (p : PumpId) (s : State) : Out :=
  .next (match s.pumps[p].queue with
    | [] => s
    | d :: _ => if d.started && d.err.isNone && decide (dTotal d.words ≤ d.pos) && d.remote == 0 then endOk p d s else s)

/-- PUMP_ERROR_COMPLETE (R277). -/
def execPumpErrorComplete (p : PumpId) (s : State) : Out :=
  .next (match s.pumps[p].queue with
    | [] => s
    | d :: _ => match d.err with
      | some e => if d.remote = 0 then endBad p d e s else s
      | none => s)

/-- PU_CTL_DROP (R291). -/
def execPuCtlDrop (w : WellId) (drop : BitVec 2) (s : State) : Out := .next (writePuCtl w (drop.setWidth 64) s)

/-- INVALIDATION_CUT (R290). -/
def execInvalidationCut (s : State) : Out := .next (cutInval s)

/-- INVALIDATION_COMPLETE (R290): every access from before the cut has completed; the named counter is incremented. -/
def execInvalidationComplete (s : State) : Out :=
  .next (match s.invals with
    | [] => s
    | v :: r =>
      if !v.cut || v.tags.any (fun t => s.far.remote.any (fun q => q.tag == t)) then s
      else
        -- an invalidation of Headwater's that waited is admitted in its place
        let s := { s with invals := r }
        let s := match s.hw.invWait with
          | a :: q => admitInval a none none { s with hw := { s.hw with invWait := q } }
          | [] => s
        match v.ctr with
        | some c => { s with inflight := s.inflight ++ [InFlight.inc .inval c 1] }
        | none => s)

/-- Descriptors at the head of a dropped queue that have nothing outstanding complete in order (R291). -/
def finishDropped (p : PumpId) (s : State) : State :=
  (List.range (s.pumps[p].queue.length)).foldl (fun (s : State) _ =>
    match s.pumps[p].queue with
    | d :: _ => (match d.err with | some e => if d.remote = 0 then endBad p d e s else s | none => s)
    | [] => s) s

end Sys2Proof.Machine
end

