-- ==== Sys2Proof/Machine/LoadStore.lean ====
section
/-! DEFINITION. CLASS 0x1: loads and stores, the load delay, the store buffer, and the instruction cache's fills (R170-R179,
R188-R196). -/

namespace Sys2Proof.Machine

/-- Effective address (R170). -/
def effAddr (c : Windlass) (i : W64) : W64 := c.rd (wS1 i) + imm20 i

/-- Whether an address with its size is misaligned as R191 has it: a quadword off 16, or a control register access that is not
8 B at 8 B. -/
def misaligned (o n : Nat) (quad : Bool) : Bool :=
  (quad && o % 16 != 0) || (decide (0xF00000 ≤ o ∧ o < 0x1000000) && (n != 8 || o % 8 != 0))

/-- The faults of group 5 of R212 in their order: MISALIGNED, MISALIGNED_SPAN, ADDR_UNMAPPED, ACCESS_RING. An access with a byte
outside every region is ADDR_UNMAPPED and not MISALIGNED_SPAN (R193). -/
def addressFault (c : Windlass) (o n : Nat) (quad : Bool) : Option (BitVec 8) :=
  if misaligned o n quad then some 0x10
  else
    let rs := (List.range n).map (fun k => regionOf c.drlim (o + k))
    if rs.any (·.isNone) then some 0x12
    else if rs.any (· != rs.headD none) then some 0x11
    else match rs.headD none with
      | some r => if r.maxRing < c.eff.ring.toNat then some 0x13 else none
      | none => some 0x12

/-- The halves of an access: the parts in each aligned 8 B word; a quadword is a single access (R191). -/
def halves (o n : Nat) (quad : Bool) : List (Nat × Nat) :=
  if quad || decide (o / 8 = (o + n - 1) / 8) then [(o, n)]
  else
    let b := (o / 8 + 1) * 8
    [(o, b - o), (b, o + n - b)]

/-- The faults of group 6 of R212 over the halves: BANK_CLOSED, then MR_TILE_BUSY, with the first byte of the faulting half
(R92, R192, R255). -/
def checkFault (u : Well) (hs : List (Nat × Nat)) : Option (BitVec 8 × W64) :=
  match hs.find? (fun h => inStores h.1 && !banksOpen u.st h.1 h.2) with
  | some h => some (0x14, w64 h.1)
  | none => (hs.find? (fun h => inStores h.1 && hitsBusy u.mr h.1 h.2)).map (fun h => (0x2E, w64 h.1))

/-- Why a scalar access waits for the well's own asynchronous work: a range entry in scoreboard mode (R246), the span of an
incomplete Flume memory instruction in tag service (R151). -/
def accessHold (s : State) (w : WellId) (o n : Nat) (store : Bool) : Option Stall :=
  let u := s.wells[w]
  let sp := mkSpan o n store
  let hits (q : Span) : Bool := spanOverlap q sp && (store || q.write)
  if inStores o && u.st.scoreboard then (if (heldEntries s w).any (fun e => hits e.2) then some .scoreboard else none)
  else if u.flume.window.any (fun e => match e.span with | some q => hits q | none => false) then some .flumeSpan
  else none

/-- An entry's enabled bytes meet [o, o + n) (R195). -/
def SbEntry.meets (e : SbEntry) (o n : Nat) : Bool := e.bytes.any (fun b => decide (o ≤ b.1 ∧ b.1 < o + n))

/-- An entry holds every byte of [o, o + n). -/
def SbEntry.holds (e : SbEntry) (o n : Nat) : Bool :=
  (List.range n).all (fun k => e.bytes.any (fun b => b.1 == o + k))

/-- The entries up to and including the last one that satisfies p, and the rest. -/
def splitLast (p : SbEntry → Bool) (l : List SbEntry) : List SbEntry × List SbEntry :=
  let tail := (l.reverse.takeWhile (fun e => !p e)).reverse
  (l.take (l.length - tail.length), tail)

/-- Entries drain in order until none overlaps the bytes (R195). -/
def drainThrough (w : WellId) (o n : Nat) (s : State) : State :=
  let r := splitLast (fun e => e.meets o n) (s.cpu w).storeBuf
  (r.1.foldl (fun s e => s.drainEntry w e) s).modCpu w (fun c => { c with storeBuf := r.2 })

/-- The bytes that a load reads (R195, R251): from the youngest overlapping entry where it holds them all, else from memory after
the overlapping entries have drained; none where the memory's word is bad. -/
def loadBytes (w : WellId) (o n : Nat) (s : State) : Option (List Byte) × State :=
  match (s.cpu w).storeBuf.reverse.find? (fun e => e.meets o n) with
  | some e =>
    if e.holds o n then
      (some ((List.range n).map (fun k => ((e.bytes.find? (fun b => b.1 == o + k)).map (·.2)).getD 0)), s)
    else
      let s := drainThrough w o n s
      let r := eccRead w 0 o n s
      (if r.1.isSome then none else some (r.2.readBytes (wellAddr w o) n), r.2)
  | none =>
    let r := eccRead w 0 o n s
    (if r.1.isSome then none else some (r.2.readBytes (wellAddr w o) n), r.2)

/-- The value that a load of an OPCODE delivers (R170). -/
def loadValue (op : Nat) (bs : List Byte) : BitVec 128 :=
  let v := ofBytes bs
  let n := 8 * bs.length
  if op ≤ 0x004 then ((BitVec.ofInt 64 (signedN n v)).setWidth 128) else BitVec.ofNat 128 v

/-- Opening a load's window (R173): N instructions follow, and the load counts itself when it completes. -/
def openLoad (w : WellId) (d : LoadDest) (v : Option (BitVec 128)) (ea : W64) (o : Nat) (s : State) : State :=
  let n := if 0x700000 ≤ o ∧ o < 0x720000 then 2 else 5
  s.modCpu w (fun c => { c with loads := c.loads ++ [{ dest := d, value := v, ea := ea, left := n + 1 }] })

/-- The body of a load (R170-R174, R179, R191-R196). A load to g0 opens no window, but where its data is bad STORE_ERR still comes due
as the window would close. -/
def loadBody (w : WellId) (i : W64) (n : Nat) (dest : Windlass → Option LoadDest) (s : State) : CpuRes :=
  let c := s.cpu w
  let ea := effAddr c i
  let o := ea.toNat
  let quad := n == 16
  match addressFault c o n quad with
  | some code => .fault code ea s
  | none =>
    if 0xF00000 ≤ o then
      let r := readWellReg w o (s.drainAll w)
      .done (match dest c with | some d => openLoad w d (some (r.1.setWidth 128)) ea o r.2 | none => r.2)
    else match accessHold s w o n false with
    | some why => .wait why s
    | none =>
      match checkFault s.wells[w] (halves o n quad) with
      | some f => .fault f.1 f.2 s
      | none =>
        let r := loadBytes w o n s
        .done (match dest c, r.1 with
          | some d, v => openLoad w d (v.map (loadValue (wOp i))) ea o r.2
          | none, some _ => r.2
          | none, none => openLoad w (.g c.eff.bank 0) none ea o r.2)

/-- LD (R170). -/
def execLd (w : WellId) (i : W64) (s : State) : Out :=
  let size := match wOp i with | 1 => 1 | 5 => 1 | 2 => 2 | 6 => 2 | 3 => 4 | 7 => 4 | _ => 8
  issue w i { mnemonic := "LD", cls := 1, lo := 0x001, hi := 0x007, legal := fun i => noS2 i && noS3 i && immZero i 20 10 }
    (fun c => { reads := gRefs c [wS1 i], writes := gRefs c [wDest i], opens := wDest i != 0 })
    (loadBody w i size (fun c => if wDest i = 0 then none else some (.g c.eff.bank (wDest i)))) s

/-- LDQ (R170). -/
def execLdq (w : WellId) (i : W64) (s : State) : Out :=
  issue w i { mnemonic := "LDQ", cls := 1, lo := 0x008, hi := 0x008,
              legal := fun i => noS2 i && noS3 i && immZero i 20 10 && qOk (wDest i) }
    (fun c => { reads := gRefs c [wS1 i], writes := [.q (qReg (wDest i))], opens := true })
    (loadBody w i 16 (fun _ => some (.q (qReg (wDest i))))) s

/-- The store-buffer entries of a store, one for each aligned word it touches (R194). -/
def storeEntries (o : Nat) (bs : List Byte) : List SbEntry :=
  ((List.range ((o + bs.length - 1) / 8 - o / 8 + 1)).map (fun k =>
    let a := (o / 8 + k) * 8
    let ins := (List.range 8).filter (fun j => decide (o ≤ a + j ∧ a + j < o + bs.length))
    { word := BitVec.ofNat 24 a
      be := ins.foldl (fun (m : BitVec 8) j => m ||| (1#8 <<< j)) 0
      data := ins.foldl (fun (v : W64) j => v ||| putN (8 * j) (bs.getD (a + j - o) 0).toNat) 0 }))

/-- Room for k entries: the oldest drain first (R194). -/
def drainFor (w : WellId) (k : Nat) (s : State) : State :=
  let b := (s.cpu w).storeBuf
  let out := b.take (b.length + k - 4)
  (out.foldl (fun s e => s.drainEntry w e) s).modCpu w (fun c => { c with storeBuf := b.drop (b.length + k - 4) })

/-- The body of a store (R170-R172, R191-R196). -/
def storeBody (w : WellId) (i : W64) (data : Windlass → List Byte) (s : State) : CpuRes :=
  let c := s.cpu w
  let ea := effAddr c i
  let o := ea.toNat
  let bs := data c
  let n := bs.length
  let quad := n == 16
  match addressFault c o n quad with
  | some code => .fault code ea s
  | none =>
    if 0xF00000 ≤ o then
      (let s := s.drainAll w
       if mailWaits s w o then .wait .mailWait s else .done (writeWellReg .windlass w o (bytesWord bs) s))
    else match accessHold s w o n true with
    | some why => .wait why s
    | none =>
      match checkFault s.wells[w] (halves o n quad) with
      | some f => .fault f.1 f.2 s
      | none =>
        let es := storeEntries o bs
        .done ((drainFor w es.length s).modCpu w (fun c => { c with storeBuf := c.storeBuf ++ es }))

/-- ST (R170). -/
def execSt (w : WellId) (i : W64) (s : State) : Out :=
  let size := match wOp i with | 0x11 => 1 | 0x12 => 2 | 0x13 => 4 | _ => 8
  issue w i { mnemonic := "ST", cls := 1, lo := 0x011, hi := 0x014, legal := fun i => noDest i && noS3 i && immZero i 20 10 }
    (fun c => { reads := gRefs c [wS1 i, wS2 i], writes := [], opens := false })
    (storeBody w i (fun c => toBytes size (c.rd (wS2 i)).toNat)) s

/-- STQ (R170). -/
def execStq (w : WellId) (i : W64) (s : State) : Out :=
  issue w i { mnemonic := "STQ", cls := 1, lo := 0x018, hi := 0x018,
              legal := fun i => noDest i && noS3 i && immZero i 20 10 && qOk (wS2 i) }
    (fun c => { reads := gRefs c [wS1 i] ++ [.q (qReg (wS2 i))], writes := [], opens := false })
    (storeBody w i (fun c => toBytes 16 (c.q[qReg (wS2 i)]).toNat)) s

/-- LOAD_WINDOW_CLOSE (R173): loads whose windows have run out write their destinations; one whose data is bad waits for
STORE_ERR (R179). -/
def execLoadWindowClose (w : WellId) (s : State) : Out :=
  .next (if (s.cpu w).badDue.isSome then s else s.closeDue w)

/-- STORE_BUFFER_DRAIN (R194): the oldest entry drains. -/
def execStoreBufferDrain (w : WellId) (s : State) : Out :=
  .next (match (s.cpu w).storeBuf with
    | [] => s
    | e :: r => if s.wellOn w then (s.drainEntry w e).modCpu w (fun c => { c with storeBuf := r }) else s)

/-! The instruction cache. -/

/-- What fetching a line at a global address gives: the bytes, or the CAUSE of the fetch fault (R190); none where the access is
held. -/
inductive FetchRes where
  | line (bs : List Byte) (s : State) | fault (code : BitVec 8) (s : State) | held (s : State)

/-- R190. -/
def fetchLine (w : WellId) (g : Nat) (s : State) : FetchRes :=
  if g / 2 ^ 44 ≠ s.devId.toNat then .fault 0x03 s
  else
    let pa := g % 2 ^ 44
    match placeOf pa with
    | .stack _ | .scratch _ =>
      if (centralRefusal s pa).isSome then .fault 0x03 s
      else if captureHeld s pa 64 then .held s
      else
        let need := (dieNeed (halfOfPlace s.basinMode (wellAddr w 0)) (halfOf s.basinMode pa) true).map (fun p =>
          ({ path := p, basin := Fin.ofNat 4 (basinOfWellN s.basinMode w), bytes := 64 } : WeirNeed))
        let c := weirCross (.fetch w) need s
        if !c.1 then .held c.2
        else
          let r := centralRead true pa 64 c.2
          (match r.1 with | some bs => .line bs r.2 | none => .fault 0x05 r.2)
    | .well v o =>
      if (storeRefusal s v o 64 (v == w)).isSome then .fault 0x03 s
      else
        let r := eccRead v (if v = w then 0 else 5) o 64 s
        if r.1.isSome then .fault 0x05 r.2 else .line (r.2.readBytes pa 64) r.2
    | _ => .fault 0x03 s

/-- A fetch fault reaches the instruction it concerns: the one at the pc (R190). -/
def setFetchFault (w : WellId) (va : BitVec 56) (code : BitVec 8) (s : State) : State :=
  s.modCpu w (fun c => if c.pc.toNat / 64 = va.toNat / 64 then
    { c with fetchFault := some { code := code, info := c.pc.setWidth 64 }, stall := none } else c)

/-- The next sequential line is fetched where its translation is at hand and nothing refuses it (R188). -/
def prefetch (w : WellId) (va : BitVec 56) (asid : BitVec 16) (s : State) : State :=
  match tlbFind s.fronts[frontOfWell w] asid va with
  | none => s
  | some e =>
    if !rightsHold e.rights rightR || (recordFor s.fronts[frontOfWell w] asid va).isSome then s
    else match fetchLine w (e.addr va.toNat / 64 * 64) (tlbPut (frontOfWell w) e s) with
      | .line bs s => s.modCpu w (fun c => { c with icache := icachePut { asid := asid, line := va.extractLsb' 6 50, data := bs, bad := false } c.icache })
      | .fault _ s => s
      | .held s => s

/-- ICACHE_LINE_FILL (R188, R190): the missing line is translated and read; without a cached translation a walk starts. -/
def execIcacheLineFill (w : WellId) (va : BitVec 56) (s : State) : Out :=
  .next (
    if !s.wellOn w then s
    else
      let f := frontOfWell w
      let asid := (s.cpu w).fetchAsid
      let walk (s : State) : State :=
        if s.fronts[f].walks.any (fun k => k.reqs.any (fun q => q.1 == .fetch w)) then s else requestXlate f (.fetch w) asid va rightR s
      match tlbFind s.fronts[f] asid va with
      | none => walk s
      | some e =>
        if !rightsHold e.rights rightR || (recordFor s.fronts[f] asid va).isSome then walk s
        else match fetchLine w (e.addr va.toNat / 64 * 64) (tlbPut f e s) with
          | .line bs s =>
            prefetch w (va + 64) asid (s.modCpu w (fun c =>
              { c with icache := icachePut { asid := asid, line := va.extractLsb' 6 50, data := bs, bad := false } c.icache }))
          | .fault code s => setFetchFault w va code s
          | .held s => s)

end Sys2Proof.Machine
end

