-- ==== Sys2Proof/Machine/FarPackets.lean ====
section
/-! DEFINITION. Packets from other devices: ingress, remote accesses and their responses, and the groups' membership changes
(R356, R364-R368). -/

namespace Sys2Proof.Machine

/-- Rights that a packet KIND needs: READ, WRITE, ATOMIC (R366). -/
def kindRight (kind : Nat) : BitVec 3 := if kind = 1 then rightR else if kind = 2 then rightW else rightA

/-- Whether every byte of an access lies in the stacks, the scratchpad carve-out or one well's stores (R366, case 1). -/
def ingressPlace (s : State) (pa n : Nat) : Bool :=
  let last := pa + (n - 1)
  let ok (a : Nat) : Bool := match placeOf a with
    | .stack k => s.stackMask.getLsbD k.val
    | .scratch _ => decide (centralRefusal s a ≠ some stUnmapped)
    | .well _ o => decide (o < 0x700000)
    | _ => false
  ok pa && ok last && decide (last < 2 ^ 44)

/-- Whether a device may use a window (R366, case 3). -/
def windowSource (s : State) (x : Ingress) (src : BitVec 16) : Bool :=
  x.anysrc || (match groupOf s x.group with | some g => s.far.groups[g].members.contains src | none => false)

/-- R366. -/
def admitted (s : State) (kind : Nat) (src : BitVec 16) (pa n : Nat) : Bool :=
  ingressPlace s pa n && s.far.ingress.toList.any (fun x =>
    x.valid && rightsHold x.rights (kindRight kind) && decide (x.base.toNat ≤ pa ∧ pa + n ≤ x.limit.toNat + 1) &&
      windowSource s x src && (s.basinMode == 0 || basinOfPlace s.basinMode (placeOf pa) == some x.basin.toNat))

/-- Basin of a place, as the weirs of the links count it. -/
def weirBasin (s : State) (pa : Nat) : Fin 4 := Fin.ofNat 4 ((basinOfPlace s.basinMode (placeOf pa)).getD 0)

/-- A RESP to a request (R365). -/
def sendResp (q : Packet) (flow : Nat) (data : List Byte) (s : State) : State :=
  (sendPacket (weirBasin s (pAddr q)) (mkPacket 4 2 0 s.devId (pSrc q) (pTag q) data.length flow 0 data) s).2

/-- FLOW of a RESP for a status of R277: MEM_ERR has its own code, and an unmapped address is refused (R26, R365, R366). -/
def flowOf (st : BitVec 8) : Nat := if st = stMemErr then 2 else if st = stUnmapped then 1 else st.toNat

/-- What a local access from outside is refused with, at its first byte or its last (R21, R92, R247, R255, R300). -/
def outsideRefusal (s : State) (pa n : Nat) : Option (BitVec 8) :=
  match placeOf pa with
  | .well w o => storeRefusal s w o n false
  | _ => (centralRefusal s pa).or (centralRefusal s (pa + (n - 1)))

/-- An access of a packet crosses the bridge of an I/O die, or waits at its weirs (R318). -/
def packetCross (io : Fin 2) (q : Packet) (n : Nat) (in_ : Bool) (s : State) : Bool × State :=
  weirCross (.packet (pSrc q) (pTag q)) ((ioNeed io (halfOfPlace s.basinMode (pAddr q)) in_).map (fun p =>
    { path := p, basin := weirBasin s (pAddr q), bytes := n })) s

/-- What happens to an admitted access before its bytes move: the refusal that its RESP carries (R21: a bridge that is off too), or the
wait at the weirs. -/
inductive PacketRes where
  | refused (status : BitVec 8) | waits (s : State) | goes (s : State)

def packetReady (io : Fin 2) (q : Packet) (n : Nat) (in_ : Bool) (s : State) : PacketRes :=
  match (if s.domain (if io = 0 then 41 else 43) then outsideRefusal s (pAddr q) n else some stDomainOff) with
  | some st => .refused st
  | none => let c := packetCross io q n in_ s; if c.1 then .goes c.2 else .waits c.2

/-- An access that is refused (R366). -/
def refuseAccess (q : Packet) (s : State) : State := sendResp q 1 [] (s.modFar (fun x => { x with ingrej := countUp x.ingrej 1 }))

/-- A READ for this device (R366); false: it waits. -/
def serveRead (io : Fin 2) (q : Packet) (s : State) : Bool × State :=
  let pa := pAddr q
  let n := pLen q
  if !admitted s 1 (pSrc q) pa n then (true, refuseAccess q s)
  else match packetReady io q n true s with
  | .refused st => (true, sendResp q (flowOf st) [] s)
  | .waits s => (false, s)
  | .goes s =>
    let r := readEnd false 5 pa n s
    match r.1 with
    | .ok bs => (true, sendResp q 0 bs r.2)
    | .error st => (true, sendResp q (flowOf st) [] r.2)

/-- A WRITE for this device (R366); its first write into a protected chunk captures it (R428). -/
def serveWrite (io : Fin 2) (q : Packet) (s : State) : Bool × State :=
  let pa := pAddr q
  let n := q.data.length
  if !admitted s 2 (pSrc q) pa n then (true, refuseAccess q s)
  else match packetReady io q n false s with
  | .refused st => (true, sendResp q (flowOf st) [] s)
  | .waits s => (false, s)
  | .goes s => (true, sendResp q 0 [] (writeEnd pa q.data (captureFor pa n s).2))

/-- An ATOMIC for this device (R366, R267): its data hold AOP, operand and compare value. -/
def serveAtomic (io : Fin 2) (q : Packet) (s : State) : Bool × State :=
  let pa := pAddr q
  let op := aopOf ((q.data.headD 0).toNat % 16)
  if !admitted s 3 (pSrc q) pa 8 || op.isNone || pa % 8 != 0 then (true, refuseAccess q s)
  else match packetReady io q 8 false s, placeOf pa with
  | .refused st, _ => (true, sendResp q (flowOf st) [] s)
  | .waits s, _ => (false, s)
  | .goes s, .well _ _ => (true, sendResp q 0x0B [] s)
  | .goes s, _ =>
    let r := centralAtomic (op.getD .add) pa (bytesWord ((q.data.drop 8).take 8)) (bytesWord ((q.data.drop 16).take 8)) (captureFor pa 8 s).2
    match r.1 with
    | some old => (true, sendResp q 0 (wordBytes old) r.2)
    | none => (true, sendResp q 2 [] r.2)

/-- A READ, WRITE or ATOMIC for this device by its KIND. -/
def serve (io : Fin 2) (q : Packet) (s : State) : Bool × State :=
  if pKind q = 1 then serveRead io q s else if pKind q = 2 then serveWrite io q s else serveAtomic io q s

/-- One that has arrived is served, or waits at the weirs; it stays behind those of its source that wait already (R364). -/
def takeAccess (s : State) (x : Fin 2 × Packet) : State :=
  let put (s : State) : State := s.modFar (fun f => { f with waiting := f.waiting ++ [x] })
  if s.far.waiting.any (fun y => pSrc y.2 == pSrc x.2) then put s
  else let r := serve x.1 x.2 s; if r.1 then r.2 else put r.2

/-- Those that wait try again, in arrival order. -/
def retryAccesses (s : State) : State := s.far.waiting.foldl takeAccess (s.modFar (fun f => { f with waiting := [] }))

/-- The I/O die at which a packet command arrives: that of the link that leads back to its source, else IO0. -/
def ioOf (s : State) (q : Packet) : Fin 2 := match pickLink s 2 (pDst q) (pSrc q) 0 with | some l => if l.val < 18 then 0 else 1 | none => 0

/-- A notice of R365 goes back to SRC on VC3, naming DST, at most once per pair in 100 us. KIND 0x11 in its data is the model's. -/
def sendNotice (q : Packet) (s : State) : State :=
  let hot := s.far.notices.any (fun x => x.1 == pSrc q && x.2.1 == pDst q && decide (s.stg.t.toNat < x.2.2.toNat + 100000))
  if hot then s
  else
    let s := s.modFar (fun x => { x with
      notices := (pSrc q, pDst q, s.stg.t) :: x.notices.filter (fun y => !(y.1 == pSrc q && y.2.1 == pDst q)) })
    let data := wordBytes (putN 24 (pDst q).toNat ||| putN 8 s.devId.toNat ||| 0x11) ++ List.replicate 24 0
    (sendPacket 0 (mkPacket 7 3 0 s.devId (pSrc q) 0 32 0 0 data) s).2

/-- Whether a packet is for this device (R364). -/
def forUs (s : State) (q : Packet) : Bool := s.devValid && pDst q == s.devId || localEntry s (pDst q)

/-- A packet in transit goes on, or is dropped with a notice (R365). -/
def transit (q : Packet) (s : State) : State :=
  let r := sendPacket 0 q s
  match r.1 with
  | some _ => r.2
  | none => sendNotice q r.2

/-- A packet with the KIND of its row. -/
def asKind (q : Packet) (kind : Nat) : Packet := { q with w0 := (q.w0 &&& ~~~(putN 60 0xF)) ||| putN 60 kind }
/-- READ_PACKET (R366). -/
def execReadPacket (q : Packet) (s : State) : Out := .next (if forUs s q then takeAccess s (ioOf s q, asKind q 1) else transit q s)
/-- WRITE_PACKET (R366). -/
def execWritePacket (q : Packet) (s : State) : Out := .next (if forUs s q then takeAccess s (ioOf s q, asKind q 2) else transit q s)
/-- ATOMIC_PACKET (R366). -/
def execAtomicPacket (q : Packet) (s : State) : Out := .next (if forUs s q then takeAccess s (ioOf s q, asKind q 3) else transit q s)

/-- Status that a RESP's FLOW gives the Pump access (R277, R365). -/
def respStatus (flow : Nat) : Option (BitVec 8) :=
  if flow = 0 then none else if flow = 1 then some 0x0C else if flow = 2 then some 0x09 else some (BitVec.ofNat 8 flow)

/-- The descriptor of a remote access. -/
def descOf (s : State) (q : RemoteReq) : Option Desc := s.pumps[q.pump].queue.find? (fun d => d.seq == q.seq)

/-- The data of a READ has come: it is written at its destination (R274, R276), which may complete its slot (R239), or it goes on to a
third device. -/
def landRead (q : RemoteReq) (g : BitVec 64) (side : Option Nat) (bs : List Byte) (s : State) : State :=
  match targetOf s g.toNat, descOf s q with
  | .bad st, _ => endRemote q (some st) s
  | .here pa, d =>
    (match (match placeOf pa with | .well w o => if o < 0x700000 then storeRefusal s w o bs.length (wellOfPump q.pump == some w) else none
                                  | _ => centralRefusal s pa) with
      | some st => endRemote q (some st) s
      | none =>
        let s := endRemote q none (writeEnd pa bs (captureFor pa bs.length s).2)
        match side, d with
        | some a, some d => finishTag q.pump d true d.pos a pa bs.length s
        | _, _ => s)
  | .away dev la, some d =>
    (match sendRemote q.pump d 2 dev la bs.length bs none none (endRemote q none s) with
      | .go s => s
      | .hold s => modDesc q.pump q.seq (fun x => { x with err := some (x.err.getD 0x04) }) s
      | .fail st s => modDesc q.pump q.seq (fun x => { x with err := some (x.err.getD st) }) s)
  | .away _ _, none => endRemote q none s

/-- A RESP for this device (R365): one that no access awaits is discarded and counted. -/
def takeResp (r : Packet) (s : State) : State :=
  match s.far.remote.find? (fun q => q.tag == pTag r && q.dev == pSrc r) with
  | none => countDrop (pSrc r) s
  | some q =>
    match respStatus (pFlow r) with
    | some st => endRemote q (some st) s
    | none =>
      match q.dest, q.ret, wellOfPump q.pump with
      | some (g, full), _, _ => landRead q g full r.data s
      | none, some o, some w => endRemote q none (s.writeBytes (wellAddr w o.toNat) (r.data.take 8))
      | _, _, _ => endRemote q none s

/-- RESP_PACKET (R365). -/
def execRespPacket (q : Packet) (s : State) : Out := .next (if forUs s q then takeResp q s else transit q s)

/-- REMOTE_RESPONSE_TIMEOUT (R365, R405): the access completes with FABRIC_DOWN, and the missing RESP is reported. -/
def execRemoteResponseTimeout (tag : BitVec 12) (s : State) : Out :=
  .next (match s.far.remote.find? (fun q => q.tag == tag) with
    | none => s
    | some q => let r := (endRemote q (some 0x04) s).takeFree; observe q.dev 0x6010 0x04 (r.1.truncate 32) r.2)

/-! Groups (R367, R368). -/

/-- Position of a device in a member list. -/
def rankIn (l : List (BitVec 16)) (dev : BitVec 16) : BitVec 16 := BitVec.ofNat 16 (l.idxOf dev)

/-- A free entry of the group table. -/
def freeGroup (s : State) : Option (Fin 64) :=
  (List.range 64).findSome? (fun i => if h : i < 64 then (if s.far.groups[i].inUse then none else some ⟨i, h⟩) else none)

/-- A group message on VC4 to a device. The data's layout is the model's: the spec gives none. -/
def sendGroup (kind : Nat) (gid : BitVec 16) (epoch : BitVec 32) (stage list : W64) (dev : BitVec 16) (s : State) : State :=
  let data := wordBytes (putN 32 epoch.toNat ||| putN 8 gid.toNat ||| w64 kind) ++ wordBytes stage ++ wordBytes list
  (sendPacket 0 (mkPacket 7 4 0 s.devId dev 0 24 0 0 data) s).2

/-- A device copies a new list and enters PENDING (R368 step 2). A joining device holds the group in a free entry. -/
def prepareEpoch (gid : BitVec 16) (epoch : BitVec 32) (stage : W64) (list : BitVec 44) (members : List (BitVec 16)) (master : BitVec 16)
    (s : State) : State :=
  let p : PendEpoch := { epoch := epoch, stage := stage, list := list, members := members, master := master, oks := [], moves := 0 }
  match groupOf s gid with
  | some g =>
    if s.far.groups[g].epoch + 1 = epoch then s.modGroup g (fun x => { x with pend := some p }) else s
  | none => match freeGroup s with
    | some g => s.modGroup g (fun x => { x with inUse := true, gid := gid, epoch := epoch - 1, members := [], rank := 0, master := master,
                                                list := list, pend := some p })
    | none => s

/-- EPOCH_PREP (R368): an old or new member answers EPOCH_OK. -/
def execEpochPrep (gid : BitVec 16) (epoch : BitVec 32) (stage : W64) (list : BitVec 44) (members : List (BitVec 16)) (master : BitVec 16)
    (s : State) : Out :=
  .next (
    if !members.contains s.devId && (groupOf s gid).isNone then s
    else
      let s := prepareEpoch gid epoch stage list members master s
      match groupOf s gid with
      | some g => (match s.far.groups[g].pend with
          | some p => if p.epoch = epoch then sendGroup 0x21 gid epoch stage 0 master s else s
          | none => s)
      | none => s)

/-- EPOCH_OK (R368): the master records the answer. -/
def execEpochOk (gid : BitVec 16) (epoch : BitVec 32) (dev : BitVec 16) (s : State) : Out :=
  .next (match groupOf s gid with
    | some g =>
      s.modGroup g (fun x => { x with pend := x.pend.map (fun p =>
        if p.epoch = epoch && x.master == s.devId && !p.oks.contains dev then { p with oks := p.oks ++ [dev] } else p) })
    | none => s)

/-- A pending change is discarded (R368 step 4); an entry that held nothing else is FREE again. -/
def cancelEpoch (g : Fin 64) (s : State) : State :=
  s.modGroup g (fun x => if x.members.isEmpty then { Group.reset with timeout := x.timeout } else { x with pend := none })

/-- EPOCH_CANCEL (R368). -/
def execEpochCancel (gid : BitVec 16) (s : State) : Out :=
  .next (match groupOf s gid with | some g => cancelEpoch g s | none => s)

/-- MEMBERSHIP_CHANGE (R368): the master sends EPOCH_PREP to every device of the old and the new list, for S' = max(S, NUMBER + 2). -/
def execMembershipChange (gid : BitVec 16) (stage : W64) (list : BitVec 44) (members : List (BitVec 16)) (s : State) : Out :=
  .next (match groupOf s gid with
    | none => s
    | some g =>
      let x := s.far.groups[g]
      if x.master ≠ s.devId ∨ x.pend.isSome then s
      else
        let s' := max stage.toNat (s.stageNumber.toNat + 2)
        let p : PendEpoch := { epoch := x.epoch + 1, stage := w64 s', list := list, members := members,
                               master := x.master, oks := [s.devId], moves := 0 }
        let all := (x.members ++ members).eraseDups.filter (· != s.devId)
        all.foldl (fun s dev => sendGroup 0x20 gid (x.epoch + 1) (w64 s') (list.setWidth 64) dev s)
          (s.modGroup g (fun x => { x with pend := some p })))

end Sys2Proof.Machine
end

