-- ==== Sys2Proof/Machine/ConfOps.lean ====
section
/-! DEFINITION. The Confluence engines' operations: trigger counters, fields of a collective descriptor, Rill combination, exact sums,
memory accesses and snapshots (R375-R401). -/

namespace Sys2Proof.Machine

/-! Trigger counters. -/

/-- Engine that holds a counter (R375). -/
def engOfCtr (c : BitVec 12) : EngineId := Fin.ofNat 4 (c.toNat / 1024)
/-- Unit ID of an engine (R32). -/
def engUnit (e : EngineId) : BitVec 16 := BitVec.ofNat 16 (0x6000 + e.val)
/-- Whether an engine with its counters is on: those of IO0 lie in PD40, those of IO1 in PD42 (R19). -/
def engOn (s : State) (e : EngineId) : Bool := s.domain (if e.val < 2 then 40 else 42)
/-- Whether the bridges of an engine's I/O die are on: PD41 or PD43 (R19). -/
def engBridgeOn (s : State) (e : EngineId) : Bool := s.domain (if e.val < 2 then 41 else 43)
/-- Changing a counter. -/
def State.modCtr (s : State) (c : BitVec 12) (f : TrigCounter → TrigCounter) : State :=
  { s with counters := s.counters.set c.toFin (f s.counters[c.toFin]) }

/-- Job whose grant holds a counter (R378). -/
def grantOf (s : State) (c : BitVec 12) : Option (Fin 32) :=
  (List.finRange 32).find? (fun k => s.jobs[k].state != .free && decide (s.jobs[k].ctrBase.toNat ≤ c.toNat) &&
    decide (c.toNat < s.jobs[k].ctrBase.toNat + s.jobs[k].ctrCount.toNat))

/-- An increment arrives at a counter (R376-R378); one whose engine's domain is off changes nothing (R21). -/
def applyInc (c : BitVec 12) (n : BitVec 32) (s : State) : State :=
  if !engOn s (engOfCtr c) then s
  else match grantOf s c with
  | none => s.modEng (engOfCtr c) (fun e => { e with stray := stick 16 e.stray })
  | some k =>
    let x := s.counters[c.toFin]
    if x.sat then s
    else if x.value.toNat + n.toNat < 2 ^ 32 then s.modCtr c (fun x => { x with value := x.value + n })
    else (s.modCtr c (fun x => { x with value := 0xFFFFFFFF, sat := true })).reportJob (engUnit (engOfCtr c)) 0x09 (c.setWidth 64) (s.jobs[k].handle k)

/-! Fields of a collective operation descriptor (R382). -/

abbrev OWords := Vector W64 8
def oKind (o : OWords) : Nat := fieldN o[0] 0 4
def oOp (o : OWords) : Nat := fieldN o[0] 4 4
def oType (o : OWords) : Nat := fieldN o[0] 8 4
def oRm (o : OWords) : Nat := fieldN o[0] 12 3
def oOutfx (o : OWords) : Bool := bitB o[0] 15
def oRearm (o : OWords) : Bool := bitB o[0] 16
def oSrcTag (o : OWords) : Nat := fieldN o[0] 17 2
def oDstTag (o : OWords) : Nat := fieldN o[0] 19 2
def oChan (o : OWords) : Nat := fieldN o[0] 24 8
def oGroup (o : OWords) : BitVec 16 := o[0].extractLsb' 32 16
def oRoot (o : OWords) : Nat := fieldN o[0] 48 16
def oCount (o : OWords) : Nat := fieldN o[1] 0 40
def oWctr (o : OWords) : Nat := fieldN o[4] 0 12
def oWthr (o : OWords) : BitVec 32 := o[4].extractLsb' 32 32
def oTstep (o : OWords) : Nat := fieldN o[5] 0 32
def oDctr (o : OWords) : Nat := fieldN o[5] 32 12
def oDamt (o : OWords) : Nat := fieldN o[5] 48 16

/-- Bytes of an element of a TYPE; none for a reserved code. -/
def typeSize (t : Nat) : Option Nat :=
  match t with
  | 0x0 => some 8 | 0x1 => some 4 | 0x2 => some 2 | 0x3 => some 2 | 0x8 => some 4 | 0xB => some 8 | 0xC => some 8 | 0xD => some 8
  | 0xF => some 1
  | _ => none

/-- The floating TYPEs. -/
def typeFmt (t : Nat) : Option Fmt := if t ≤ 3 then Fmt.ofCode t else none

/-- The combinations that R386 permits. -/
def comboOk (o : OWords) : Bool :=
  let op := oOp o
  let ty := oType o
  let num := ty ≤ 3 || ty == 8 || ty == 0xB || ty == 0xC || ty == 0xD
  let int := ty == 8 || ty == 0xB || ty == 0xC
  let red := (decide (1 ≤ op ∧ op ≤ 3) && num) || ((op == 4 || op == 5) && int)
  match oKind o with
  | 1 => red
  | 2 => red
  | 3 => red
  | 4 => op == 0 && (typeSize ty).isSome
  | 5 => op == 0 && (typeSize ty).isSome
  | 6 => op == 0 && (typeSize ty).isSome
  | 7 => op == 0 && ty == 0xF && oCount o == 0
  | 8 => red && decide (oCount o * (typeSize ty).getD 1 ≤ 64)
  | 9 => op == 0 && ty == 0xF
  | _ => false

/-- Reserved bits and codes of a descriptor (R382). A CHANNEL's ROOT has its kind in bit 0. -/
def oReserved (o : OWords) : Bool :=
  fieldN o[0] 21 3 != 0 || fieldN o[1] 40 24 != 0 || fieldN o[4] 12 20 != 0 || fieldN o[5] 44 4 != 0 || o[7] != 0 ||
    fieldN o[2] 56 8 != 0 || fieldN o[3] 56 8 != 0 || decide (oRm o = 0 ∨ 4 < oRm o) || oSrcTag o == 3 || decide (1 < oDstTag o) ||
    fieldN o[6] 0 4 != 0 || oWthr o == 0 || (oKind o != 6 && oKind o != 9 && oChan o != 0xFF) ||
    (oKind o != 2 && oKind o != 5 && oKind o != 9 && oRoot o != 0) || (oKind o == 9 && decide (1 < oRoot o))

/-- Changing an operation. -/
def State.modOp (s : State) (e : EngineId) (id : Nat) (f : CollOp → CollOp) : State :=
  s.modEng e (fun x => { x with ops := x.ops.map (fun o => if o.id = id then f o else o) })

/-- CBASE, CCOUNT and BASIN of a post queue (R410). -/
def qCbase (q : PostQueue) : BitVec 12 := q.w1.extractLsb' 32 12
def qCcount (q : PostQueue) : Nat := fieldN q.w1 0 13
def qBasin (q : PostQueue) : BitVec 2 := q.w1.extractLsb' 58 2
def qAsid (q : PostQueue) : BitVec 16 := q.w1.extractLsb' 16 16
def qPctr (q : PostQueue) : BitVec 12 := q.w1.extractLsb' 44 12

/-- The check of R386. -/
def oValid (s : State) (q : PostQueue) (o : OWords) : Bool :=
  !oReserved o && comboOk o && decide (oWctr o < qCcount q) && decide (oDctr o < qCcount q) &&
    (match groupOf s (oGroup o) with
      | none => false
      | some g =>
        let x := s.far.groups[g]
        !x.members.isEmpty && x.pend.isNone && (oKind o == 9 || decide (oRoot o < x.members.length)) &&
          (oKind o != 6 || (decide (oChan o < 8) && x.chanValid.getLsbD (oChan o))) && (oKind o != 9 || decide (oChan o < 8))) &&
    (oKind o != 9 || bitB q.w0 62) && (!oRearm o || oTstep o != 0)

/-- Whether an operation has fired and is not complete. -/
def CollOp.running (o : CollOp) : Bool := o.phase != .armed
/-- An operation that a REPEAT or the end of its job stopped: only its record is still to be written (R399). -/
def CollOp.aborted (o : CollOp) : Bool := o.phase == .written && o.status == 0x08
/-- Whether an operation has started and is not complete. -/
def CollOp.started (o : CollOp) : Bool := o.phase != .armed && o.phase != .fired && !o.aborted

/-- Started operations of a group at this device (R390). -/
def runningIn (s : State) (gid : BitVec 16) : Nat :=
  s.cf.engines.toList.foldl (fun n e => n + (e.ops.filter (fun o => o.started && oGroup o.words == gid)).length) 0

/-- An operation ends with a status: it waits for nothing any more, and its record is to be written. -/
def endOp (e : EngineId) (id : Nat) (st : BitVec 8) (s : State) : State :=
  dropWeirs (.engine e id) (releaseEverywhere (.engine e id)
    (s.modOp e id (fun o => { o with phase := .written, status := st, got := none })))

/-! Memory accesses of an engine (R386). -/

/-- What an access of an engine answers: data, a hold that ends when the command comes again, or an error status. -/
inductive EngRes (α : Type) where
  | ok (a : α) (s : State) | hold (s : State) | bad (st : BitVec 8) (s : State)

def EngRes.bind {α β : Type} (r : EngRes α) (f : α → State → EngRes β) : EngRes β :=
  match r with
  | .ok a s => f a s
  | .hold s => .hold s
  | .bad st s => .bad st s

/-- Front end of an engine's side of the device. -/
def engFront (e : EngineId) : FrontId := if e.val < 2 then 4 else 5

/-- A status that the spec does not state: the free value of the next index. -/
def freeStatus {α : Type} (s : State) : EngRes α := let r := s.takeFree; .bad (r.1.truncate 8) r.2

/-- Translating each page of a range, as R386 gives it to the engine: global addresses with lengths. -/
def engResolve (e : EngineId) (id : Nat) (asid : BitVec 16) (need : BitVec 3) : List (Nat × Nat) → State → EngRes (List (Nat × Nat))
  | [], s => .ok [] s
  | (a, n) :: l, s =>
    let va := BitVec.ofNat 56 a
    let f := engFront e
    let r := resolvePage f (.engine e id) asid va need s
    match r.1 with
    | .found t => (engResolve e id asid need l r.2).bind (fun xs s => .ok ((t.addr a, n) :: xs) s)
    | .inFlight => .hold r.2
    | .fails ft lv =>
      if alreadyHeld r.2 f (.engine e id) asid va then .hold r.2
      else .hold (recordFault f (.engine e id) asid va need ft lv r.2)

/-- A range cut at 512 B boundaries. -/
def cut512 : Nat → Nat → Nat → List (Nat × Nat)
  | 0, _, _ => []
  | k + 1, a, n => if n = 0 then [] else
      let m := min n (512 - a % 512)
      (a, m) :: cut512 k (a + m) (n - m)

/-- A piece of an access: the use of store tags that it honours, its address, its bytes. -/
abbrev EngPiece := Option TagUse × Nat × Nat

/-- Basin of an operation or a queue read: that of its post queue. -/
def engBasin (s : State) (e : EngineId) (id : Nat) : Fin 4 :=
  let q : Fin 16 := match s.cf.engines[e].ops.find? (fun o => o.id == id) with | some o => o.queue | none => Fin.ofNat 16 (id - 2 ^ 32)
  if s.basinMode = 0 then 0 else Fin.ofNat 4 (qBasin s.cf.engines[e].queues[q]).toNat

/-- The waits of an access on the slots that are not ready (R240, R253). -/
def engAwait (e : EngineId) (id : Nat) (w : WellId) (u : TagUse) (ks : List SlotId) (s : State) : State :=
  noteTagParity w ks (ks.foldl (fun s k => if tagReady s.wells[w].st (.engine e id) u k then s
    else s.modSt w (fun t => t.await (.engine e id) u k)) s)

/-- Whether a piece, given by its global address, may go on: refusals of R386's endpoints have no status code in R385, so theirs is
free. -/
def engCheck (e : EngineId) (id : Nat) (write : Bool) (x : EngPiece) (s : State) : EngRes Unit :=
  let n := x.2.2
  match targetOf s x.2.1 with
  | .bad _ => freeStatus s
  | .away _ _ => .ok () s
  | .here pa =>
    if !engBridgeOn s e then freeStatus s
    else match placeOf pa with
    | .stack _ | .scratch _ =>
      if (centralRefusal s pa).isSome then freeStatus s
      else if captureHeld s pa n then .hold s
      else if write then (let c := captureFor pa n s; if c.1 then .hold c.2 else .ok () c.2)
      else .ok () s
    | .well w o =>
      if !s.wellOn w || decide (0x700000 < o + n) || (storeRefusal s w o n false).isSome then freeStatus s
      else match x.1 with
        | some u =>
          if s.wells[w].st.scoreboard || (slotsOf o n).all (fun k => tagReady s.wells[w].st (.engine e id) u k) then .ok () s
          else .hold (engAwait e id w u (slotsOf o n) s)
        | none => .ok () s
    | _ => freeStatus s

def engCheckAll (e : EngineId) (id : Nat) (write : Bool) : List EngPiece → State → EngRes Unit
  | [], s => .ok () s
  | x :: l, s => (engCheck e id write x s).bind (fun _ s => engCheckAll e id write l s)

/-- What pieces ask of the weirs of the bridges of the engine's I/O die (R318). -/
def engNeed (s : State) (e : EngineId) (id : Nat) (write : Bool) (xs : List EngPiece) : List WeirNeed :=
  (List.finRange 2).flatMap (fun (h : HalfId) =>
    let n := xs.foldl (fun n x => match targetOf s x.2.1 with
      | .here pa => if halfOfPlace s.basinMode pa = h then n + x.2.2 else n
      | _ => n) 0
    if n = 0 then [] else (ioNeed (if e.val < 2 then 0 else 1) h (!write)).map (fun p => { path := p, basin := engBasin s e id, bytes := n }))

/-- Virtual pieces translated and cut at 512 B boundaries. -/
def engPieces (e : EngineId) (id : Nat) (asid : BitVec 16) (need : BitVec 3) : List EngPiece → State → EngRes (List EngPiece)
  | [], s => .ok [] s
  | (u, va, n) :: l, s =>
    (engResolve e id asid need (cutGranules va n) s).bind (fun gs s =>
      (engPieces e id asid need l s).bind (fun r s =>
        .ok ((gs.flatMap (fun g => cut512 (g.2 / 512 + 2) g.1 g.2)).map (fun g => (u, g)) ++ r) s))

/-- Virtual pieces found ready: translated, checked, and granted by the weirs (R282, R239, R319). Nothing has moved yet. -/
def engReady (e : EngineId) (id : Nat) (asid : BitVec 16) (write : Bool) (ps : List EngPiece) (s : State) : EngRes (List EngPiece) :=
  (engPieces e id asid (if write then rightW else rightR) ps s).bind (fun xs s =>
    (engCheckAll e id write xs s).bind (fun _ s =>
      let c := weirCross (.engine e id) (engNeed s e id write xs) s
      if c.1 then .ok xs c.2 else .hold c.2))

/-- Slots used up once an access is complete (R239). -/
def engUse (e : EngineId) (id : Nat) (x : EngPiece) (s : State) : State :=
  match x.1, targetOf s x.2.1 with
  | some u, .here pa => (match placeOf pa with
      | .well w o => if s.wells[w].st.scoreboard then s
                     else (slotsOf o x.2.2).foldl (fun s k => s.modSt w (fun t => t.useSlot (.engine e id) u k)) s
      | _ => s)
  | _, _ => s
def engUseAll (e : EngineId) (id : Nat) (xs : List EngPiece) (s : State) : State := xs.foldl (fun s x => engUse e id x s) s

/-- Bytes that another device's memory would give: free. -/
def freeBytes (n : Nat) (s : State) : List Byte × State :=
  ((List.range n).map (fun i => (Config.freeWord (s.free + i / 8)).extractLsb' (8 * (i % 8)) 8), { s with free := s.free + (n + 7) / 8 })

/-- The bytes of pieces that are ready; data that an uncorrectable error spoils end the operation with MEM_ERR (R385). -/
def engBytes : List EngPiece → State → EngRes (List Byte)
  | [], s => .ok [] s
  | (_, g, n) :: l, s =>
    (match targetOf s g with
      | .here pa =>
        let r := readEnd false 5 pa n s
        (match r.1 with | .ok bs => .ok bs r.2 | .error _ => .bad 0x07 r.2)
      | _ => (let r := freeBytes n s; .ok r.1 r.2) : EngRes (List Byte)).bind (fun bs s =>
        (engBytes l s).bind (fun rest s => .ok (bs ++ rest) s))

/-- Reading a range of an operation's ASID. -/
def engRead (e : EngineId) (id : Nat) (asid : BitVec 16) (tag : Option TagUse) (va n : Nat) (s : State) : EngRes (List Byte) :=
  (engReady e id asid false [(tag, va, n)] s).bind (fun xs s => (engBytes xs s).bind (fun bs s => .ok bs (engUseAll e id xs s)))

/-- One accepted write; a write for another device leaves as a WRITE packet on VC2, or ends the operation with FABRIC_DOWN (R400). -/
def engPut (g : Nat) (bs : List Byte) (s : State) : EngRes Unit :=
  match targetOf s g with
  | .here pa => .ok () (writeEnd pa bs s)
  | .away dev la =>
    let r := sendPacket 0 (mkPacket 2 2 0 s.devId dev (freeTag s) bs.length 0 la bs) s
    if r.1.isSome then .ok () r.2 else .bad 0x05 r.2
  | .bad _ => .ok () s

def engPutAll : List EngPiece → List Byte → State → EngRes Unit
  | [], _, s => .ok () s
  | (_, g, n) :: l, bs, s => (engPut g (bs.take n) s).bind (fun _ s => engPutAll l (bs.drop n) s)

/-- Writing several ranges: nothing is written before all are ready. -/
def engWriteAll (e : EngineId) (id : Nat) (asid : BitVec 16) (ps : List (Option TagUse × Nat × List Byte)) (s : State) : EngRes Unit :=
  (engReady e id asid true (ps.map (fun p => (p.1, p.2.1, p.2.2.length))) s).bind (fun xs s =>
    (engPutAll xs (ps.flatMap (fun p => p.2.2)) s).bind (fun _ s => .ok () (engUseAll e id xs s)))

/-- Writing a range. -/
def engWrite (e : EngineId) (id : Nat) (asid : BitVec 16) (tag : Option TagUse) (va : Nat) (bs : List Byte) (s : State) : EngRes Unit :=
  engWriteAll e id asid [(tag, va, bs)] s

/-- The status record (R385): it names the stage and the attempt in which the operation ran. -/
def statusBytes (o : CollOp) : List Byte :=
  wordBytes (putN 32 (o.ran.1.toNat % 2 ^ 32) ||| putN 16 o.seq.toNat ||| putN 8 o.ran.2.toNat ||| o.status.setWidth 64) ++ wordBytes o.word1

/-! The Rill (R387). -/

/-- Sub-lanes of a 64-bit lane combined. -/
def subLanes (width : Nat) (f : Nat → Nat → Nat) (a b : W64) : W64 :=
  w64 ((List.range (64 / max 1 width)).foldl (fun acc i =>
    acc + (f (a.toNat / 2 ^ (width * i) % 2 ^ width) (b.toNat / 2 ^ (width * i) % 2 ^ width)) % 2 ^ width * 2 ^ (width * i)) 0)

/-- Signed extreme of two patterns. -/
def sExt (isMax : Bool) (width a b : Nat) : Nat :=
  if (if isMax then decide (signedN width a < signedN width b) else decide (signedN width b < signedN width a)) then b else a
def uExt (isMax : Bool) (a b : Nat) : Nat := if isMax then max a b else min a b

/-- Addition of two FX64 elements (R79): the sum and whether it overflowed. -/
def fxAdd (a b : W64) : W64 × Bool :=
  let v := a.toInt + b.toInt
  if -(2 ^ 63 : Int) ≤ v ∧ v < 2 ^ 63 then (a + b, false) else (0, true)

/-- A list of lanes as one unsigned integer, lane 0 least significant. -/
def lanesNat (l : List W64) : Nat := l.foldr (fun x acc => x.toNat + 2 ^ 64 * acc) 0

/-- One lane under an operation; i is the lane's place. -/
def rillLane (op : RillOp) (i : Nat) (a b : W64) : W64 :=
  match op with
  | .sumInt w => subLanes w (fun x y => x + y) a b
  | .sumFx => (fxAdd a b).1
  | .maxF k => (match Fmt.ofCode k with | some f => subLanes f.bits (fun x y => (minMaxOp f true x y).1) a b | none => a)
  | .minF k => (match Fmt.ofCode k with | some f => subLanes f.bits (fun x y => (minMaxOp f false x y).1) a b | none => a)
  | .maxS w => subLanes w (sExt true w) a b
  | .minS w => subLanes w (sExt false w) a b
  | .maxU w => subLanes w (uExt true) a b
  | .minU w => subLanes w (uExt false) a b
  | .and => a &&& b
  | .or => a ||| b
  | .key => a
  | .signature => if i < 2 then a &&& b else a ||| b

/-- R387's combination of two sets of lanes. -/
def rillCombine (op : RillOp) (a b : List W64) : List W64 :=
  if op = .key then (if lanesNat b < lanesNat a then b else a)
  else ((List.range a.length).zip (a.zip b)).map (fun x => rillLane op x.1 x.2.1 x.2.2)

/-- Children and parent of a rank in the tree of R387. -/
def rillKids (rank members : Nat) : List Nat := ([1, 2, 3, 4].map (fun k => 4 * rank + k)).filter (· < members)
def rillParent (rank : Nat) : Nat := (rank - 1) / 4

/-- The signature of an operation (R389). -/
def signatureOf (s : State) (g : Group) (o : CollOp) : BitVec 128 :=
  let w := o.words
  let count := if oKind w = 6 then (if g.chanKind.getLsbD (oChan w) then 0 else (g.chanCap.getD (oChan w) 0).toNat % 2 ^ 32)
               else oCount w % 2 ^ 32
  BitVec.ofNat 128 (g.gid.toNat * 2 ^ 112 + g.epoch.toNat % 2 ^ 16 * 2 ^ 96 + o.seq.toNat * 2 ^ 80 + oKind w * 2 ^ 76 + oOp w * 2 ^ 72 +
    oType w * 2 ^ 68 + s.stg.attempt.toNat % 16 * 2 ^ 64 + oRoot w * 2 ^ 48 + count * 2 ^ 16 + s.stageNumber.toNat % 2 ^ 16)

def lo64 (v : BitVec 128) : W64 := v.truncate 64
def hi64 (v : BitVec 128) : W64 := (v >>> 64).truncate 64
def join64 (lo hi : W64) : BitVec 128 := hi ++ lo

/-- A Rill message leaves for a rank; an operation whose message cannot be carried ends with FABRIC_DOWN (R400). -/
def sendRill (g : Fin 64) (rank round : Nat) (down : Bool) (op : RillOp) (lanes : List W64) (s : State) : State :=
  let x := s.far.groups[g]
  let dev := x.members.getD rank 0
  let m : RillMsg := { group := x.gid, epoch := x.epoch, attempt := s.stg.attempt, stage := s.stageNumber, round := round,
                       fromRank := x.rank.toNat, down := down, op := op, lanes := lanes }
  match (if s.far.maxhop.toNat = 0 then none else pickLink s 0 s.devId dev 0) with
  | some l => queueItem l 0 (Fin.ofNat 4 s.stg.basin.toNat) (.rill dev m) s
  | none =>
    (List.finRange 4).foldl (fun s e => (s.cf.engines[e].ops.filter (fun o =>
      oGroup o.words == x.gid && o.round == round && (o.phase == .signature || o.phase == .key))).foldl (fun s o => endOp e o.id 0x05 s) s)
      (countDrop dev s)

/-- The round of a number at a group. -/
def Group.modRound (x : Group) (n : Nat) (f : RillRound → RillRound) : Group :=
  { x with rounds := x.rounds.map (fun r => if r.round = n then f r else r) }

/-- The lanes that a member contributes to the KEY round (R389). -/
def keyLanes (rank : Nat) (own rank0 : BitVec 128) : List W64 :=
  if own = rank0 then [0, 0, 0, putN 32 0x10000] else [lo64 own, hi64 own, 0, putN 32 rank]

/-- A round's own contribution is known: the round starts at this device, also where a child's packet has opened it before. -/
def openRound (g : Fin 64) (n : Nat) (op : RillOp) (lanes : List W64) (s : State) : State :=
  s.modGroup g (fun x =>
    let kids := ((x.rounds.find? (fun r => r.round == n)).map (·.kids)).getD []
    { x with rounds := x.rounds.filter (fun r => r.round != n) ++ [{ round := n, op := op, own := some lanes, kids := kids, result := none }] })

/-- The rounds of a collective: the signature round and the KEY round of its SEQ (R389, R390). -/
def sigRound (seq : BitVec 16) : Nat := 2 * seq.toNat
def keyRound (seq : BitVec 16) : Nat := 2 * seq.toNat + 1

/-- What a finished round does to the operation that waits for it (R389): data, a KEY round, or MISMATCH with the abort record. -/
def takeResult (g : Fin 64) (n : Nat) (lanes : List W64) (s : State) : State :=
  let x := s.far.groups[g]
  (List.finRange 4).foldl (fun (s : State) e =>
    match (s.cf.engines[e].ops.find? (fun o => oGroup o.words == x.gid && o.round == n && (o.phase == .signature || o.phase == .key))) with
    | none => s
    | some o =>
      if o.phase = .signature then
        if lanes.take 2 = (lanes.drop 2).take 2 then s.modOp e o.id (fun o => { o with phase := .data })
        else
          let sig0 := join64 (lanes.getD 4 0) (lanes.getD 5 0)
          openRound g (keyRound o.seq) .key (keyLanes x.rank.toNat (signatureOf s x o) sig0)
            (s.modOp e o.id (fun o => { o with phase := .key, round := keyRound o.seq, sig0 := sig0 }))
      else
        (endOp e o.id 0x01 s).modEng e (fun y => { y with
          abortV := true
          abortRank := BitVec.ofNat 16 (fieldN (lanes.getD 3 0) 32 32)
          abortGroup := x.gid
          abortSeq := o.seq
          sig0 := o.sig0
          sigR := join64 (lanes.getD 0 0) (lanes.getD 1 0) })) s

/-- The result of a round has reached this device: it goes down to the children, to the operation, and the round closes. -/
def finishRound (g : Fin 64) (n : Nat) (op : RillOp) (lanes : List W64) (s : State) : State :=
  let x := s.far.groups[g]
  let s := (rillKids x.rank.toNat x.members.length).foldl (fun s k => sendRill g k n true op lanes s) s
  takeResult g n lanes (s.modGroup g (fun x => { x with rounds := x.rounds.filter (fun r => r.round != n) }))

/-- This device's own lanes combined with every child's, once all have come (R387). -/
def roundLanes (x : Group) (r : RillRound) : Option (List W64) :=
  let kids := rillKids x.rank.toNat x.members.length
  match r.own with
  | none => none
  | some own =>
    if !kids.all (fun k => r.kids.any (fun q => q.1 == k)) || r.result.isSome then none
    else some (kids.foldl (fun acc k => rillCombine r.op acc (((r.kids.find? (fun q => q.1 == k)).map (·.2)).getD acc)) own)

/-- The round that can go on: at the root the one that started first, since rounds that start in order complete in order (R388);
elsewhere any. -/
def nextRound (x : Group) : Option (RillRound × List W64) :=
  let started := x.rounds.filter (fun r => r.own.isSome)
  (if x.rank = 0 then started.take 1 else started).findSome? (fun r => (roundLanes x r).map (fun l => (r, l)))

/-- A group's rounds go on as far as they can (R387): up to the parent, or, at the root, down with the result. -/
def advanceRounds (g : Fin 64) : Nat → State → State
  | 0, s => s
  | k + 1, s =>
    let x := s.far.groups[g]
    match nextRound x with
    | none => s
    | some (r, lanes) =>
      advanceRounds g k (
        if x.rank = 0 then finishRound g r.round r.op lanes s
        else sendRill g (rillParent x.rank.toNat) r.round false r.op lanes
               (s.modGroup g (fun x => x.modRound r.round (fun r => { r with result := some lanes }))))

/-- Every round of a group that can go on does: each may be followed by one KEY round. -/
def runRounds (g : Fin 64) (s : State) : State := advanceRounds g (2 * s.far.groups[g].rounds.length + 2) s

/-! Residues and sums (R77-R80, R394-R396). -/

/-- ρ of R396. -/
def residueOf (elems : List W64) : Nat :=
  ((List.range elems.length).zip elems).foldl (fun acc x => (acc + (x.1 + 1) * (x.2.toInt % (2 ^ 31 - 1)).toNat) % (2 ^ 31 - 1)) 0

/-- Elements of size n bytes of a byte list. -/
def elemsOf (n : Nat) : Nat → List Byte → List Nat
  | 0, _ => []
  | k + 1, bs => ofBytes (bs.take n) :: elemsOf n k (bs.drop n)

/-- An FX64 chunk (R77). -/
structure FxChunk where
  exp     : Int
  zero    : Bool
  ovf     : Bool
  special : List Bool
  elems   : List Int
  deriving DecidableEq, Repr

/-- The chunk at the head of a byte list. -/
def readChunk (bs : List Byte) : FxChunk :=
  let h := bytesWord (bs.take 8)
  let sp := ofBytes ((bs.drop 64).take 64)
  { exp := signedN 16 (fieldN h 0 16), zero := bitB h 16, ovf := bitB h 17, special := (List.range 512).map (fun i => sp.testBit i),
    elems := (elemsOf 8 512 (bs.drop 128)).map (signedN 64) }

/-- A chunk's first n elements as bytes, after its header. -/
def writeChunk (c : FxChunk) (n : Nat) : List Byte :=
  let sp := ((List.range 512).zip c.special).foldl (fun acc x => if x.2 then acc + 2 ^ x.1 else acc) 0
  wordBytes (putB 17 c.ovf ||| putB 16 c.zero ||| w64 (wrapN 16 c.exp)) ++ List.replicate 56 0 ++ toBytes 64 sp ++
    (c.elems.take n).flatMap (fun v => toBytes 8 (wrapN 64 v))

/-- Conversion of a chunk of values under the agreed X (R78). The flags of FFLAGS that R78 and R80 speak of belong to a Windlass and its
Flume (R43); an engine has no such register, and the model keeps none for it (DESIGN CHOICE, log 179). -/
def toFx (x : Option Int) (vs : List FVal) : FxChunk :=
  { exp := x.getD (-32768), zero := x.isNone, ovf := false,
    special := vs.map (fun v => match v with | .nan _ => true | .inf _ => true | _ => false),
    elems := vs.map (fun v => v.truncScaled (47 - x.getD 0)) }

/-- Addition of two chunks (R79). -/
def addChunk (a b : FxChunk) : FxChunk :=
  let sums := (a.elems.zip b.elems).map (fun x => x.1 + x.2)
  let bad := sums.map (fun v => decide (v < -(2 ^ 63 : Int) ∨ (2 ^ 63 : Int) ≤ v))
  { exp := a.exp, zero := a.zero && b.zero, ovf := a.ovf || b.ovf || bad.any id,
    special := ((a.special.zip b.special).zip bad).map (fun x => x.1.1 || x.1.2 || x.2),
    elems := (sums.zip bad).map (fun x => if x.2 then 0 else x.1) }

/-- Lane-by-lane extreme of two chunks: signed elements; the header as for a sum. -/
def extChunk (isMax : Bool) (a b : FxChunk) : FxChunk :=
  { exp := a.exp, zero := a.zero && b.zero, ovf := a.ovf || b.ovf, special := (a.special.zip b.special).map (fun x => x.1 || x.2),
    elems := (a.elems.zip b.elems).map (fun x => if isMax then max x.1 x.2 else min x.1 x.2) }

/-- Result of one element combined lane by lane over the members. -/
def combineElem (op ty : Nat) (a b : Nat) : Nat :=
  let bits := 8 * (typeSize ty).getD 8
  match op with
  | 1 => (a + b) % 2 ^ bits
  | 2 => (match typeFmt ty with | some f => (minMaxOp f true a b).1 | none => if ty = 0xC then uExt true a b else sExt true bits a b)
  | 3 => (match typeFmt ty with | some f => (minMaxOp f false a b).1 | none => if ty = 0xC then uExt false a b else sExt false bits a b)
  | 4 => a &&& b
  | _ => a ||| b

/-- The exact sum of one chunk of a floating TYPE over the members (R394 steps 1-3): each member's element patterns. -/
def sumChunk (f : Fmt) (members : List (List Nat)) : FxChunk :=
  let vals := members.map (fun l => let vs := l.map (fun b => (readF f b).1); vs ++ List.replicate (512 - vs.length) (.zero false))
  let x := fxExponent vals.flatten
  match vals.map (toFx x) with
  | [] => toFx none (List.replicate 512 (.zero false))
  | c :: cs => cs.foldl addChunk c

/-- Return conversion of an element (R80), without the flags of packF: see `toFx` (DESIGN CHOICE, log 179). -/
def fromFx (f : Fmt) (rm : Nat) (c : FxChunk) (i : Nat) : Nat :=
  if c.special.getD i false then f.nanBits else (packF f rm false (FVal.ofInt (c.elems.getD i 0) (c.exp - 47))).1

/-- A list cut into pieces. -/
def piecesOf {α : Type} (n : Nat) : Nat → List α → List (List α)
  | 0, _ => []
  | k + 1, l => if l.isEmpty then [] else l.take n :: piecesOf n k (l.drop n)

/-- Whether a contribution lies in chunks of 4,224 B: TYPE FX64 (R394), but for the 8 B lanes of a RILL (R387). -/
def oChunked (o : OWords) : Bool := oType o == 0xD && oKind o != 8

/-- Bytes of a contribution. -/
def sourceBytes (o : OWords) : Nat :=
  if oChunked o then (oCount o + 511) / 512 * 4224 else oCount o * (typeSize (oType o)).getD 1

/-- What a reduction over the members' source bytes gives: chunks, with the elements that each holds; or elements' bytes. -/
inductive Reduced where
  | chunks (l : List (FxChunk × Nat)) | elems (size : Nat) (l : List Nat)

/-- Elements that chunk k of a COUNT holds. -/
def chunkCount (count k : Nat) : Nat := min 512 (count - 512 * k)

/-- Members' 8 B FX64 lanes added under R79; an overflow is an error (R395). -/
def sumLanes (ls : List (List Nat)) : Option (List Nat) :=
  match ls with
  | [] => some []
  | l :: r => r.foldl (fun (acc : Option (List Nat)) m => acc.bind (fun a =>
      let sums := (a.zip m).map (fun x => fxAdd (w64 x.1) (w64 x.2))
      if sums.any (·.2) then none else some (sums.map (·.1.toNat)))) (some l)

/-- R394. error: the chunk at which a check of R395 or R397 fails. -/
def reduceAll (o : OWords) (srcs : List (List Byte)) : Except Nat Reduced :=
  let n := oCount o
  let ks := List.range ((n + 511) / 512)
  if oChunked o then
    let cs := ks.map (fun k =>
      let l := srcs.map (fun bs => readChunk (bs.drop (4224 * k)))
      let c := match l with
        | [] => readChunk []
        | c :: r => r.foldl (if oOp o = 1 then addChunk else extChunk (oOp o == 2)) c
      (c, chunkCount n k, l.all (fun x => decide (x.exp = c.exp))))
    match ks.find? (fun k => match cs[k]? with | some c => !c.2.2 || c.1.ovf | none => false) with
    | some k => .error k
    | none => .ok (.chunks (cs.map (fun c => (c.1, c.2.1))))
  else
    let size := (typeSize (oType o)).getD 1
    let ls := srcs.map (fun bs => elemsOf size n bs)
    match typeFmt (oType o), oOp o with
    | some f, 1 =>
      let cs := ks.map (fun k => (sumChunk f (ls.map (fun l => (l.drop (512 * k)).take 512)), chunkCount n k))
      if oOutfx o then .ok (.chunks cs)
      else .ok (.elems size (cs.flatMap (fun c => (List.range c.2).map (fun i => fromFx f (oRm o) c.1 i))))
    | _, op =>
      if oType o = 0xD ∧ op = 1 then (match sumLanes ls with | some l => .ok (.elems size l) | none => .error 0)
      else match ls with
      | [] => .ok (.elems size [])
      | l :: r => .ok (.elems size (r.foldl (fun acc m => (acc.zip m).map (fun x => combineElem op (oType o) x.1 x.2)) l))

/-- The agreed exponent of each chunk of a floating SUM or an FX64 operation (R394 step 1). -/
def agreedOf (o : OWords) (srcs : List (List Byte)) : List (Nat × BitVec 16) :=
  let n := oCount o
  let ks := List.range ((n + 511) / 512)
  let word (x : Int) : BitVec 16 := BitVec.ofNat 16 (wrapN 16 x)
  if oChunked o then ks.map (fun k => (k, word (readChunk ((srcs.headD []).drop (4224 * k))).exp))
  else match typeFmt (oType o), oOp o with
    | some f, 1 =>
      let ls := srcs.map (fun bs => elemsOf ((typeSize (oType o)).getD 1) n bs)
      ks.map (fun k => (k, word (sumChunk f (ls.map (fun l => (l.drop (512 * k)).take 512))).exp))
    | _, _ => []

/-- The bytes of a share of a result. -/
def Reduced.bytes (r : Reduced) (lo hi : Nat) : List Byte :=
  match r with
  | .chunks l => ((l.take hi).drop lo).flatMap (fun c => writeChunk c.1 c.2)
  | .elems size l => ((l.take hi).drop lo).flatMap (fun v => toBytes size v)
def Reduced.length (r : Reduced) : Nat := match r with | .chunks l => l.length | .elems _ l => l.length

/-! Snapshots and repeats (R379, R399, R412). -/

/-- Whether a queue belongs to a basin; one partition is basin 0. -/
def inBasin (s : State) (b : BitVec 2) (q : PostQueue) : Bool := s.basinMode == 0 || qBasin q == b

/-- The snapshot at an adopted mark (R379). -/
def snapEngine (b : BitVec 2) (e : EngineId) (s : State) : State :=
  let x := s.cf.engines[e]
  let ctrs := ((List.finRange 4096).filter (fun c => c.val / 1024 == e.val && s.counters[c].staged)).map
    (fun c => (c, s.counters[c].value, s.counters[c].sat))
  let ops := x.ops.filter (fun o => inBasin s b x.queues[o.queue] && !o.aborted)
  let cons := ((List.finRange 16).filter (fun q => inBasin s b x.queues[q])).map (fun q => (q, x.queues[q].consumed))
  s.modEng e (fun x => { x with snap := some { ctrs := ctrs, ops := ops, consumed := cons } })

/-- Every engine's snapshot (R379). -/
def snapEngines (b : BitVec 2) (s : State) : State := (List.finRange 4).foldl (fun s e => snapEngine b e s) s

/-- SEQ of every group returns to 0 at an adopted mark (R390). -/
def resetSeqs (s : State) : State := s.modFar (fun f => { f with groups := f.groups.map (fun g => { g with seq := 0 }) })

/-- An operation stops with ABORTED (R399 step 1): its name goes to nothing else, and its record is written when it completes. -/
def abortOp (e : EngineId) (o : CollOp) (s : State) : State :=
  let s := endOp e o.id 0x08 s
  let s := match groupOf s (oGroup o.words) with
    | some g => if o.started then s.modGroup g (fun x => { x with rounds := x.rounds.filter (fun r => r.round != o.round) }) else s
    | none => s
  (s.modOp e o.id (fun o => { o with id := s.cf.nextId })).modCf (fun c => { c with nextId := c.nextId + 1 })

/-- The running operations of an engine that a test takes stop with ABORTED. -/
def abortOps (p : CollOp → Bool) (e : EngineId) (s : State) : State :=
  (s.cf.engines[e].ops.filter (fun o => p o && o.running && !o.aborted)).foldl (fun s o => abortOp e o s) s

/-- A REPEAT is adopted (R399 step 1): every running operation of the basin stops with ABORTED; its rounds end. -/
def abortEngines (b : BitVec 2) (s : State) : State :=
  let s := (List.finRange 4).foldl (fun (s : State) e =>
    let queues := s.cf.engines[e].queues
    let basin (q : PostQueue) : Bool := inBasin s b q
    abortOps (fun o => basin queues[o.queue]) e s) s
  s.modFar (fun f => { f with groups := f.groups.map (fun g => { g with rounds := [] }) })

/-- Restoring a snapshot (R399 steps 3 and 4): counters, armed operations and consumed indices; operations armed in the aborted
attempt are disarmed. With no mark before this one there is nothing to restore. -/
def restoreEngine (b : BitVec 2) (e : EngineId) (s : State) : State :=
  let x := s.cf.engines[e]
  let keep (o : CollOp) : Bool := o.aborted || !inBasin s b x.queues[o.queue]
  match x.snap with
  | none => s
  | some p =>
    let s := p.ctrs.foldl (fun (s : State) c => { s with counters := s.counters.set c.1 { s.counters[c.1] with value := c.2.1, sat := c.2.2 } }) s
    s.modEng e (fun x => { x with
      ops := p.ops ++ x.ops.filter keep
      queues := p.consumed.foldl (fun qs c => qs.set c.1 { qs[c.1] with consumed := c.2 }) x.queues })
def restoreEngines (b : BitVec 2) (s : State) : State := (List.finRange 4).foldl (fun s e => restoreEngine b e s) s

/-- The collectives of a basin that have fired in the attempt and are incomplete (R398). -/
def collectivesOpen (b : BitVec 2) (s : State) : Bool :=
  (List.finRange 4).any (fun e => let x := s.cf.engines[e]; x.ops.any (fun o => o.running && !o.aborted && inBasin s b x.queues[o.queue]))

/-- Clearing what a job held (R378, R412): its queues with their operations, its part of the snapshots, its channel slots, its
counters. -/
def clearConfluence (j : Job) (s : State) : State :=
  let hit (c : Nat) : Bool := decide (j.ctrBase.toNat ≤ c ∧ c < j.ctrBase.toNat + j.ctrCount.toNat)
  let own (e : EngineId) (q : Fin 16) : Bool := j.queues.any (fun x => x == (e, q))
  let engine (e : EngineId) (x : Engine) : Engine := { x with
    ops := x.ops.filter (fun o => !own e o.queue)
    queues := Vector.ofFn (fun (q : Fin 16) => if own e q then { w0 := 0, w1 := 0, consumed := 0 } else x.queues[q])
    snap := x.snap.map (fun p => { ctrs := p.ctrs.filter (fun c => !hit c.1.val), ops := p.ops.filter (fun o => !own e o.queue),
                                   consumed := p.consumed.filter (fun c => !own e c.1) }) }
  let slots (g : Group) : BitVec 8 :=
    (List.finRange 8).foldl (fun acc i => if own g.chanQueue[i].1 g.chanQueue[i].2 then acc ||| (1#8 <<< i.val) else acc) 0
  let group (g : Group) : Group := { g with
    chanValid := g.chanValid &&& ~~~(slots g), chanKind := g.chanKind &&& ~~~(slots g)
    chanCap := Vector.ofFn (fun (i : Fin 8) => if (slots g).getLsbD i.val then 0 else g.chanCap[i]) }
  let s := s.modCf (fun c => { c with engines := Vector.ofFn (fun (e : Fin 4) => engine e c.engines[e]) })
  let s := s.modFar (fun f => { f with groups := f.groups.map group })
  { s with counters := Vector.ofFn (fun (i : Fin 4096) => if hit i.val then { value := 0, sat := false, staged := s.counters[i].staged } else s.counters[i]) }

end Sys2Proof.Machine
end

