-- ==== Sys2Proof/Machine/Confluence.lean ====
section
/-! DEFINITION. The commands of the Confluence engines: trigger counters, post queues, collectives, and the reports that the fabric
cores coalesce (R375-R412). -/

namespace Sys2Proof.Machine

/-! Trigger counters. -/

/-- Splitting a list at the first element that a test takes. -/
def takeFirst {α : Type} (p : α → Bool) : List α → Option (List α × α × List α)
  | [] => none
  | x :: l => if p x then some ([], x, l) else (takeFirst p l).map (fun r => (x :: r.1, r.2.1, r.2.2))

/-- Whether something of a source is an earlier request or increment to a counter (R278, R376). -/
def earlierGet (src : IncSource) (c : BitVec 12) (l : List InFlight) : Bool :=
  l.any (fun f => match f, src with | .get w k, .well v => w == v && k == c | _, _ => false)
def earlierInc (w : WellId) (c : BitVec 12) (l : List InFlight) : Bool :=
  l.any (fun f => match f with | .inc (.well v) k _ => v == w && k == c | _ => false)

/-- TRIGGER_INCREMENT (R376): the oldest increment of a source arrives. -/
def execTriggerIncrement (src : IncSource) (s : State) : Out :=
  .next (match takeFirst (fun f => match f with | .inc x _ _ => x == src | _ => false) s.inflight with
    | some (pre, .inc _ c n, post) =>
      if earlierGet src c pre then s else applyInc c n { s with inflight := pre ++ post }
    | _ => s)

/-- TRIG_GET_REQUEST_ARRIVAL (R278): the counter's VALUE is written to the `trig.get`'s gd; a saturated counter reads
0xFFFF_FFFF, which its VALUE is. A counter whose engine's domain is off returns no data (R21). -/
def execTrigGetRequestArrival (w : WellId) (s : State) : Out :=
  .next (match takeFirst (fun f => match f with | .get v _ => v == w | _ => false) s.inflight with
    | some (pre, .get _ c, post) =>
      if earlierInc w c pre || !engOn s (engOfCtr c) then s
      else
        let v := s.counters[c.toFin].value.setWidth 64
        ({ s with inflight := pre ++ post }).modCpu w (fun cpu => match cpu.getPend with
          | [] => cpu
          | (bank, n) :: r => { cpu.gSet bank n v with getPend := r })
    | _ => s)

/-- CF_CTR_WRITE (R377, R410): Headwater or the fabric cores write a counter, which clears SAT. -/
def execCfCtrWrite (c : CtrId) (staged : Bool) (value : BitVec 32) (s : State) : Out :=
  .next (if !engOn s (engOfCtr (BitVec.ofNat 12 c.val)) then s else { s with counters := s.counters.set c { value := value, sat := false, staged := staged } })

/-! Post queues. -/

/-- The next descriptor of a post queue (R380, R381): eight words, a hold, or none where nothing is to be read. -/
def queueWords (e : EngineId) (q : Fin 16) (s : State) : Option (EngRes (List Byte)) :=
  let x := s.cf.engines[e].queues[q]
  let k := fieldN x.w1 60 4 + 4
  let ctr := s.counters[(qPctr x).toFin]
  if !engOn s e || !bitB x.w0 63 || decide (12 < k) || decide (ctr.value.toNat ≤ x.consumed.toNat) || decide (256 ≤ (s.cf.engines[e].ops.filter (fun o => !o.aborted)).length) then none
  else
    let off := x.consumed.toNat % 2 ^ k * 64
    if bitB x.w0 62 then
      let w : WellId := Fin.ofNat 128 (fieldN x.w0 24 7)
      let o := fieldN x.w0 0 24 + off
      if !s.wellOn w || !engBridgeOn s e || decide (o < max 0x700000 ((s.cpu w).drlim.toNat * 0x1000)) || decide (0x720000 < o + 64) then none
      else
        let r := eccRead w 5 o 64 s
        let c := weirCross (.engine e (2 ^ 32 + q.val)) (engNeed r.2 e (2 ^ 32 + q.val) false [(none, s.devId.toNat * 2 ^ 44 + wellAddr w o, 64)]) r.2
        some (match r.1, c.1 with | none, true => .ok (c.2.readBytes (wellAddr w o) 64) c.2 | none, false => .hold c.2 | some _, _ => .hold r.2)
    else some (engRead e (2 ^ 32 + q.val) (qAsid x) none (fieldN x.w0 0 56 + off) 64 s)

/-- A COLL_STATUS record for the fault pair (R385, R436): the status, the operation's group and SEQ. -/
def reportStatus (e : EngineId) (o : CollOp) (s : State) : State :=
  if o.status = 0x00 ∨ o.status = 0x08 then s
  else s.reportJob (engUnit e) 0x0B (putN 32 (oGroup o.words).toNat ||| putN 16 o.seq.toNat ||| o.status.setWidth 64) (qAsid s.cf.engines[e].queues[o.queue])

/-- POST_QUEUE_READ (R380, R386): the descriptor is armed, or refused with an INVALID status record. -/
def execPostQueueRead (e : EngineId) (q : Fin 16) (s : State) : Out :=
  .next (match queueWords e q s with
    | none => s
    | some (.hold s) => s
    | some (.bad _ s) => s
    | some (.ok bs s') =>
      let w : OWords := Vector.ofFn (fun (i : Fin 8) => bytesWord ((bs.drop (8 * i.val)).take 8))
      let x := s'.cf.engines[e]
      let o : CollOp := { id := s'.cf.nextId, words := w, queue := q, wthr := oWthr w, phase := .armed, status := 0, word1 := 0, seq := 0,
                          ran := (s'.stageNumber, s'.stg.attempt), got := none, round := 0, agreed := [], passed := [], sig0 := 0 }
      let eat (s : State) : State :=
        (s.modCf (fun c => { c with nextId := c.nextId + 1 })).modEng e (fun x =>
          { x with queues := x.queues.set q { x.queues[q] with consumed := x.queues[q].consumed + 1 } })
      if oValid s' x.queues[q] w then (eat s').modEng e (fun x => { x with ops := x.ops ++ [o] })
      else
        let o := { o with status := 0x02 }
        match engWrite e (2 ^ 32 + q.val) (qAsid x.queues[q]) none w[6].toNat (statusBytes o) s' with
        | .ok _ s => reportStatus e o (eat s)
        | .hold s => s
        | .bad _ s => reportStatus e o (eat s))

/-! Firing. -/

/-- The counter an operation watches. -/
def watched (s : State) (e : EngineId) (o : CollOp) : BitVec 12 := qCbase s.cf.engines[e].queues[o.queue] + BitVec.ofNat 12 (oWctr o.words)

/-- Whether an armed operation's counter has reached its threshold (R383). -/
def mayFire (s : State) (e : EngineId) (c : CtrId) (o : CollOp) : Bool :=
  engOn s e && o.phase == .armed && (watched s e o).toFin == c && !s.counters[c].sat && decide (o.wthr.toNat ≤ s.counters[c].value.toNat) &&
    (groupOf s (oGroup o.words)).isSome

/-- The reach of the job that holds a post queue escapes (R422). -/
def escapeQueue (e : EngineId) (q : Fin 16) (s : State) : State :=
  { s with jobs := s.jobs.map (fun j => if j.queues.any (fun x => x == (e, q)) then { j with escaped := true } else j) }

/-- An operation starts: but for a CHANNEL, it opens its signature round (R389, R391). -/
def startOp (e : EngineId) (o : CollOp) (g : Fin 64) (s : State) : State :=
  let x := s.far.groups[g]
  if oKind o.words = 9 then s.modOp e o.id (fun y => { y with phase := .data })
  else
    let sig := signatureOf s x o
    let z : BitVec 128 := if x.rank = 0 then sig else 0
    runRounds g (openRound g (sigRound o.seq) .signature [lo64 sig, hi64 sig, lo64 sig, hi64 sig, lo64 z, hi64 z]
      (s.modOp e o.id (fun y => { y with phase := .signature, round := sigRound o.seq })))

/-- The operation of a group that fired first among those that wait to start (R390). -/
def oldestFired (s : State) (g : Fin 64) : Option (EngineId × CollOp) :=
  let x := s.far.groups[g]
  let age (o : CollOp) : Nat := (x.seq - o.seq).toNat
  ((List.finRange 4).flatMap (fun e => (s.cf.engines[e].ops.filter (fun o => o.phase == .fired && oGroup o.words == x.gid)).map (fun o => (e, o)))).foldl
    (fun (best : Option (EngineId × CollOp)) q => match best with
      | some b => if age b.2 < age q.2 then some q else best
      | none => some q) none

/-- At most four collectives of a group run at once; they start in SEQ order (R390). -/
def startFired (g : Fin 64) : Nat → State → State
  | 0, s => s
  | n + 1, s =>
    if 4 ≤ runningIn s s.far.groups[g].gid then s
    else match oldestFired s g with
      | none => s
      | some (e, o) => startFired g n (startOp e o g s)

/-- The operations of a group that wait to start do so as places come free. -/
def startGroup (gid : BitVec 16) (s : State) : State := match groupOf s gid with | some g => startFired g 4 s | none => s

/-- An operation fires (R383, R390): it takes its SEQ, and starts when fewer than four of its group run. -/
def fireOp (e : EngineId) (o : CollOp) (g : Fin 64) (s : State) : State :=
  let x := s.far.groups[g]
  let s := escapeQueue e o.queue (s.modGroup g (fun x => { x with seq := x.seq + 1 }))
  startFired g 4 (s.modOp e o.id (fun y => { y with seq := x.seq, ran := (s.stageNumber, s.stg.attempt), phase := .fired }))

/-- OPERATION_FIRE (R383): of the operations that the counter has carried past their thresholds, the one armed first. -/
def execOperationFire (c : CtrId) (s : State) : Out :=
  .next (
    let hits := (List.finRange 4).flatMap (fun e => (s.cf.engines[e].ops.filter (mayFire s e c)).map (fun o => (e, o)))
    let first := hits.foldl (fun (best : Option (EngineId × CollOp)) q => match best with
      | some b => if q.2.id < b.2.id then some q else best
      | none => some q) none
    match first with
    | none => s
    | some (e, o) => match groupOf s (oGroup o.words) with | some g => fireOp e o g s | none => s)

/-- RILL_PACKET (R387, R399): one that belongs to another epoch, attempt or stage is discarded. -/
def execRillPacket (m : RillMsg) (s : State) : Out :=
  .next (match groupOf s m.group with
    | none => s
    | some g =>
      let x := s.far.groups[g]
      if x.epoch ≠ m.epoch ∨ s.stg.attempt ≠ m.attempt ∨ s.stageNumber ≠ m.stage then s
      else if m.down then
        (if x.rank ≠ 0 ∧ m.fromRank = rillParent x.rank.toNat ∧ x.rounds.any (fun r => r.round == m.round) then
          runRounds g (finishRound g m.round m.op m.lanes s) else s)
      else if !(rillKids x.rank.toNat x.members.length).contains m.fromRank then s
      else
        runRounds g (s.modGroup g (fun x =>
          if x.rounds.any (fun r => r.round == m.round) then
            x.modRound m.round (fun r => if r.kids.any (fun k => k.1 == m.fromRank) then r else { r with kids := r.kids ++ [(m.fromRank, m.lanes)] })
          else { x with rounds := x.rounds ++ [{ round := m.round, op := m.op, own := none, kids := [(m.fromRank, m.lanes)], result := none }] })))

/-! The data phase. The other members' contributions come with the command; what this device sends for them is out of the model's
sight. -/

/-- The operation that a data command names: of its KIND, in its data phase, its engine on, its group known. -/
def dataOp (e : EngineId) (k : Nat) (kind : Nat) (s : State) : Option (CollOp × Fin 64) :=
  match s.cf.engines[e].ops[k]? with
  | some o => if engOn s e && o.phase == .data && oKind o.words == kind then (groupOf s (oGroup o.words)).map (fun g => (o, g)) else none
  | none => none

/-- Uses of store tags at the source and the destination (R382). -/
def srcUse (o : OWords) : Option TagUse := if oSrcTag o = 1 then some .leaveFull else if oSrcTag o = 2 then some .consume else none
def dstUse (o : OWords) : Option TagUse := if oDstTag o = 1 then some .produce else none

/-- The ASID of an operation's queue. -/
def opAsid (s : State) (e : EngineId) (o : CollOp) : BitVec 16 := qAsid s.cf.engines[e].queues[o.queue]

/-- Every byte that the operation writes has been accepted (R384). -/
def markWritten (e : EngineId) (id : Nat) (s : State) : State := endOp e id 0x00 s

/-- Members' contributions in rank order: this device's own at its rank. -/
def inRankOrder {α : Type} (rank : Nat) (own : α) (others : List α) : List α := others.take rank ++ own :: others.drop rank

/-- A chunk that fails a check (R397): CORRUPT, a record for the fault pair, a partner report. -/
def corrupt (e : EngineId) (id : Nat) (chunk : Nat) (link : BitVec 6) (gid : BitVec 16) (s : State) : State :=
  let job := match s.cf.engines[e].ops.find? (fun o => o.id == id) with | some o => opAsid s e o | none => 0xFFFF
  let s := (endOp e id 0x06 s).reportJob (engUnit e) 0x0A (putN 48 link.toNat ||| putN 32 gid.toNat ||| w64 (chunk % 2 ^ 32)) job
  observe s.devId (engUnit e) 0x05 (BitVec.ofNat 32 chunk) s

/-- Blocks of a source with the lengths that their headers gave; a block without a header has its own length. -/
abbrev Blocks := List (Nat × List Byte)

/-- An operation reads its source once: what it has read stays with it while its destination makes it wait (R239). -/
def acquire (e : EngineId) (o : CollOp) (read : State → EngRes Blocks) (s : State) : EngRes Blocks :=
  match o.got with
  | some b => .ok b s
  | none => (read s).bind (fun b s => .ok b (s.modOp e o.id (fun o => { o with got := some b })))

/-- A source of one range. -/
def readSource (e : EngineId) (o : CollOp) (s : State) : EngRes Blocks :=
  let n := sourceBytes o.words
  (engRead e o.id (opAsid s e o) (srcUse o.words) o.words[2].toNat n s).bind (fun bs s => .ok [(n, bs)] s)

/-- What an access answers, carried on: a hold waits, an error ends the operation with its status. -/
def EngRes.follow {α : Type} (r : EngRes α) (e : EngineId) (o : CollOp) (f : α → State → State) : State :=
  match r with
  | .ok a s => f a s
  | .hold s => s
  | .bad st s => endOp e o.id st s

/-- The result is written, and every byte of it has been accepted. -/
def writeOut (e : EngineId) (o : CollOp) (puts : List (Option TagUse × Nat × List Byte)) (last : State → State) (s : State) : State :=
  (engWriteAll e o.id (opAsid s e o) puts s).follow e o (fun _ s => last (markWritten e o.id s))

/-- A reduction (R394): this device reads its source, the members' contributions are combined, and the share that is its own is
written. share: the range of elements or chunks, none where the rank writes nothing. -/
def reduceOp (e : EngineId) (o : CollOp) (g : Fin 64) (others : List (List Byte)) (share : Nat → Nat → Option (Nat × Nat)) (s : State) : State :=
  let x := s.far.groups[g]
  let w := o.words
  if others.length + 1 ≠ x.members.length ∨ others.any (fun b => b.length != sourceBytes w) then s
  else
    (acquire e o (readSource e o) s).follow e o (fun got s =>
      let all := inRankOrder x.rank.toNat (got.headD (0, [])).2 others
      match reduceAll w all with
      | .error k => let r := s.takeFree; corrupt e o.id k (r.1.truncate 6) x.gid r.2
      | .ok r =>
        let puts := match share r.length x.rank.toNat with
          | none => []
          | some (lo, hi) => [(dstUse w, w[3].toNat, r.bytes lo hi)]
        writeOut e o puts (fun s => s.modOp e o.id (fun y => { y with agreed := agreedOf w all })) s)

/-- ALLREDUCE (R394). -/
def execAllreduce (e : EngineId) (k : Nat) (others : List (List Byte)) (s : State) : Out :=
  .next (match dataOp e k 1 s with | some (o, g) => reduceOp e o g others (fun n _ => some (0, n)) s | none => s)

/-- REDUCE (R394): only ROOT writes. -/
def execReduce (e : EngineId) (k : Nat) (others : List (List Byte)) (s : State) : Out :=
  .next (match dataOp e k 2 s with
    | some (o, g) => reduceOp e o g others (fun n r => if r = oRoot o.words then some (0, n) else none) s
    | none => s)

/-- REDUCE_SCATTER (R386, R394): the share of a rank is a free value, since no rule states it. -/
def execReduceScatter (e : EngineId) (k : Nat) (others : List (List Byte)) (s : State) : Out :=
  .next (match dataOp e k 3 s with
    | some (o, g) => reduceOp e o g others (fun n r => some (Config.scatterShare n s.far.groups[g].members.length r)) s
    | none => s)

/-- RILL (R387): the combination of at most 64 B. -/
def execRill (e : EngineId) (k : Nat) (others : List (List Byte)) (s : State) : Out :=
  .next (match dataOp e k 8 s with | some (o, g) => reduceOp e o g others (fun n _ => some (0, n)) s | none => s)

/-- A transfer of whole blocks: what is read at this member and what is written from every member's block. -/
def moveOp (e : EngineId) (o : CollOp) (g : Fin 64) (others : List (List Byte)) (out : List (List Byte) → List Byte) (s : State) : State :=
  let x := s.far.groups[g]
  let w := o.words
  if others.length + 1 ≠ x.members.length ∨ others.any (fun b => b.length != sourceBytes w) then s
  else
    (acquire e o (readSource e o) s).follow e o (fun got s =>
      writeOut e o [(dstUse w, w[3].toNat, out (inRankOrder x.rank.toNat (got.headD (0, [])).2 others))] id s)

/-- ALLGATHER (R386): every member's block, in rank order. -/
def execAllgather (e : EngineId) (k : Nat) (others : List (List Byte)) (s : State) : Out :=
  .next (match dataOp e k 4 s with | some (o, g) => moveOp e o g others (fun l => l.flatten) s | none => s)

/-- BROADCAST (R386): ROOT's block at every member. -/
def execBroadcast (e : EngineId) (k : Nat) (others : List (List Byte)) (s : State) : Out :=
  .next (match dataOp e k 5 s with | some (o, g) => moveOp e o g others (fun l => l.getD (oRoot o.words) []) s | none => s)

/-- Bytes dropped toward ranks (R392): CF_DROP of each. -/
def addDrops (e : EngineId) : List (Nat × Nat) → State → State
  | [], s => s
  | (j, n) :: l, s =>
    addDrops e l (if n = 0 then s else s.modEng e (fun x =>
      let i : Fin 512 := Fin.ofNat 512 j
      if x.drops.any (fun d => d.1 == i) then { x with drops := x.drops.map (fun d => if d.1 == i then (i, countUp d.2 n) else d) }
      else { x with drops := x.drops ++ [(i, countUp Counter48.reset n)] }))

/-- A list cut into pieces of the given lengths. -/
def splitBy {α : Type} : List Nat → List α → List (List α)
  | [], _ => []
  | n :: l, xs => xs.take n :: splitBy l (xs.drop n)

/-- The send blocks of an ALLTOALL (R392): the length of each rank's block and its data, up to the slot capacity. A count-first source has
the padded layout, since no rule gives it one of its own. Headers and data are one access to the store tags. -/
def sendBlocks (e : EngineId) (o : CollOp) (members cap : Nat) (s : State) : EngRes Blocks :=
  let asid := opAsid s e o
  let u := srcUse o.words
  let base (j : Nat) : Nat := o.words[2].toNat + j * (cap + 8)
  let heads : List EngPiece := (List.range members).map (fun j => (u, base j, 8))
  (engPieces e o.id asid rightR heads s).bind (fun hs s =>
    (engCheckAll e o.id false hs s).bind (fun _ s =>
      (engBytes hs s).bind (fun hb s =>
        let lens := elemsOf 8 members hb
        let takes := lens.map (fun n => min n cap)
        let data : List EngPiece := ((List.range members).zip takes).map (fun x => (u, base x.1 + 8, x.2))
        (engReady e o.id asid false (heads ++ data) s).bind (fun xs s =>
          (engBytes xs s).bind (fun bs s => .ok (lens.zip (splitBy takes (bs.drop (8 * members)))) (engUseAll e o.id xs s))))))

/-- Running offsets of blocks placed one after another. -/
def runningOffsets : Nat → List (List Byte) → List Nat
  | _, [] => []
  | a, b :: l => a :: runningOffsets (a + b.length) l

/-- ALLTOALL (R392, R393). others: what each other member sends to this one; anyOver: the OR round's answer from the others. -/
def alltoallOp (e : EngineId) (o : CollOp) (g : Fin 64) (others : List (List Byte)) (anyOver : Bool) (s : State) : State :=
  let x := s.far.groups[g]
  let w := o.words
  let cap := (x.chanCap.getD (oChan w) 0).toNat
  let me := x.rank.toNat
  if others.length + 1 ≠ x.members.length then s
  else
    (acquire e o (sendBlocks e o x.members.length cap) s).follow e o (fun blocks s =>
      let own := (blocks.getD me (0, [])).2
      if x.chanKind.getLsbD (oChan w) then
        let got := inRankOrder me own others
        if anyOver || decide (cap < (got.map List.length).foldl (· + ·) 0) then endOp e o.id 0x03 s
        else writeOut e o [(dstUse w, w[3].toNat, got.flatten), (none, w[6].toNat + 16, (runningOffsets 0 got).flatMap (fun n => toBytes 8 n))] id s
      else
        let got := inRankOrder me own (others.map (fun b => b.take cap))
        let drops := ((List.range blocks.length).zip blocks).map (fun b => (b.1, b.2.1 - cap))
        let total := (drops.map (·.2)).foldl (· + ·) 0
        let puts := ((List.range got.length).zip got).map (fun b => (dstUse w, w[3].toNat + b.1 * (cap + 8), toBytes 8 b.2.length ++ b.2))
        writeOut e o puts (fun s => addDrops e drops (s.modOp e o.id (fun o => { o with word1 := w64 (min (2 ^ 64 - 1) total) }))) s)

/-- ALLTOALL. -/
def execAlltoall (e : EngineId) (k : Nat) (others : List (List Byte)) (anyOver : Bool) (s : State) : Out :=
  .next (match dataOp e k 6 s with | some (o, g) => alltoallOp e o g others anyOver s | none => s)

/-- BARRIER (R386): it carries no data. -/
def execBarrier (e : EngineId) (k : Nat) (s : State) : Out :=
  .next (match dataOp e k 7 s with | some (o, _) => markWritten e o.id s | none => s)

/-- CHANNEL (R391): slot CHAN of the group takes its capacity and kind. -/
def execChannel (e : EngineId) (k : Nat) (s : State) : Out :=
  .next (match dataOp e k 9 s with
    | some (o, g) =>
      let i := oChan o.words
      let bit : BitVec 8 := 1#8 <<< i
      markWritten e o.id (s.modGroup g (fun x => { x with
        chanKind := if oRoot o.words % 2 = 1 then x.chanKind ||| bit else x.chanKind &&& ~~~bit
        chanValid := x.chanValid ||| bit
        chanCap := x.chanCap.set (Fin.ofNat 8 i) (w64 (oCount o.words))
        chanQueue := x.chanQueue.set (Fin.ofNat 8 i) (e, o.queue) }))
    | none => s)

/-- Disarming, or arming again (R383). -/
def rearm (e : EngineId) (o : CollOp) (s : State) : State :=
  let t := o.wthr.toNat + oTstep o.words
  if oRearm o.words && o.status != 0x08 && decide (t < 2 ^ 32) then
    s.modOp e o.id (fun x => { x with wthr := BitVec.ofNat 32 t, phase := .armed, status := 0, word1 := 0, agreed := [], passed := [] })
  else s.modEng e (fun x => { x with ops := x.ops.filter (fun y => y.id != o.id) })

/-- Result chunks that come to this member from others: an ALLREDUCE, or a REDUCE at its root, of 64 chunks or more runs as a ring, in
which a member sums the chunks it owns itself (R394); smaller ones run as Rill sums. Which chunks a member owns is a free value. -/
def arrivals (s : State) (o : CollOp) : List Nat :=
  let chunks := o.agreed.length
  match groupOf s (oGroup o.words) with
  | none => []
  | some g =>
    let x := s.far.groups[g]
    let own := Config.scatterShare chunks x.members.length x.rank.toNat
    if x.members.length < 2 ∨ chunks < 64 ∨ !(oKind o.words = 1 ∨ (oKind o.words = 2 ∧ x.rank.toNat = oRoot o.words)) then []
    else (List.range chunks).filter (fun k => !(decide (own.1 ≤ k) && decide (k < own.2)))

/-- Whether every result chunk of an operation has passed the arrival check (R384, R397). -/
def allArrived (s : State) (o : CollOp) : Bool := o.status != 0 || (arrivals s o).all (fun k => o.passed.contains k)

/-- OPERATION_COMPLETE (R384, R385): the status record, then the increment, then the re-arming. -/
def completeOperation (e : EngineId) (k : Nat) (s : State) : State :=
  (match s.cf.engines[e].ops[k]? with
    | none => s
    | some o =>
      if o.phase != .written || !engOn s e || !allArrived s o then s
      else
        let done (s : State) : State :=
          let s := reportStatus e o s
          let n := oDamt o.words
          let c := qCbase s.cf.engines[e].queues[o.queue] + BitVec.ofNat 12 (oDctr o.words)
          let s := if o.status = 0 ∧ n ≠ 0 then { s with inflight := s.inflight ++ [InFlight.inc (.engine e) c (BitVec.ofNat 32 n)] } else s
          startGroup (oGroup o.words) (rearm e o (dropWeirs (.engine e o.id) s))
        match engWrite e o.id (opAsid s e o) none o.words[6].toNat (statusBytes o) s with
        | .ok _ s => done s
        | .hold s => s
        | .bad _ s => done s)

/-- GROUP_TIMEOUT (R400): the operation ends with TIMEOUT; word 1 of its record names the rank. -/
def execGroupTimeout (e : EngineId) (k : Nat) (rank : BitVec 16) (s : State) : Out :=
  .next (match s.cf.engines[e].ops[k]? with
    | none => s
    | some o =>
      if !o.running || o.phase == .written || !engOn s e then s
      else
        let dev := match groupOf s (oGroup o.words) with | some g => s.far.groups[g].members.getD rank.toNat 0 | none => 0
        observe dev (engUnit e) 0x06 (rank.setWidth 32)
          ((endOp e o.id 0x04 s).modOp e o.id (fun o => { o with word1 := rank.setWidth 64 })))

/-- COLL_PACKET (R396, R397): a chunk of a running operation is checked, also while its completion waits for the last results (R384);
one of another attempt or stage is discarded. -/
def execCollPacket (m : CollMsg) (s : State) : Out :=
  .next (
    if m.attempt ≠ s.stg.attempt ∨ m.stage ≠ s.stageNumber then s
    else match (List.finRange 4).findSome? (fun e => (s.cf.engines[e].ops.find? (fun o =>
        oGroup o.words == m.group && o.seq == m.seq && (o.phase == .data || (o.phase == .written && o.status == 0)))).map (fun o => (e, o))) with
    | none => s
    | some (e, o) =>
      let agreed := (o.agreed.find? (fun a => a.1 == m.chunk)).map (·.2)
      let good := residueOf m.elems == m.residue.toNat && (agreed.getD m.exp) == m.exp && !m.ovf
      if good then s.modOp e o.id (fun o => { o with
        agreed := if agreed.isSome then o.agreed else o.agreed ++ [(m.chunk, m.exp)]
        passed := if m.result && !o.passed.contains m.chunk then o.passed ++ [m.chunk] else o.passed })
      else corrupt e o.id m.chunk (BitVec.ofNat 6 m.link.val) m.group s)

/-! Fault reports. -/

/-- The bucket of R407 after refilling, in thousandths of a report: 64 reports a microsecond, 64 deep. -/
def refill (k : Link) (now : W64) : Nat := min 64000 (k.rptTokens + (now.toNat - k.rptTime.toNat) * 64)

/-- A FAULT_REPORT that has arrived (R405-R407). -/
def takeReport (l : Option LinkId) (words : Vector W64 4) (s : State) : State :=
  let k : CoalKey := { dev := words[0].extractLsb' 24 16, unit := words[0].extractLsb' 40 16, cls := words[0].extractLsb' 56 8, stage := words[1] }
  let from_ : BitVec 16 := words[0].extractLsb' 8 16
  let detail : BitVec 32 := words[2].truncate 32
  if fieldN words[0] 0 8 ≠ 0x10 then s
  else match l with
  | none => coalesce k from_ true detail s
  | some l =>
    let r := refill s.far.links[l] s.stg.t
    if 1000 ≤ r then coalesce k from_ true detail (s.modLink l (fun x => { x with rptTokens := r - 1000, rptTime := s.stg.t }))
    else if (coalFind s k).isSome then coalesce k from_ false detail (s.modLink l (fun x => { x with rptDrop := countUp x.rptDrop 1 }))
    else coalesce k from_ true detail s

/-- FAULT_REPORT (R406). -/
def execFaultReport (l : Option LinkId) (words : Vector W64 4) (s : State) : Out := .next (takeReport l words s)

/-- COALESCE_ENTRY_EXPIRE (R408): 64 stages after its stage, once its event has been delivered. -/
def execCoalesceEntryExpire (k : Fin 4096) (s : State) : Out :=
  .next (match s.cf.coal[k] with
    | some c => if c.delivered && decide (c.stage.toNat + 64 ≤ s.stageNumber.toNat) then s.modCf (fun x => { x with coal := x.coal.set k none }) else s
    | none => s)

end Sys2Proof.Machine
end

