-- ==== Sys2Proof/Machine/HwOps.lean ====
section
/-! DEFINITION. What Headwater does to wells and jobs: stopping, clearing, loading, records of a reach, replay, commit, rollback and
the end of a job (R415-R434), and PLATFORM reports (R456). -/

namespace Sys2Proof.Machine

/-! PLATFORM conditions. -/

/-- The endpoint keeps a platform event for the BMC and raises its in-band interrupt with ALERT_N (R512, R513). -/
def tellBmc (r : Report) (s : State) : State := { s with bmc := { s.bmc with events := s.bmc.events ++ [r], alert := true } }

/-- A PLATFORM record goes out now (R456). -/
def raisePlatform (r : Report) (s : State) : State :=
  let s := { s with bf := { s.bf with raised := (r.unit, s.stageNumber, s.stg.t) :: s.bf.raised.filter (fun x => x.1 != r.unit) } }
  tellBmc r { s with reports := s.reports ++ [{ r with stage := s.stageNumber }] }

/-- Whether a unit has raised a PLATFORM condition in the stage, or within 1 s while ROLE = OFF (R456). -/
def platformRaised (s : State) (unit : BitVec 16) : Bool :=
  s.bf.raised.any (fun x => x.1 == unit && (if s.stg.role = 0 then decide (s.stg.t.toNat < x.2.2.toNat + 1000000000) else x.2.1 == s.stageNumber))

/-- A PLATFORM condition (R456, R507): one per unit and stage; a second is held. -/
def platform (unit : BitVec 16) (detail : W64) (s : State) : State :=
  let r : Report := { unit := unit, cls := 0x10, stage := s.stageNumber, detail := detail, job := 0xFFFF, joined := [] }
  if platformRaised s unit then { s with bf := { s.bf with held := s.bf.held ++ [r] } } else raisePlatform r s

/-- Conditions held for a later stage go out, the first of each unit (R456). -/
def releasePlatform (s : State) : State :=
  let hs := s.bf.held
  hs.foldl (fun (s : State) r => if platformRaised s r.unit then { s with bf := { s.bf with held := s.bf.held ++ [r] } } else raisePlatform r s)
    { s with bf := { s.bf with held := [] } }

/-! Wells. -/

def hwMail (w : WellId) (kind : Nat) (arg : W64) (s : State) : State :=
  syncLine w 0 (s.modWell w (fun u => { u with mailIn := putN 56 kind ||| (arg &&& 0xFFFFFFFFFFFF) }))

/-- Stopping a well (R423 step 1): the Windlass issues nothing, the Millrace queue is halted and dropped, both Pump queues are dropped,
and what the Flume had issued completes (R155). -/
def stopWell (w : WellId) (s : State) : State :=
  let s := syncLine w 1 s
  let s := s.modCpu w (fun c => { c with running := false, stall := none })
  let s := dropMr w (s.modMr w (·.halt))
  let s := s.modFlume w (fun f => { f with window := [] })
  let p0 := wellPump w 0
  let p1 := wellPump w 1
  finishDropped p1 (dropQueue p1 (finishDropped p0 (dropQueue p0 s)))

/-- The bytes of a well: stores and data RAM read zero with correct ECC (R259). -/
def clearWellBytes (w : WellId) (s : State) : State :=
  let a := wellAddr w 0
  s.clearBytes a (a + 0x720000)

/-- R259: what the store error registers of a well hold goes into the wear record. -/
def recordWear (w : WellId) (s : State) : State :=
  let st := s.wells[w].st
  { s with bf := { s.bf with wellWear := s.bf.wellWear.set w (countUp s.bf.wellWear[w].1 st.cecnt.count.toNat, if bitB st.elast 63 then st.elast else s.bf.wellWear[w].2) } }

/-- R94, R157, R205, R259, R270: the well cleared, with its Pumps; banks that are OFF stay OFF. keep: the mode stays scoreboard (R423
step 4, R539). The Windlass's copies of the stage are not its own state. -/
def clearWell (w : WellId) (keep : Bool) (s : State) : State :=
  let s := clearWellBytes w (if keep then s else recordWear w s)
  let s := (s.modPump (wellPump w 0) (fun _ => Pump.reset)).modPump (wellPump w 1) (fun _ => Pump.reset)
  let s := { s with inflight := s.inflight.filter (fun f => match f with | .get v _ => v != w | _ => true) }
  s.modWell w (fun u => { u with
    cpu := { Windlass.reset with stageNumber := u.cpu.stageNumber, stagePhase := u.cpu.stagePhase }
    flume := Flume.reset
    mr := { Millrace.reset with trigBase := if keep then u.mr.trigBase else 0, trigCount := if keep then u.mr.trigCount else 0 }
    st := { u.st with
      tags := 0
      tagBad := []
      wbad := []
      claims := []
      waiters := []
      scoreboard := keep
      pend := false
      banks := u.st.banks.map (fun b => if b = .off then .off else .open)
      bankOp := none
      cecnt := if keep then u.st.cecnt else Counter48.reset
      elast := if keep then u.st.elast else 0 }
    mailOut := none })

/-- Bytes that Headwater reads from the stacks or the scratchpad, 512 B at a time; none where one of them is bad (R11, R313). -/
def hwRead (a n : Nat) (s : State) : Option (List Byte) × State :=
  if (centralRefusal s a).isSome then (none, s) else centralRead false a n s

/-- The header and body of the image at an address (R517), as Headwater reads them. -/
def imageAt (a : Nat) (s : State) : Option Image × State :=
  let h := hwRead a 1280 s
  match h.1 with
  | none => (none, h.2)
  | some hb =>
    let b := hwRead (a + 1280) (min (ofBytes ((hb.drop 8).take 4)) (16 * 1024 * 1024)) h.2
    (b.1.map (fun body => { header := hb, body := body }), b.2)

/-- A well takes the monitor's data RAM image and registers and starts in ring 0 at its entry with IE = 0; its instruction cache is
invalidated (R189, R205, R417). -/
def loadMonitor (w : WellId) (asid : BitVec 16) (m : Monitor) (s : State) : State :=
  (s.writeBytes (wellAddr w 0x700000) (m.ram.take 0x20000)).modCpu w (fun c => { c with
    exc := { c.exc with entry := m.entry, xsp := m.xsp, xbase := m.xbase, xlimit := m.xlimit, sltbase := m.sltbase }
    wasid := asid
    fetchAsid := asid
    drlim := m.drlim
    icache := []
    pc := m.entry.truncate 56 &&& ~~~7 })

def startWell (w : WellId) (s : State) : State := s.modCpu w (fun c => { c with running := true })

/-! Jobs. -/

/-- The physical wells of a job's virtual wells, each once. -/
def Job.wells (j : Job) : List WellId := j.vmap.eraseDups

/-- Every well of a job: those of its virtual wells and the others of its groups. -/
def jobWells (s : State) (k : Fin 32) : List WellId :=
  (s.jobs[k].vmap ++ (List.finRange 128).filter (fun (w : Fin 128) => s.wellJob[w] == some k)).eraseDups

/-- The counters of a grant. -/
def grantCtrs (j : Job) : List CtrId := (List.range j.ctrCount.toNat).map (fun i => Fin.ofNat 4096 (j.ctrBase.toNat + i))

/-- The reach record as it would be written now (R421). -/
def reachRecord (s : State) (j : Job) : ReachRec :=
  { reach := j.reach, number := s.stageNumber.truncate 48, attempt := s.stg.attempt, vmap := j.vmap,
    counters := (grantCtrs j).map (fun c => s.counters[c].value), consumed := j.queues.map (fun q => s.cf.engines[q.1].queues[q.2].consumed) }

/-- The JOB event (R488). -/
def jobEvent (k : Fin 32) (s : State) : State :=
  let j := s.jobs[k]
  let code : JobState → Nat := fun x => match x with
    | .free => 0 | .loading => 1 | .loaded => 2 | .running => 3 | .paused => 4 | .stopping => 5 | .clearing => 6
  s.event 0x03 (j.handle k) [(Config.jobStateCode (code j.state)).setWidth 64, j.endStatus.setWidth 64]

/-- A job changes state; the host hears of it. -/
def setJob (k : Fin 32) (st : JobState) (s : State) : State := jobEvent k (s.modJob k (fun j => { j with state := st }))

/-- The history ring takes a note (R421): it keeps the newest 4,096. -/
def note (k : Fin 32) (code : BitVec 8) (word : W64) (s : State) : State :=
  s.modJob k (fun j => { j with history := ((code, word) :: j.history).take 4096 })

/-- Whether a job belongs to the stage: STAGEBOUND, in the stage's basin. -/
def stageJob (s : State) (j : Job) : Bool := j.stageBound && (s.basinMode == 0 || j.basin == s.stg.basin)

/-- Slots of jobs in order. -/
def slots : List (Fin 32) := List.finRange 32

/-- The operations of a job's queues go (R423 step 2), but for those whose ABORTED record is still to be written. -/
def disarmJob (j : Job) (s : State) : State :=
  j.queues.foldl (fun (s : State) q => s.modEng q.1 (fun x => { x with ops := x.ops.filter (fun o => o.queue != q.2 || o.aborted) })) s

/-- Counters and CONSUMED of a record written back (R423 step 2). -/
def restoreRecord (j : Job) (r : ReachRec) (s : State) : State :=
  let s := ((grantCtrs j).zip r.counters).foldl (fun (s : State) c =>
    { s with counters := s.counters.set c.1 { s.counters[c.1] with value := c.2, sat := false } }) s
  (j.queues.zip r.consumed).foldl (fun (s : State) q => s.modEng q.1.1 (fun x => { x with
    queues := x.queues.set q.1.2 { x.queues[q.1.2] with consumed := q.2 } })) s

/-- Steps 2, 4 and 5 of R423 for every well of a job: cleared stores, the monitor reloaded; REPLAY_GO to those of its virtual wells. -/
def restartWells (k : Fin 32) (s : State) : State :=
  let j := s.jobs[k]
  let s := (jobWells s k).foldl (fun s w => loadMonitor w (j.handle k) j.mon (clearWell w true (enterScoreboard w s))) s
  j.wells.foldl (fun s w => hwMail w 0x82 j.reach (startWell w s)) s

/-- Whether a report names a unit of a job: its wells, and their Pumps. -/
def unitOfJob (s : State) (k : Fin 32) (unit : BitVec 16) : Bool :=
  let n := unit.toNat % 4096
  let own (w : Nat) : Bool := s.jobs[k].vmap.any (fun x => x.val == w)
  if unit.toNat / 4096 = 1 then own n else if unit.toNat / 4096 = 2 then decide (n < 256) && own (n / 2) else false

/-- Whether a leaf of a job covers a local address: the model's reading of which jobs read a sector (R436). -/
def jobReads (s : State) (k : Fin 32) (pa : Nat) : Bool :=
  s.jobs[k].leaves.any (fun x =>
    let g := x.2.1.toNat
    let size := if x.2.2 then 2 ^ 32 else 2 ^ 26
    g / 2 ^ 44 == s.devId.toNat && decide (g % 2 ^ 44 ≤ pa ∧ pa < g % 2 ^ 44 + size))

/-- Jobs that a report's replay concerns (R423, R436). -/
def reportJobs (s : State) (r : Report) : List (Fin 32) :=
  slots.filter (fun k => let j := s.jobs[k]
    (j.state == .running || j.state == .paused) &&
      (if r.cls = 0x07 ∨ r.cls = 0x08 then jobReads s k r.detail.toNat else unitOfJob s k r.unit))

/-- Reports for the same reach that have arrived already join the replay (R423, R437). -/
def joinReports (k : Fin 32) (s : State) : State :=
  { s with reports := s.reports.map (fun r => if (reportJobs s r).contains k then { r with joined := k :: r.joined } else r) }

/-- Stopping every well of a job. -/
def stopJobWells (k : Fin 32) (s : State) : State := (jobWells s k).foldl (fun s w => stopWell w s) s

/-- Codes of the history ring's notes on fault decisions (R421): the spec numbers none. -/
def noteReplay : BitVec 8 := 0x20
def noteRepeat : BitVec 8 := 0x21
def noteStop : BitVec 8 := 0x22
def noteRetire : BitVec 8 := 0x23

/-- Step 1 of a replay of the current reach (R423). -/
def beginReplay (k : Fin 32) (s : State) : State :=
  (stopJobWells k (joinReports k (note k noteReplay 0 s))).modJob k (fun j => { j with cont := some .replay, reachDone := [], stageDone := [] })

/-- Steps 2 to 5 of a replay (R423). -/
def finishReplay (k : Fin 32) (s : State) : State :=
  let s := joinReports k (s.modJob k (fun j => { j with cont := none }))
  let j := s.jobs[k]
  let s := restoreRecord j j.cur (disarmJob j s)
  let s := restartWells k s
  let s := s.modJob k (fun j => { j with replays := stick 16 j.replays, replaysAll := stick 16 j.replaysAll,
                                         reachReplays := j.reachReplays + 1 })
  let s := { s with hw := { s.hw with wellReplays := j.wells.foldl (fun (v : Vector (BitVec 32) 128) (w : Fin 128) => v.set w (stick 32 v[w])) s.hw.wellReplays } }
  let j := s.jobs[k]
  s.event 0x05 (j.handle k) [putN 16 j.replaysAll.toNat ||| j.replays.setWidth 64]

/-- The next reach starts (R420): its record is written, then REACH_GO to every well. -/
def reachGo (k : Fin 32) (s : State) : State :=
  let s := s.modJob k (fun j => { j with reach := j.reach + 1, escaped := false, reachReplays := 0, reachDone := [], paused := false })
  let s := s.modJob k (fun j => { j with cur := reachRecord s j })
  let j := s.jobs[k]
  j.wells.foldl (fun s w => hwMail w 0x81 j.reach s) s

/-- Whether the event buffer is full (R444). -/
def bufferFull (s : State) : Bool := decide (65536 ≤ s.events.length)

/-- REACH_GO, or PAUSED with reason EVBUF while the event buffer is full (R444): every virtual well then waits for its REACH_GO. -/
def reachGoOrPause (k : Fin 32) (s : State) : State :=
  if bufferFull s then setJob k .paused (s.modJob k (fun j => { j with paused := true, reachDone := j.vmap })) else reachGo k s

/-- Commit at an adopted ADVANCE (R430, R421): captures in progress complete, G rises, the log empties; the wells that wait with
STAGE_DONE start the following reach. The checkpoint is the record of the stage's first reach: that reach's own, or the current one's
where the job was not at the end of its stage. -/
def commitJob (k : Fin 32) (done : Bool) (s : State) : State :=
  let s := { s.modJob k (fun j => { j with genG := j.genG + 1, log := [], captured := [], replays := 0, stageDone := [] }) with
    capturing := s.capturing.filter (fun c => chunkJob s c != some k) }
  let s := if done && s.jobs[k].state == .running then reachGoOrPause k s else s
  s.modJob k (fun j => { j with ckpt := if done && j.paused then reachRecord s { j with reach := j.reach + 1 } else j.cur })

/-- The stage of every STAGEBOUND job of the basin commits (R346 step 2). -/
def commitStage (s : State) : State :=
  slots.foldl (fun s k =>
    let j := s.jobs[k]
    if stageJob s j && (j.state == .running || j.state == .paused) then
      commitJob k (j.vmap.length == j.stageDone.length) s
    else s) s

/-- Pre-images copied back (R431 step 2); the writes are Headwater's own and never capture. -/
def restoreImages (j : Job) (s : State) : State := j.log.foldl (fun s c => centralWrite (c.1 * 4096) c.2 s) s

/-- Rollback of one job at an adopted REPEAT (R431). -/
def rollbackJob (k : Fin 32) (s : State) : State :=
  let s := restoreImages s.jobs[k] s
  let s := { s.modJob k (fun j => { j with
    cont := none
    genG := j.genG + 1
    log := []
    captured := []
    cur := j.ckpt
    reach := j.ckpt.reach
    escaped := false
    replays := 0
    reachReplays := 0
    reachDone := []
    stageDone := [] }) with capturing := s.capturing.filter (fun c => chunkJob s c != some k) }
  let j := s.jobs[k]
  restartWells k (joinReports k (restoreRecord j j.cur (disarmJob j s)))

/-- A REPEAT is adopted (R346, R390, R399, R431): the engines' operations stop, and every STAGEBOUND job of the basin is stopped. -/
def beginRollback (s : State) : State :=
  let ks := slots.filter (fun k => stageJob s s.jobs[k] && (s.jobs[k].state == .running || s.jobs[k].state == .paused))
  let s := resetSeqs (abortEngines s.stg.basin s)
  let s := ks.foldl (fun s k => (stopJobWells k s).modJob k (fun j => { j with cont := some .rollback, reachDone := [], stageDone := [] })) s
  { s with hw := { s.hw with rolling := true } }

/-- Increments that are under way arrive, in their order: none travels when the snapshot is restored (R399 step 3). -/
def settleIncs (s : State) : State :=
  s.inflight.foldl (fun s f => match f with | .inc _ c n => applyInc c n s | _ => s)
    { s with inflight := s.inflight.filter (fun f => match f with | .inc .. => false | _ => true) }

/-- The rest of the rollback once every job concerned has stopped (R379, R399, R431). -/
def finishRollback (s : State) : State :=
  let s := snapEngines s.stg.basin (restoreEngines s.stg.basin (settleIncs s))
  let s := { s with hw := { s.hw with rolling := false } }
  slots.foldl (fun s k => if s.jobs[k].cont = some .rollback then rollbackJob k s else s) s

/-- Every translation fault record of an ASID is ABORTed (R433 step 3). -/
def abortRecords (asid : BitVec 16) (s : State) : State :=
  (List.finRange 6).foldl (fun s f => (List.finRange 64).foldl (fun s k =>
    match s.fronts[f].records[k] with
    | some r => if r.asid = asid then frespAbort f k asid (granuleOf r.va) s else s
    | none => s) s) s

/-- The operations of a job's queues, with their engines. -/
def jobOps (s : State) (j : Job) : List (EngineId × CollOp) :=
  j.queues.flatMap (fun q => (s.cf.engines[q.1].ops.filter (fun o => o.queue == q.2)).map (fun o => (q.1, o)))

/-- Every operation of a job's queues completes with ABORTED, armed ones too (R433 step 2); one whose record cannot be written yet
completes later. -/
def abortJobOps (j : Job) (s : State) : State :=
  let s := (jobOps s j).foldl (fun s x => if x.2.aborted then s else abortOp x.1 x.2 s) s
  (jobOps s j).foldl (fun s x => match s.cf.engines[x.1].ops.findIdx? (fun o => o.id == x.2.id) with
    | some i => completeOperation x.1 i s
    | none => s) s

/-- An invalidation that Headwater runs for a job: at most four are admitted, and a fifth waits (R290). -/
def admitOwn (asid : BitVec 16) (s : State) : State :=
  if s.invals.length < 4 then admitInval asid none none s else { s with hw := { s.hw with invWait := s.hw.invWait ++ [asid] } }

/-- Local pages of a job's leaves that no other job maps (R434). -/
def pagesToClear (s : State) (k : Fin 32) : List (Nat × Nat) :=
  s.jobs[k].leaves.filterMap (fun x =>
    let size := if x.2.2 then 2 ^ 32 else 2 ^ 26
    let g := x.2.1.toNat
    let others := slots.any (fun i => i != k && s.jobs[i].state != .free && s.jobs[i].leaves.any (fun y =>
      decide (g < y.2.1.toNat + (if y.2.2 then 2 ^ 32 else 2 ^ 26) ∧ y.2.1.toNat < g + size)))
    if others || g / 2 ^ 44 != s.devId.toNat then none
    else match placeOf (g % 2 ^ 44) with | .stack _ => some (g % 2 ^ 44, size) | _ => none)

/-- Step 1 of the end of a job (R433): its state is STOPPING, and its wells stop. -/
def beginEnd (k : Fin 32) (status : Nat) (s : State) : State :=
  let j := s.jobs[k]
  if j.state == .free || j.state == .clearing || j.state == .stopping then s
  else
    let s := setJob k .stopping (s.modJob k (fun j => { j with endStatus := Config.endStatusCode status, paused := false, cont := some .finish }))
    stopJobWells k s

/-- Steps 1 to 4 of R433 once the wells have stopped: scoreboard mode, ABORTED operations, the invalidation, the records, the protection
ranges; what is to be cleared is then known, and the job is CLEARING. -/
def finishEnd (k : Fin 32) (s : State) : State :=
  let j := s.jobs[k]
  let s := (jobWells s k).foldl (fun s w => enterScoreboard w s) s
  let s := disarmJob j (abortJobOps j s)
  let s := abortRecords (j.handle k) (admitOwn (j.handle k) s)
  let s := { s with prot := s.prot.filter (fun r => r.job != k), capturing := s.capturing.filter (fun c => chunkJob s c != some k) }
  let zs := pagesToClear s k
  setJob k .clearing (s.modJob k (fun j => { j with log := [], captured := [], cont := none, zeroes := zs }))

/-! Bulk Pumps (R264, R434). -/

/-- The bulk Pumps of a basin. -/
def bulkPumps (s : State) (basin : Nat) : List PumpId :=
  (List.finRange 16).filterMap (fun b => if s.basinMode = 0 ∨ basinOfBulk s.basinMode b.val = basin then some (Fin.ofNat 272 (256 + b.val)) else none)

/-- The ZERO descriptor of a page (R267). -/
def zeroDesc (a n : Nat) : DWords := #v[putN 8 2 ||| 4, 0, w64 a, w64 (n % 2 ^ 32), 0, 0, 0, 0]

/-- Headwater queues a descriptor on a bulk Pump with the job's ASID beside it (R264). -/
def bulkSubmit (p : PumpId) (asid : BitVec 16) (d : DWords) (s : State) : State :=
  enqueue p (mkDesc Millrace.reset d s.pumps[p].nextSeq asid 0) s

/-- The shortest queue of the basin that has room. -/
def bulkRoom (s : State) (basin : Nat) : Option PumpId :=
  (bulkPumps s basin).foldl (fun (m : Option PumpId) p =>
    if queueCap p ≤ s.pumps[p].queue.length then m
    else match m with
      | some q => if s.pumps[p].queue.length < s.pumps[q].queue.length then some p else m
      | none => some p) none

/-- The next pages of a job go to the bulk Pumps of its basin, as far as their queues have room. -/
def feedZeroes (k : Fin 32) (s : State) : State :=
  s.jobs[k].zeroes.foldl (fun s x => match bulkRoom s s.jobs[k].basin.toNat with
    | some p => (bulkSubmit p (s.jobs[k].handle k) (zeroDesc (s.devId.toNat * 2 ^ 44 + x.1) x.2) s).modJob k (fun j => { j with zeroes := j.zeroes.tail })
    | none => s) s

/-- Whether a bulk Pump still runs a descriptor of an ASID. -/
def bulkBusy (s : State) (asid : BitVec 16) : Bool :=
  (List.finRange 16).any (fun b => s.pumps[(Fin.ofNat 272 (256 + b.val) : Fin 272)].queue.any (fun d => d.asid == asid))

/-- Whether everything that runs for a job's clearing has ended (R433, R434): its records, its invalidation, its pages. -/
def clearingDone (s : State) (k : Fin 32) : Bool :=
  let j := s.jobs[k]
  let h := j.handle k
  j.state == .clearing && j.zeroes.isEmpty && !bulkBusy s h && !s.invals.any (fun v => v.asid == h) && !s.hw.invWait.contains h &&
    (jobOps s j).all (fun x => !engOn s x.1)

/-- Names of end statuses (R424, R425, R433, R436, R455, R503, R506, R531), as Config.endStatusCode takes them. -/
def esDone : Nat := 0
def esKilled : Nat := 1
def esFaultEscaped : Nat := 2
def esReplayLimit : Nat := 3
def esNoSpareWell : Nat := 4
def esWedged : Nat := 5
def esMemErr : Nat := 6
def esClockLoss : Nat := 7
def esThermal : Nat := 8
def esDebug : Nat := 9

/-! Retirement. -/

/-- Well groups of a job's basin that no job owns and none of whose wells is retired or off. -/
def groupFree (s : State) (g : Nat) : Bool :=
  (List.range 4).all (fun i => let w : WellId := Fin.ofNat 128 (4 * g + i); s.wellJob[w].isNone && !s.hw.retired.getLsbD w.val && s.wellOn w)

/-- The lowest wholly free group of a basin. -/
def freeGroupOf (s : State) (basin : Nat) : Option Nat :=
  (List.range 32).find? (fun g => groupFree s g && basinOfWellN s.basinMode (Fin.ofNat 128 (4 * g)) == basin)

/-- DEV_CONFIG.WELLS_AVAILABLE (R30): the fuse value, one lower for each retired well. -/
def wellsAvailable (s : State) : BitVec 8 :=
  Config.fusesPrimary.wellsAvailable - BitVec.ofNat 8 ((List.range 128).filter (fun i => s.hw.retired.getLsbD i)).length

/-- The job of a well that cannot go on loses it (R425): its virtual wells move to a free group, or double up, or the job ends. -/
def moveWell (w : WellId) (s : State) : State :=
  match s.wellJob[w] with
  | none => s
  | some k =>
    let j := s.jobs[k]
    let s := { s with wellJob := s.wellJob.set w none }
    match freeGroupOf s j.basin.toNat with
    | some g =>
      let n : WellId := Fin.ofNat 128 (4 * g)
      let s := (List.range 4).foldl (fun (s : State) i => { s with wellJob := s.wellJob.set (Fin.ofNat 128 (4 * g + i)) (some k) }) s
      let s := s.modJob k (fun j => { j with vmap := j.vmap.map (fun x => if x = w then n else x), groups := j.groups ||| (1#32 <<< g) })
      s.modWell n (fun u => { u with mr := { u.mr with trigBase := j.ctrBase, trigCount := j.ctrCount },
                                     st := { u.st with banks := Vector.ofFn (fun (b : Fin 28) => if j.banks.getLsbD b.val then .open else .off) } })
    | none =>
      if j.double then
        let v := j.vmap.idxOf w
        let share := j.vmap.getD (if v = 0 then 1 else v - 1) w
        if share = w then beginEnd k esNoSpareWell s
        else s.modJob k (fun j => { j with vmap := j.vmap.map (fun x => if x = w then share else x) })
      else beginEnd k esNoSpareWell s

/-- A well's retirement begins (R425): it is stopped, and WELLS_AVAILABLE falls. -/
def beginRetire (w : WellId) (s : State) : State :=
  if s.hw.retired.getLsbD w.val then s
  else
    let s := match s.wellJob[w] with | some k => note k noteRetire (w64 w.val) s | none => s
    let s := stopWell w s
    ({ s with hw := { s.hw with retired := s.hw.retired ||| (1#128 <<< w.val), retiring := s.hw.retiring ++ [w] } }).report (wellUnit w) 0x0F 0

/-- Its clearing, and the move of its virtual wells, once it has stopped. -/
def finishRetire (w : WellId) (s : State) : State :=
  moveWell w (clearWell w true (enterScoreboard w { s with hw := { s.hw with retiring := s.hw.retiring.filter (· != w) } }))

/-! What Headwater goes on with. -/

/-- Whether both Pumps of a stopped well have ended their descriptors. -/
def wellDrained (s : State) (w : WellId) : Bool := s.pumps[wellPump w 0].queue.isEmpty && s.pumps[wellPump w 1].queue.isEmpty

/-- Whether every unit of a job that is being stopped has stopped (R249, R423, R433). -/
def jobStopped (s : State) (k : Fin 32) : Bool :=
  (jobWells s k).all (fun w => wellDrained s w && !s.hw.retiring.contains w)

/-- One job's replay or end goes on. -/
def jobGoesOn (k : Fin 32) (s : State) : State :=
  match s.jobs[k].cont with
  | some .replay => if jobStopped s k then finishReplay k s else s
  | some .finish => if jobStopped s k then finishEnd k s else s
  | _ => s

/-- Whether a rollback waits for nothing more. -/
def rollbackReady (s : State) : Bool := s.hw.rolling && slots.all (fun k => s.jobs[k].cont != some .rollback || jobStopped s k)

/-- Whether Headwater has anything to go on with. -/
def hwBusy (s : State) : Bool :=
  !s.hw.retiring.isEmpty || s.hw.rolling || slots.any (fun k => s.jobs[k].cont.isSome || !s.jobs[k].zeroes.isEmpty)

/-- What waited for stopped units goes on: retirements, then replays and ends, then a rollback, then the bulk Pumps' next pages. -/
def jobsGoOn (s : State) : State :=
  if !hwBusy s then s
  else
    let s := s.hw.retiring.foldl (fun s w => if wellDrained s w then finishRetire w s else s) s
    let s := slots.foldl (fun s k => jobGoesOn k s) s
    let s := if rollbackReady s then finishRollback s else s
    slots.foldl (fun s k => feedZeroes k s) s

/-- A replay of the current reach (R423). -/
def replayReach (k : Fin 32) (s : State) : State := jobsGoOn (beginReplay k s)

/-- The end of a job (R433). -/
def endJob (k : Fin 32) (status : Nat) (s : State) : State := jobsGoOn (beginEnd k status s)

/-- Every job that is loaded stops with a status. -/
def endAllJobs (status : Nat) (s : State) : State := slots.foldl (fun s k => endJob k status s) s

/-- A well is retired (R425). -/
def retireWell (w : WellId) (s : State) : State := jobsGoOn (beginRetire w s)

/-- A REPEAT is adopted. -/
def rollbackStage (s : State) : State := jobsGoOn (beginRollback s)

/-! The stage interrupts and copies (R332, R346, R347). -/

/-- Wells of the stage's basin. -/
def stageWells (s : State) : List WellId :=
  (List.finRange 128).filter (fun w => s.basinMode == 0 || basinOfWellN s.basinMode w == s.stg.basin.toNat)

/-- A stage line asserts at the wells of the stage's basin. -/
def stageLine (line : Fin 11) (s : State) : State := (stageWells s).foldl (fun s w => syncLine w line s) s

end Sys2Proof.Machine
end

