-- ==== Sys2Proof/Machine/BfOps.lean ====
section
/-! DEFINITION. Baseflow operations: telemetry sets, wear indicators and their prediction, the phase window (R447, R457-R466). -/

namespace Sys2Proof.Machine

/-! Units. -/

def domUnit (d : Nat) : BitVec 16 := BitVec.ofNat 16 (0xA000 + d)
def stackUnit (n : StackId) : BitVec 16 := BitVec.ofNat 16 (0x4000 + n.val)
def bfUnit (core : Nat) : BitVec 16 := BitVec.ofNat 16 (0x8000 + core)

/-! Telemetry. -/

/-- A counter entry (R465). -/
def counterEntry (unit : BitVec 16) (code : Nat) (c : Counter48) : W64 × W64 := (putN 48 unit.toNat ||| putN 32 code, counterWord c)

/-- A reading: a signed value in bits 31:0. -/
def readingEntry (unit : BitVec 16) (code : Nat) (v : Nat) : W64 × W64 := (putN 48 unit.toNat ||| putN 32 code, w64 (v % 2 ^ 32))

/-- A 16-bit two's-complement reading as a 32-bit one. -/
def sext16 (v : BitVec 16) : Nat := (v.signExtend 32).toNat

/-- Power of a domain: no command brings it, so it is a free value. -/
def domainPower (s : State) (d : Nat) : Nat := (Config.freeWord (s.free + d)).toNat % 2 ^ 31

def powerSet (s : State) : List (W64 × W64) :=
  (List.range 45).map (fun d => readingEntry (domUnit d) 0x0050 (domainPower s d)) ++ [readingEntry 0xA02C 0x0053 (s.pw.watts.toNat * 1000)]

def thermalSet (s : State) : List (W64 × W64) :=
  (List.finRange 24).map (fun n => readingEntry (stackUnit n) 0x0051 (sext16 s.pw.stackTemps[n])) ++
    (List.finRange 45).map (fun d => readingEntry (domUnit d.val) 0x0051 (sext16 s.pw.temps[d]))

def halfEntries (s : State) (codes : List (Nat × (CisternHalf → Counter48))) : List (W64 × W64) :=
  (List.finRange 2).flatMap (fun h => codes.map (fun c => counterEntry (sliceUnit h 0) c.1 (c.2 s.halves[h])))

def stackEntries (s : State) (codes : List (Nat × (StackCtl → Counter48))) : List (W64 × W64) :=
  (List.finRange 24).flatMap (fun n => codes.map (fun c => counterEntry (stackUnit n) c.1 (c.2 s.stks[n])))

def memorySet (s : State) : List (W64 × W64) :=
  halfEntries s [(0x0011, (·.hits)), (0x0012, (·.misses)), (0x0013, (·.wbacks)), (0x0014, (·.lcreqs))] ++
    stackEntries s [(0x0022, (·.rdbytes)), (0x0023, (·.wrbytes))]

def fabricSet (s : State) : List (W64 × W64) :=
  (List.finRange 36).flatMap (fun l =>
    let k := s.far.links[l]
    let u := linkUnit l
    [counterEntry u 0x0030 k.corr, counterEntry u 0x0031 k.uncorr, counterEntry u 0x0032 k.retry, counterEntry u 0x0033 k.crcerr,
     counterEntry u 0x0034 k.autherr, counterEntry u 0x0035 k.drop, readingEntry u 0x0038 (sext16 k.txpwr), readingEntry u 0x0039 (sext16 k.rxpwr),
     readingEntry u 0x003A k.bias.toNat])

def errorsSet (s : State) : List (W64 × W64) :=
  (List.finRange 128).map (fun w => counterEntry (wellUnit w) 0x0003 s.wells[w].st.cecnt) ++
    halfEntries s [(0x0010, (·.cecnt))] ++ stackEntries s [(0x0020, (·.cecnt)), (0x0021, (·.odecc))] ++
    (List.finRange 36).flatMap (fun l => [counterEntry (linkUnit l) 0x0030 s.far.links[l].corr, counterEntry (linkUnit l) 0x0031 s.far.links[l].uncorr])

def wellsSet (s : State) : List (W64 × W64) :=
  (List.finRange 128).flatMap (fun w =>
    [counterEntry (wellUnit w) 0x0001 s.wells[w].cpu.cycle, counterEntry (wellUnit w) 0x0002 s.wells[w].cpu.instret])

/-! Wear (R459-R462). -/

/-- The wear entries in order of unit ID and then of code (R460), without the device entry. -/
def wearKeys : List (BitVec 16 × BitVec 8) :=
  (List.range 24).map (fun n => (BitVec.ofNat 16 (0x4000 + n), 0x03)) ++
    (List.range 36).map (fun l => (BitVec.ofNat 16 (0x5000 + l), 0x02)) ++
    (List.range 45).flatMap (fun d =>
      (if d < 32 ∨ (40 ≤ d ∧ d < 44) then [(domUnit d, (0x01 : BitVec 8))] else []) ++ [(domUnit d, 0x04), (domUnit d, 0x05)]) ++
    [(0xFFFF, 0x06)]

/-- An entry that holds no data. -/
def WearEntry.fresh (k : BitVec 16 × BitVec 8) : WearEntry :=
  { unit := k.1, code := k.2, reading := 0, hist := [], at90 := false, at100 := false, valid := false }

/-- The entries of a device that has loaded no wear log. -/
def wearFresh : List WearEntry := wearKeys.map WearEntry.fresh

/-- R₀ and R_L scaled by two, as the limit of LASER_BIAS is 1.5 × R₀ (R459). -/
def wearBounds (e : WearEntry) : Int × Int :=
  let r0 : Int := if e.code = 1 ∨ e.code = 2 then Config.wearAtManufacture e.unit.toNat e.code.toNat else 0
  let rl : Int := if e.code = 1 then 30 else if e.code = 2 then 3 * r0 else if e.code = 3 then 2048 else if e.code = 4 then 2 * (61320 * 3600 * 2 ^ 20)
    else if e.code = 5 then 80000 else 0
  (2 * r0, rl)

/-- Numerator and denominator of USED, clamped to 0-1; AGE's is 0. -/
def WearEntry.used (e : WearEntry) : Nat × Nat :=
  if e.code = 6 ∨ !e.valid then (0, 1)
  else
    let b := wearBounds e
    let n : Int := 2 * (e.reading.toNat : Int) - b.1
    let d : Int := b.2 - b.1
    let n := if d < 0 then -n else n
    let d := d.natAbs
    if d = 0 then (1, 1) else if n ≤ 0 then (0, d) else (min n.toNat d, d)

/-- Largest m below 2^16 that a downward-closed test takes, by halving. -/
def largest (p : Nat → Bool) : Nat → Nat → Nat
  | 0, acc => acc
  | k + 1, acc => largest p k (if p (acc + 2 ^ k) then acc + 2 ^ k else acc)

/-- Months from USED to 1 at a rate r + c * sigma per month, with sigma given by its square: floor, 0xFFFF where the rate is not above
zero (R461). -/
def monthsAt (left r var : Rat) (c : Int) : Nat :=
  let cc : Rat := c
  let below (m : Nat) : Bool :=
    let t : Rat := left - (m : Rat) * r
    -- m * (r + c * sigma) ≤ left
    if 0 ≤ c then decide (0 ≤ t) && decide (cc * cc * var * (m : Rat) * (m : Rat) ≤ t * t)
    else decide (0 ≤ t) || decide (t * t ≤ cc * cc * var * (m : Rat) * (m : Rat))
  let positive : Bool :=
    if 0 ≤ c then decide (0 < r) || decide (r * r < cc * cc * var) else decide (0 < r) && decide (cc * cc * var < r * r)
  if !positive then 0xFFFF else largest below 16 0

/-- Least-squares slope per sample and its squared standard error (R461). -/
def slope (ys : List Rat) : Rat × Rat :=
  let n : Rat := ys.length
  let xs : List Rat := (List.range ys.length).map (fun (i : Nat) => (i : Rat))
  let mx := xs.sum / n
  let my := ys.sum / n
  let sxx := (xs.map (fun x => (x - mx) * (x - mx))).sum
  let sxy := ((xs.zip ys).map (fun p => (p.1 - mx) * (p.2 - my))).sum
  let r := sxy / sxx
  let sse := ((xs.zip ys).map (fun p => (p.2 - my - r * (p.1 - mx)) * (p.2 - my - r * (p.1 - mx)))).sum
  (r, sse / (n - 2) / sxx)

/-- Rounding to nearest of a non-negative rational, at most 0xFFFF. -/
def nearest16 (q : Rat) : Nat := if q ≤ 0 then 0 else min 0xFFFF (q + 1 / 2).floor.toNat

/-- LOW, EST, HIGH and the rate per month (R461); age in hours. -/
def WearEntry.predict (e : WearEntry) (age : Nat) : Nat × Nat × Nat × Rat :=
  let u := e.used
  let used : Rat := (u.1 : Rat) / (u.2 : Rat)
  let left := 1 - used
  if 14 ≤ e.hist.length then
    let f := slope (e.hist.map (fun (n : Nat) => (n : Rat) / (u.2 : Rat)))
    let r := 30 * f.1
    let v := 900 * f.2
    if u.1 = u.2 then (0, 0, 0, r) else (monthsAt left r v 2, monthsAt left r 0 0, monthsAt left r v (-2), r)
  else
    let r : Rat := if age = 0 then 0 else used / ((age : Rat) / 720)
    if u.1 = u.2 then (0, 0, 0, r) else (monthsAt left (3 / 2 * r) 0 0, monthsAt left r 0 0, monthsAt left (1 / 2 * r) 0 0, r)

/-- AGE (R459). -/
def ageHours (s : State) : Nat := ((s.bf.wear.find? (fun e => e.code == 6)).map (fun e => e.reading.toNat)).getD 0

/-- A unit's wear entry (R460). -/
def WearEntry.words (e : WearEntry) (age : Nat) : List W64 :=
  let u := e.used
  let p := e.predict age
  [putN 48 e.unit.toNat ||| putN 40 e.code.toNat ||| putB 35 (decide (e.hist.length < 14)) ||| putB 34 e.at100 ||| putB 33 e.at90 ||| putB 32 e.valid,
   putN 48 p.1 ||| putN 32 p.2.1 ||| putN 16 p.2.2.1,
   e.reading,
   putN 48 (if u.1 = u.2 then 0xFFFF else nearest16 (65536 * ((u.1 : Rat) / (u.2 : Rat)))) ||| putN 32 (nearest16 (65536 * p.2.2.2)) ||| w64 (min age (2 ^ 32 - 1))]

/-- The device entry (R462). -/
def deviceWear (s : State) : List W64 :=
  let age := ageHours s
  let ps := (s.bf.wear.filter (fun e => e.code != 6 && e.valid)).map (fun e => (e, e.predict age))
  let low := ps.foldl (fun m p => min m p.2.1) 0xFFFF
  let est := ps.foldl (fun m p => min m p.2.2.1) 0xFFFF
  let high := ps.foldl (fun m p => min m p.2.2.2.1) 0xFFFF
  let lim := (ps.find? (fun p => p.2.2.1 == est)).map (·.1)
  [putN 48 0xFFFF ||| putB 32 (!ps.isEmpty) ||| putN 16 ((lim.map (fun e => e.unit.toNat)).getD 0) ||| putN 8 ((lim.map (fun e => e.code.toNat)).getD 0),
   putN 48 low ||| putN 32 est ||| putN 16 high, 0, w64 (min age (2 ^ 32 - 1))]

/-- The entries of the wear section; those of a device that has loaded no wear log hold no data. -/
def wearEntries (s : State) : List WearEntry := if s.bf.wear.isEmpty then wearFresh else s.bf.wear

/-- The wear section: the device entry first (R460). -/
def wearWords (s : State) : List (List W64) := deviceWear s :: (wearEntries s).map (fun e => e.words (ageHours s))

def wearSet (s : State) : List (W64 × W64) :=
  (wearWords s).flatMap (fun l => [(l.getD 0 0, l.getD 1 0), (l.getD 2 0, l.getD 3 0)])

/-- The entries of a telemetry set (R464) and their number. -/
def telemetry (set : Nat) (s : State) : List (W64 × W64) × Nat :=
  match set with
  | 1 => (powerSet s, 46)
  | 2 => (thermalSet s, 69)
  | 3 => (memorySet s, 56)
  | 4 => (fabricSet s, 324)
  | 5 => (errorsSet s, 250)
  | 6 => (wellsSet s, 256)
  | 7 => (wearSet s, 188)
  | _ => ([], 0)

/-- A firing's sample is latched, or dropped where two wait (R466, R467). -/
def latchSample (set slot : Nat) (phase : BitVec 16) (number : W64) (attempt : BitVec 8) (s : State) : State :=
  if 2 ≤ s.bf.samples.length then { s with bf := { s.bf with teldrop := stick 8 s.bf.teldrop } }
  else
    let t := telemetry set s
    let x : TelSample := { w0 := putN 40 t.2 ||| putN 24 phase.toNat ||| putN 16 attempt.toNat ||| putN 8 slot ||| w64 set, w1 := number, entries := t.1 }
    { s with bf := { s.bf with samples := s.bf.samples ++ [x] }, free := if set = 1 then s.free + 45 else s.free }

/-! The phase window (R447). -/

/-- Whether scrubbing and wear-log writes may start new work now. -/
def bfWindowOpen (s : State) : Bool :=
  let lo := fieldN s.bf.phasewin 48 16
  let hi := fieldN s.bf.phasewin 32 16
  let p := s.stg.phase.toNat
  !bitB s.bf.ctl 3 || s.stg.sync != 2 || (if lo ≤ hi then decide (lo ≤ p ∧ p ≤ hi) else decide (lo ≤ p ∨ p ≤ hi))

/-! Checkpoints (R421). -/

def ReachRec.nats (r : ReachRec) : List Nat :=
  [r.reach.toNat, r.number.toNat, r.attempt.toNat] ++ r.vmap.map (·.val) ++ r.counters.map (·.toNat) ++ r.consumed.map (·.toNat)

/-- A record-area payload and the event that names it (R489). The event waits among the held ones where the area lacks space. -/
def recordEvent (type_ : BitVec 8) (job : BitVec 16) (bs : List Byte) (s : State) : State :=
  let b := s.by_
  let used := b.recUsed.foldl (fun n x => n + x.2) 0
  let up := b.state == .active || b.state == .retrain
  if b.recSize.toNat < used + bs.length ∨ !up then
    let t := s.event type_ job [0, w64 bs.length]
    { t with by_ := s.by_ }
  else
    let off := if b.recSize.toNat < b.recOff.toNat + bs.length then 0 else b.recOff.toNat
    let puts := (piecesOf 512 (bs.length / 512 + 1) bs)
    let items := ((List.range puts.length).zip puts).map (fun x => HostItem.hostwr (b.recBase + w64 (off + 512 * x.1)) x.2)
    let s := { s with by_ := { b with stream := b.stream ++ items, recOff := w64 (off + bs.length), recUsed := b.recUsed ++ [(s.evtSeq, bs.length)] } }
    s.event type_ job [w64 off, w64 bs.length]

/-- A gauge CHECKPOINT of a class (R349, R421), for every STAGEBOUND job of the stage's basin. -/
def checkpoint (cls : Nat) (s : State) : State :=
  slots.foldl (fun s k =>
    let j := s.jobs[k]
    if stageJob s j && (j.state == .running || j.state == .paused) then
      (if cls = 0 then s.modJob k (fun j => { j with ckpt := reachRecord s j })
       else if cls = 1 then recordEvent 0x04 (j.handle k) (Config.ledgerBytes j.cur.nats ++ Config.ledgerBytes j.ckpt.nats) s
       else note k 0x10 (w64 cls) s)
    else s) s

end Sys2Proof.Machine
end

