-- ==== Sys2Proof/Machine/StageOps.lean ====
section
/-! DEFINITION. The stage: marks, their adoption, the gauge scheduler, acknowledgement and the master (R332-R351, R368). -/

namespace Sys2Proof.Machine

def State.modStg (s : State) (f : Stage → Stage) : State := { s with stg := f s.stg }

/-- SYNC codes (R353). -/
def syOff : BitVec 2 := 0
def syUnsynced : BitVec 2 := 1
def sySynced : BitVec 2 := 2
def syLost : BitVec 2 := 3

/-- A STAGE-class host event (R436). -/
def stageEvent (detail : Nat) (s : State) : State := s.report 0x7001 0x0E (w64 detail)

/-! Phase and slots. -/

/-- The value of R342 at the present stage timer, and whether it is clamped. -/
def phaseNow (g : Stage) : BitVec 16 × Bool :=
  if g.l = 0 then (0, false)
  else
    let p := 65536 * (g.t.toNat - g.tmark.toNat) / g.l.toNat
    (BitVec.ofNat 16 (min p 0xFFFF), decide (0xFFFF < p))

/-- A slot's condition for a stage number (R348). -/
def Slot.condition (x : Slot) (number : W64) : Bool :=
  match fieldN x.w0 60 2 with
  | 0 => true
  | 1 => x.w1 == number
  | 2 => number.toNat % fieldN x.w0 16 16 == fieldN x.w0 0 16
  | _ => false

/-- A slot that is due in the attempt, whatever the phase (R350). -/
def slotOpen (g : Stage) (x : Slot) : Bool :=
  bitB x.w0 63 && x.condition g.number && !x.now && (g.attempt == 0 || bitB x.w0 62 || !x.earlier)

/-- Whether a slot's phase has come; while L = 0 only PHASE 0 does (R341). -/
def phaseReached (g : Stage) (x : Slot) : Bool := if g.l = 0 then fieldN x.w0 32 16 == 0 else decide (fieldN x.w0 32 16 ≤ g.phase.toNat)

/-- A firing: it waits for its dispatch in ascending slot order (R350). -/
def fireSlot (n : Fin 256) (g : Stage) : Stage :=
  { g with
    slots := g.slots.set n { g.slots[n] with fired := true, now := true, lastAtt := g.attempt, lastNum := g.number.truncate 48 }
    dispatch := g.dispatch ++ [{ slot := n, w0 := g.slots[n].w0, w2 := g.slots[n].w2, number := g.number, attempt := g.attempt }] }

/-- Firing every slot that a test takes. -/
def fireAll (p : Stage → Slot → Bool) (g : Stage) : Stage :=
  (List.finRange 256).foldl (fun (g : Stage) (n : Fin 256) => if slotOpen g g.slots[n] && p g g.slots[n] then fireSlot n g else g) g

/-- Adding to a count that sticks at 0xFFFF. -/
def stickBy (c : BitVec 16) (n : Nat) : BitVec 16 := BitVec.ofNat 16 (min 0xFFFF (c.toNat + n))

/-- Slots that settle late at the end of an attempt: every slot still due, or only those with PHASE = 0 while L = 0 (R341). -/
def lateSlot (g : Stage) (x : Slot) : Bool := g.l != 0 || fieldN x.w0 32 16 == 0

/-- Slots still due when an attempt ends: fired late at an ADVANCE, dropped at a REPEAT (R350). -/
def settleEnd (rep : Bool) (g : Stage) : Stage :=
  if g.sync ≠ sySynced then g
  else
    let n := ((List.finRange 256).filter (fun (i : Fin 256) => slotOpen g g.slots[i] && (rep || lateSlot g g.slots[i]))).length
    if rep then { g with dropped := stickBy g.dropped n } else { fireAll lateSlot g with latefire := stickBy g.latefire n }

/-- A waiting write takes its place in a slot (R348). -/
def Slot.settle (x : Slot) : Slot :=
  if x.p0.isNone && x.p1.isNone && x.p2.isNone then x
  else { x with w0 := x.p0.getD x.w0, w1 := x.p1.getD x.w1, w2 := x.p2.getD x.w2, p0 := none, p1 := none, p2 := none, fired := false, now := false, earlier := false }

/-- Slots at the start of an attempt. A REPEAT keeps what a slot has fired in earlier attempts of the same stage; a slot whose last firing
was in another stage has not fired in this one. -/
def startSlots (rep : Bool) (g : Stage) : Stage :=
  { g with slots := g.slots.map (fun (x : Slot) =>
      ({ x with earlier := rep && (x.earlier || x.now) && x.lastNum == g.number.truncate 48, now := false }).settle) }

/-! Acknowledgement (R344, R345, R426). -/

/-- A stage message (R337). -/
def stageMsg (kind : Nat) (attempt : BitVec 8) (number : W64) (epoch : BitVec 32) (s : State) : StageMsg :=
  { w0 := putN 40 s.stg.group.toNat ||| putN 16 s.devId.toNat ||| putN 8 attempt.toNat ||| w64 kind, w1 := number, w2 := epoch.setWidth 64, w3 := 0 }

def msgBytes (m : StageMsg) : List Byte := wordBytes m.w0 ++ wordBytes m.w1 ++ wordBytes m.w2 ++ wordBytes m.w3

/-- A stage message leaves on virtual channel 0 (R337, R356). -/
def sendStage (dev : BitVec 16) (m : StageMsg) (s : State) : State :=
  (sendPacket (Fin.ofNat 4 s.stg.basin.toNat) (mkPacket 6 0 0 s.devId dev 0 32 0 0 (msgBytes m)) s).2

/-- The epoch of the stage group. -/
def stageEpoch (s : State) : BitVec 32 := match groupOf s s.stg.group with | some g => s.far.groups[g].epoch | none => 0

/-- Whether this device is the master of its stage. -/
def isMaster (s : State) : Bool := s.stg.role == 2 || s.stg.role == 3

/-- An ACK reaches the master (R345). -/
def takeAck (dev : BitVec 16) (number : W64) (attempt : BitVec 8) (s : State) : State :=
  let g := s.stg
  if number = g.number + 1 ∧ attempt = g.attempt ∧ g.expected.contains dev ∧ g.sync = sySynced then
    s.modStg (fun g => if g.ackedBy.contains dev then g else { g with ackedBy := g.ackedBy ++ [dev] })
  else s.modStg (fun g => { g with stalew := stick 8 g.stalew })

/-- The master of the stage group. -/
def stageMaster (s : State) : BitVec 16 :=
  match groupOf s s.stg.group with | some g => s.far.groups[g].master | none => s.devId

/-- OP = READY (R344): the acknowledgement of the present attempt goes out once. -/
def readyWrite (attempt : BitVec 8) (number : BitVec 48) (s : State) : State :=
  let g := s.stg
  let s := { s with hw := { s.hw with lastAck := putN 62 1 ||| putN 48 attempt.toNat ||| number.setWidth 64 } }
  if g.sync ≠ sySynced ∨ number ≠ g.number.truncate 48 ∨ attempt ≠ g.attempt then s.modStg (fun g => { g with stalew := stick 8 g.stalew })
  else if g.acked then s
  else
    let s := s.modStg (fun g => { g with acked := true })
    if isMaster s then takeAck s.devId (g.number + 1) g.attempt s
    else sendStage (stageMaster s) (stageMsg 3 g.attempt (g.number + 1) (stageEpoch s) s) s

/-- Whether the stage is in force and SYNCED. -/
def stageSynced (s : State) : Bool := s.stg.role != 0 && s.stg.sync == sySynced

/-- Whether a job lets READY go (R426): RUNNING with every STAGE_DONE in, or no longer one that counts. A STAGEBOUND job that is LOADED,
PAUSED or stopping holds it back. -/
def jobReady (s : State) (j : Job) : Bool :=
  !stageJob s j || (match j.state with
    | .running => j.stageDone.length == j.vmap.length
    | .free | .clearing => true
    | _ => false)

/-- R426: READY once every condition holds; it has then been written for the attempt. -/
def tryReady (s : State) : State :=
  let g := s.stg
  if stageSynced s && !g.acked && !s.hw.jobHalted && slots.all (fun k => jobReady s s.jobs[k]) && !collectivesOpen g.basin s then
    readyWrite g.attempt (g.number.truncate 48) s
  else s

/-! Adoption. -/

/-- The new epoch of a group becomes current (R368 step 3): a device that is no longer a member frees its entry and turns ROLE OFF if
the group is its stage group. -/
def takeEpoch (g : Fin 64) (p : PendEpoch) (s : State) : State :=
  if p.members.contains s.devId then
    s.modGroup g (fun x => { x with epoch := p.epoch, members := p.members, rank := rankIn p.members s.devId, master := p.master,
                                    list := p.list, pend := none })
  else
    let gid := s.far.groups[g].gid
    let s := s.modGroup g (fun x => { Group.reset with timeout := x.timeout })
    if s.stg.group = gid ∧ s.stg.role ≠ 0 then
      s.modStg (fun g => { g with role := 0, sync := syOff, dispatch := [], held := [], marked := false, l := g.linit }) else s

/-- The slots of the group table. -/
def groupSlots : List (Fin 64) := List.finRange 64

/-- A pending change of one of this device's other groups at an adopted ADVANCE whose NUMBER has reached S' (R368): a member takes it; the
master takes it when every answer is in, and otherwise moves or cancels it. -/
def epochAt (number : W64) (g : Fin 64) (s : State) : State :=
  match s.far.groups[g].pend with
  | none => s
  | some p =>
    let x := s.far.groups[g]
    let all := (x.members ++ p.members).eraseDups
    if number.toNat < p.stage.toNat then s
    else if x.master ≠ s.devId ∨ all.all (fun d => p.oks.contains d) then takeEpoch g p s
    else if p.moves < 3 then s.modGroup g (fun x => { x with pend := some { p with stage := number + 1, moves := p.moves + 1 } })
    else
      let s := all.foldl (fun s d => if d = s.devId then s else sendGroup 0x22 x.gid p.epoch p.stage 0 d s) s
      let r := (cancelEpoch g s).takeFree
      r.2.report 0x6010 0x0D r.1

/-- Pending changes of the groups that are not the stage group (R368). -/
def epochOthers (number : W64) (s : State) : State :=
  groupSlots.foldl (fun s g => if s.far.groups[g].gid = s.stg.group then s else epochAt number g s) s

/-- An adopted mark takes effect (R346, R341): STAGE first, then the commit or the rollback of the stage with the engines' part in it
(R379, R390, R399), then the slots and the wells' line. -/
def adoptMark (m : Mark) (wire : Bool) (s : State) : State :=
  let s := s.modStg (settleEnd m.rep)
  let s := s.modStg (fun g => { g with
    number := m.number
    attempt := m.attempt
    lastKind := if m.rep then 2 else 1
    phase := 0
    clamped := false
    late := false
    l := if !g.marked then g.linit else if m.rep then g.l else BitVec.ofNat 40 (m.time.toNat - g.tmark.toNat)
    acked := false
    repeats := if m.rep then stick 16 g.repeats else g.repeats
    tmark := m.time
    marked := true
    byWire := wire
    sync := sySynced })
  let s := if m.rep then rollbackStage s else snapEngines s.stg.basin (resetSeqs (commitStage (epochOthers m.number s)))
  let s := s.modStg (fun g => fireAll (fun _ x => fieldN x.w0 32 16 == 0) (startSlots m.rep g))
  tryReady (stageLine (if m.rep then 2 else 3) (releasePlatform s))

/-- R340: what a mark does. -/
def offerMark (m : Mark) (wire : Bool) (s : State) : State :=
  let g := s.stg
  if g.role = 0 then s
  else if g.sync = syUnsynced then adoptMark m wire s
  else if g.sync ≠ sySynced then s
  else if !m.rep && m.number == g.number + 1 && m.attempt == 0 then adoptMark m wire s
  else if m.rep && m.number == g.number && m.attempt.toNat == g.attempt.toNat + 1 then adoptMark m wire s
  else if g.lastKind == (if m.rep then 2 else 1) && m.number == g.number && m.attempt == g.attempt then s
  else stageEvent 2 (s.modStg (fun g => { g with sync := syLost, mismatch := true }))

/-! The wire. -/

/-- One bit of CRC-16, polynomial 0x1021. -/
def crc16Bit (c : BitVec 16) (b : Bool) : BitVec 16 := if c.getLsbD 15 != b then (c <<< 1) ^^^ 0x1021 else c <<< 1

/-- CRC of KIND, ATTEMPT and NUMBER, most significant bit first (R334). -/
def wireCrc (body : BitVec 76) : BitVec 16 := (List.range 76).foldl (fun c i => crc16Bit c (body.getLsbD (75 - i))) 0xFFFF

/-- A wire mark's frame (R334). -/
def wireFrame (m : Mark) : BitVec 100 :=
  let kind : BitVec 4 := if m.rep then 2 else 1
  let body : BitVec 76 := kind ++ m.attempt ++ m.number
  (0xE2#8 ++ body) ++ wireCrc body

/-! The master (R345). -/

/-- Members of the stage group in the current epoch; LOCAL's group is this device alone (R332). -/
def stageMembers (s : State) : List (BitVec 16) :=
  if s.stg.role = 3 then [s.devId]
  else match groupOf s s.stg.group with | some g => s.far.groups[g].members | none => []

/-- The pending change of the stage group that takes the master out of it and has come due at ADVANCE(N), with every answer in: the
master emits and adopts that mark first (R368 step 3, of a leaving device). -/
def leavingAt (number : W64) (s : State) : Option (Fin 64 × PendEpoch) :=
  (groupOf s s.stg.group).bind (fun g => (s.far.groups[g].pend).bind (fun p =>
    if s.stg.role = 2 ∧ !p.members.contains s.devId ∧ p.stage.toNat ≤ number.toNat ∧
      (s.far.groups[g].members ++ p.members).all (fun d => p.oks.contains d) then some (g, p) else none))

/-- What becomes of a pending change of the stage group when the master emits ADVANCE(N) (R368 steps 3 and 4). -/
def epochAtAdvance (number : W64) (s : State) : State :=
  if (leavingAt number s).isSome then s
  else match groupOf s s.stg.group with
  | none => s
  | some g => epochAt number g s

/-- The master emits a mark: it takes its expected set, sends the mark to every other member, drives the wire where SOURCE selects it,
and adopts its own mark at once (R345). -/
def emitMark (rep : Bool) (number : W64) (attempt : BitVec 8) (s : State) : State :=
  let old := stageMembers s
  let leave := if rep then none else leavingAt number s
  let s := if rep then s else epochAtAdvance number s
  let ms := match leave with | some x => x.2.members | none => stageMembers s
  let epoch := match leave with | some x => x.2.epoch | none => stageEpoch s
  let dests := if rep then ms else (ms ++ old).eraseDups
  let m : Mark := { rep := rep, number := number, attempt := attempt, time := s.stg.t }
  let s := s.modStg (fun g => { g with
    expected := ms
    ackedBy := []
    wireOut := if g.role = 2 ∧ (g.source = 1 ∨ g.source = 2) then g.wireOut ++ [wireFrame m] else g.wireOut })
  let s := if s.stg.role = 2 then
    dests.foldl (fun s d => if d = s.devId then s else sendStage d (stageMsg (if rep then 2 else 1) attempt number epoch s) s) s else s
  let s := offerMark m false s
  match leave with | some x => takeEpoch x.1 x.2 s | none => s

/-- A REPEAT is due: emitted, or STUCK where ATTEMPT would exceed MAXREPEAT; a group that is STUCK stays in its attempt until ST_CFG is
written (R345). -/
def repeatDue (s : State) : State :=
  if s.stg.halted then s
  else if s.stg.maxrep.toNat < s.stg.attempt.toNat + 1 then stageEvent 3 (s.modStg (fun g => { g with stuck := true, halted := true }))
  else emitMark true s.stg.number (s.stg.attempt + 1) s

/-- A REPEAT_REQ reaches the master (R345, R401): one for another attempt is ignored. -/
def takeRepeatReq (number : W64) (attempt : BitVec 8) (s : State) : State :=
  if isMaster s && number == s.stg.number && attempt == s.stg.attempt && s.stg.sync == sySynced then repeatDue s else s

/-- The loss of a device (R345, R371). -/
def memberLost (dev : BitVec 16) (s : State) : State :=
  if isMaster s && s.stg.sync == sySynced && s.stg.expected.contains dev then repeatDue s else s

/-- A write of ST_ACKCTL (R344): true for REQREP. -/
def ackWrite (req : Bool) (attempt : BitVec 8) (number : BitVec 48) (s : State) : State :=
  if !req then readyWrite attempt number s
  else
    let g := s.stg
    let s := { s with hw := { s.hw with lastAck := putN 62 2 ||| putN 48 attempt.toNat ||| number.setWidth 64 } }
    if g.sync ≠ sySynced ∨ number ≠ g.number.truncate 48 ∨ attempt ≠ g.attempt then s.modStg (fun g => { g with stalew := stick 8 g.stalew })
    else if isMaster s then takeRepeatReq g.number g.attempt s
    else sendStage (stageMaster s) (stageMsg 4 g.attempt g.number (stageEpoch s) s) s

/-- Headwater writes REQREP for the current attempt (R385, R424). -/
def requestRepeat (s : State) : State := ackWrite true s.stg.attempt (s.stg.number.truncate 48) s

/-! Actions of slots (R349). -/

/-- Tasks of R449. -/
def taskKnown (n : Nat) : Bool := n == 1 || n == 2 || n == 3 || n == 0x10 || n == 0x20 || n == 0x21

/-- Whether an ARG suits an ACTION (R349, R449, R464). -/
def argOk (action : Nat) (arg : W64) : Bool :=
  match action with
  | 0 => arg == 0
  | 1 => taskKnown (fieldN arg 0 16) && fieldN arg 16 4 != 0 && fieldN arg 20 44 == 0
  | 2 => decide (1 ≤ fieldN arg 0 8 ∧ fieldN arg 0 8 ≤ 7) && fieldN arg 8 56 == 0
  | 3 => fieldN arg 12 4 == 0 && fieldN arg 16 16 != 0 && fieldN arg 32 32 == 0
  | 4 => fieldN arg 3 61 == 0
  | 5 => fieldN arg 8 56 == 0
  | _ => false

/-- A task starts on a core, or is dropped where it runs already (R449). -/
def startTask (core : Fin 4) (task : BitVec 16) (s : State) : State :=
  if s.bf.tasks.any (fun t => t.1 == core && t.2 == task) then { s with bf := { s.bf with noop := stick 8 s.bf.noop } }
  else { s with bf := { s.bf with tasks := s.bf.tasks ++ [(core, task)] } }

/-- The effect of a dispatched firing (R349). -/
def slotAction (x : Firing) (s : State) : State :=
  let arg := x.w2
  match fieldN x.w0 56 4 with
  | 1 => (List.finRange 4).foldl (fun s c => if bitB arg (16 + c.val) then startTask c (arg.truncate 16) s else s) s
  | 2 => latchSample (fieldN arg 0 8) x.slot.val (x.w0.extractLsb' 32 16) x.number x.attempt s
  | 3 => { s with inflight := s.inflight ++ [InFlight.inc .gauge (arg.truncate 12) (BitVec.ofNat 32 (fieldN arg 16 16))] }
  | 4 => { s with pw := { s.pw with profReq := s.pw.profReq ++ [arg.truncate 3] } }
  | 5 => checkpoint (fieldN arg 0 8) s
  | _ => s

/-- The check of a write to word 0 of a slot (R348). -/
def slotWriteOk (v arg : W64) : Bool :=
  !bitB v 63 || (fieldN v 60 2 != 3 && fieldN v 48 8 == 0 && argOk (fieldN v 56 4) arg &&
    (fieldN v 60 2 != 2 || (fieldN v 16 16 != 0 && decide (fieldN v 0 16 < fieldN v 16 16))))

/-- A write to an event slot (R348). -/
def slotWrite (n : Fin 256) (word : Fin 4) (v : W64) (s : State) : State :=
  let g := s.stg
  let x := g.slots[n]
  let arg := x.p2.getD x.w2
  let x' := match word with
    | 0 => { x with p0 := some (v &&& ~~~ (0x00FF000000000000 : W64)) }
    | 1 => { x with p1 := some v }
    | 2 => { x with p2 := some v }
    | 3 => x
  if word = 0 ∧ !slotWriteOk v arg then s.modStg (fun g => { g with badslot := true, badidx := BitVec.ofNat 8 n.val })
  else s.modStg (fun g => { g with slots := g.slots.set n (if g.sync = sySynced then x' else x'.settle) })

/-- A write of ST_CFG (R333, R341, R353): a change of ROLE, GROUP or BASIN begins the stage anew, and so does any write while SYNC is LOST
(R340); every write loads L from ST_LINIT and lets a STUCK master go on (R345). -/
def cfgWrite (v : W64) (s : State) : State :=
  let g := s.stg
  let role : BitVec 2 := v.extractLsb' 62 2
  let basin : BitVec 2 := v.extractLsb' 58 2
  let group : BitVec 16 := v.extractLsb' 32 16
  let source : BitVec 2 := v.extractLsb' 60 2
  let change := role ≠ g.role ∨ basin ≠ g.basin ∨ group ≠ g.group ∨ (g.sync = syLost ∧ role ≠ 0)
  let s := s.modStg (fun g => { g with role := role, basin := basin, group := group, maxrep := v.extractLsb' 48 8,
                                       source := if source = 3 then g.source else source,
                                       l := g.linit, halted := false })
  if change then
    s.modStg (fun g => { g with sync := if role = 0 then syOff else syUnsynced, marked := false, dispatch := [], held := [], expected := [], ackedBy := [] })
  else s

end Sys2Proof.Machine
end

