-- ==== Sys2Proof/Machine/WhOps.lean ====
section
/-! DEFINITION. Wellhead operations: verification of images, the firmware banks, anti-rollback values and measurements (R515-R525). -/

namespace Sys2Proof.Machine

/-- The bytes of a hash, first byte first. -/
def hashBytes (h : BitVec 512) : List Byte := (toBytes 64 h.toNat).reverse

/-- The number that big-endian bytes hold (R517). -/
def beNat (l : List Byte) : Nat := ofBytes l.reverse

/-- Fields of an image header (R517). -/
def hdrBytes (h : List Byte) (lo n : Nat) : List Byte := (h.drop lo).take n
def hdrType (h : List Byte) : Nat := ofBytes (hdrBytes h 6 1)
def hdrSvn (h : List Byte) : Nat := ofBytes (hdrBytes h 7 1)
def hdrLen (h : List Byte) : Nat := ofBytes (hdrBytes h 8 4)
def hdrKeyidx (h : List Byte) : Nat := ofBytes (hdrBytes h 12 1)

/-- SHA-512 of PUBKEY followed by PUBEXP: the hashed key of R515. -/
def keyHashOf (h : List Byte) : BitVec 512 := Config.sha512 (hdrBytes h 640 516)

/-- The value of an anti-rollback counter: its highest blown bit counted from 1 (R521). -/
def arbValue (v : BitVec 128) : Nat := (List.range 128).foldl (fun m i => if v.getLsbD i then i + 1 else m) 0

/-- The value in force: the higher of the two banks (R521). -/
def arbOf (s : State) (k : Fin 4) : Nat := max (arbValue s.wh.arbP[k]) (arbValue s.wh.arbM[k])

/-- What verification of an image finds (R518, R520). -/
inductive ImageRes where
  | good | badSignature | stale
  deriving DecidableEq, Repr

/-- Step 1 of R518. -/
def headerOk (type : Nat) (img : Image) : Bool :=
  let h := img.header
  h.length == 1280 && ofBytes (hdrBytes h 0 4) == 0x51584631 && ofBytes (hdrBytes h 4 2) == 0x0100 && hdrType h == type &&
    decide (hdrSvn h ≤ 127) && decide (hdrLen h ≤ 16 * 1024 * 1024) && img.body.length == hdrLen h &&
    (hdrBytes h 13 51).all (· == 0) && (hdrBytes h 1156 124).all (· == 0)

/-- Step 2 of R518: the key is one of the Tolxon keys and not revoked, or the owner's, which signs monitors only. -/
def keyOk (type : Nat) (h : List Byte) : Bool :=
  let k := hdrKeyidx h
  let f := Config.fusesPrimary
  if hk : k < 4 then keyHashOf h == f.rootHash[k] && !f.revoke.getLsbD k
  else k == 0x80 && type == 5 && keyHashOf h == f.ownerHash

/-- Step 3: the signature over bytes 0-127. -/
def sigOk (h : List Byte) : Bool :=
  Config.pssVerify (BitVec.ofNat 4096 (beNat (hdrBytes h 640 512))) (BitVec.ofNat 32 (beNat (hdrBytes h 1152 4))) (hdrBytes h 0 128)
    (BitVec.ofNat 4096 (beNat (hdrBytes h 128 512)))

/-- R518. -/
def verifyImage (s : State) (type : Nat) (img : Image) : ImageRes :=
  let h := img.header
  if !headerOk type img || !keyOk type h || !sigOk h || hashBytes (Config.sha512 img.body) != hdrBytes h 64 64 then .badSignature
  else if type = 5 then .good
  else if hdrSvn h < arbOf s (Fin.ofNat 4 (type - 1)) then .stale
  else .good

/-- The four images of a firmware bank (R516). -/
def bankOf_ (s : State) (b : Bool) : Vector Image 4 := let k : Fin 2 := if b then 1 else 0; Config.bankImages k.val s.wh.flashW[k]

/-- The first image of a bank that fails; none where every image passes (R519, R520). -/
def verifyBank (s : State) (b : Bool) : ImageRes :=
  (List.finRange 4).foldl (fun (r : ImageRes) (k : Fin 4) =>
    if r = .good then verifyImage s (k.val + 1) (bankOf_ s b)[k] else r) .good

/-- The bank that the device boots from: the boot bank, else the other, else none (R519). -/
def bootFrom (s : State) : Option Bool :=
  if verifyBank s s.wh.bank = .good then some s.wh.bank
  else if verifyBank s (!s.wh.bank) = .good then some (!s.wh.bank)
  else none

/-- MEAS := SHA-512(MEAS || value) (R525). -/
def extendMeas (k : Fin 16) (v : List Byte) (s : State) : State :=
  { s with wh := { s.wh with meas := s.wh.meas.set k (Config.sha512 (hashBytes s.wh.meas[k] ++ v)) } }

/-- What MEAS0 takes (R525). -/
def measRom : List Byte :=
  let f := Config.fusesPrimary
  Config.romVersion ++ f.rootHash.toList.flatMap hashBytes ++ toBytes 1 f.revoke.toNat ++ hashBytes f.ownerHash ++ [if f.locked then 1 else 0]

/-- What MEAS5 takes: basin layout, weir settings and ENCRYPT policy (R525). -/
def measPolicy (s : State) : List Byte :=
  toBytes 1 s.basinMode.toNat ++
    s.weirs.toList.flatMap (fun w => wordBytes (putB 63 w.en ||| putN 32 w.ceil.toNat ||| putN 16 w.floor.toNat ||| w.depth.setWidth 64)) ++
    s.far.links.toList.map (fun l => if l.encReq then 1 else 0) ++ [if s.by_.encReq then 1 else 0]

end Sys2Proof.Machine
end

