-- ==== Sys2Proof/Machine/DevRegs.lean ====
section
/-! DEFINITION. Words of the control register space as reads return them (R24, R29-R31, R292, R327-R331, R352, R353, R372-R374, R409-R411,
R468, R469, R492, R493, R508, R509, R532, R538). -/

namespace Sys2Proof.Machine

/-- DEV_IDENT (R29). -/
def devIdent : W64 := 0x0D5C084800410100

/-- DEV_CONFIG (R30). -/
def devConfig (s : State) : W64 := putN 62 s.basinMode.toNat ||| putN 48 (wellsAvailable s).toNat ||| putN 24 s.stackMask.toNat

/-- DEVICE_ID (R31). -/
def deviceIdWord (s : State) : W64 := putB 63 s.devValid ||| s.devId.setWidth 64

/-- DEV_START (R538). -/
def devStart (s : State) : W64 :=
  let u := s.su
  putN 60 u.step.toNat ||| putN 58 u.st.toNat ||| putN 56 u.last.toNat ||| putN 48 u.reason.toNat ||| putN 32 u.warms.toNat ||| u.readyMs.setWidth 64

/-! The halves. -/

/-- CI_MODE (R328). -/
def ciMode (s : State) (h : HalfId) : W64 :=
  putN 62 s.basinMode.toNat ||| putB 61 (s.basinMode != 0) ||| s.halves[h].lcrun.setWidth 64

def FrameState.code : FrameState → Nat
  | .off => 0 | .cache => 1 | .scratch => 2 | .closed => 3 | .changing => 4

/-- CI_FRAMEST (R328). -/
def ciFramest (s : State) (h : HalfId) : W64 :=
  let x := s.halves[h]
  (List.finRange 16).foldl (fun (w : W64) (f : Fin 16) => w ||| putN (3 * f.val) x.frames[f].code) (putB 63 x.op.isSome ||| putN 60 x.err.toNat)

/-- SC_STAT (R330). -/
def scStat (s : State) (n : StackId) : W64 :=
  let c := s.stks[n]
  putB 63 c.trained ||| putB 62 (s.stackMask.getLsbD n.val) ||| putN 60 (if c.hot then 1 else 0) ||| putN 48 c.temp.toNat ||| putN 32 c.retrain.toNat

/-- WEIR_CFG (R331). -/
def weirWord (w : Weir) : W64 := putB 63 w.en ||| putN 32 w.ceil.toNat ||| putN 16 w.floor.toNat ||| w.depth.setWidth 64

/-- PU_FSTAT (R292). -/
def puFstat (x : Front) : W64 :=
  putN 8 x.fullwait.toNat ||| putB 7 x.badresp ||| w64 (x.records.toList.filter (·.isSome)).length

/-- PU_FRECn (R292). -/
def puFrec (f : FrontId) (r : Option FaultRec) (word : Nat) : W64 :=
  match r with
  | none => 0
  | some r =>
    match word with
    | 0 => putB 63 true ||| putN 60 r.ftype.toNat ||| putN 57 r.rights.toNat ||| putN 55 r.level.toNat ||| r.asid.setWidth 64
    | 1 => r.va.setWidth 64
    | 2 => r.held.foldl (fun (w : W64) q => match q.1 with
        | .pump p _ _ _ => w ||| w64 (2 ^ (if f.val < 4 then p.val % 64 else p.val % 8))
        | _ => w) 0
    | _ => putN 48 r.joins.toNat ||| r.fetches.setWidth 64

/-! The stage (R353). -/

/-- STAGE word 1; zero while ROLE is OFF (R332). -/
def stageWord1 (g : Stage) : W64 :=
  if g.role = 0 then 0 else
  putN 62 g.sync.toNat ||| putB 61 g.clamped ||| putB 60 g.late ||| putN 24 g.attempt.toNat ||| putN 20 g.lastKind.toNat ||| g.phase.setWidth 64

def stCfg (g : Stage) : W64 :=
  putN 62 g.role.toNat ||| putN 60 g.source.toNat ||| putN 58 g.basin.toNat ||| putN 48 g.maxrep.toNat ||| putN 32 g.group.toNat

def stStat (g : Stage) : W64 :=
  putB 63 g.sLate ||| putB 62 g.mismatch ||| putB 61 g.stuck ||| putB 60 g.acked ||| putN 40 g.stalew.toNat ||| putN 32 g.wiremiss.toNat |||
    putN 16 g.repeats.toNat ||| putN 8 g.conflict.toNat

/-- ST_MASTER: zero unless master; each count keeps the 16 bits of its field. -/
def stMaster (s : State) : W64 :=
  if !isMaster s then 0
  else
    let miss := s.stg.expected.filter (fun d => !s.stg.ackedBy.contains d)
    let low := miss.foldl (fun m d => min m d.toNat) 0xFFFF
    putN 48 (s.stg.expected.length % 65536) ||| putN 32 (s.stg.ackedBy.length % 65536) ||| putN 16 (if miss.isEmpty then 0 else low)

def stEvstat (g : Stage) : W64 := putB 63 g.badslot ||| putN 48 g.badidx.toNat ||| putN 32 g.latefire.toNat ||| putN 16 g.dropped.toNat

def slotWord (x : Slot) (k : Nat) : W64 :=
  match k with
  | 0 => x.p0.getD x.w0
  | 1 => x.p1.getD x.w1
  | 2 => x.p2.getD x.w2
  | _ => putB 63 x.fired ||| putN 48 x.lastAtt.toNat ||| x.lastNum.setWidth 64

/-! The fabric. -/

def LinkState.code : LinkState → Nat
  | .disabled => 0 | .training => 1 | .active => 2 | .retrain => 3 | .down => 4

/-- FB_LSTAT (R374). -/
def fbLstat (k : Link) : W64 :=
  putN 60 k.state.code ||| putN 56 k.reason.toNat ||| putN 48 k.peerLink.toNat ||| putN 32 k.peerId.toNat ||| putN 24 k.peerMaj.toNat |||
    putN 16 k.peerMin.toNat ||| putB 15 k.enc ||| putB 14 k.keyslot ||| putB 13 k.degraded

def fbLctl (k : Link) : W64 := putB 61 k.encReq ||| k.retryMs.setWidth 64
def fbOpt (k : Link) : W64 := putN 48 k.bias.toNat ||| putN 32 k.bias0.toNat ||| putN 16 k.txpwr.toNat ||| k.rxpwr.setWidth 64
def fbVcarb (k : Link) : W64 := putN 56 k.cap0.toNat ||| putN 48 k.cap4.toNat ||| putN 16 k.w1.toNat ||| putN 8 k.w2.toNat ||| k.w3.setWidth 64
def fbFabcfg (s : State) : W64 := putN 32 s.far.fabric.toNat ||| putN 16 s.far.cfgId.toNat ||| putN 8 s.far.maxhop.toNat

def ingressWord (x : Ingress) (k : Nat) : W64 :=
  match k with
  | 0 => x.base.setWidth 64
  | 1 => x.limit.setWidth 64
  | 2 => putB 63 x.valid ||| putN 60 x.rights.toNat ||| putN 58 x.basin.toNat ||| putB 57 x.anysrc ||| x.group.setWidth 64
  | _ => 0

def groupWord (x : Group) (k : Nat) : W64 :=
  if !x.inUse then 0
  else match k with
  | 0 => putN 62 (if x.pend.isSome then 2 else 1) ||| putN 32 x.gid.toNat ||| x.epoch.setWidth 64
  | 1 => putN 48 (x.members.length % 65536) ||| putN 32 x.rank.toNat ||| putN 16 x.master.toNat
  | 2 => (x.pend.map (·.stage)).getD 0
  | _ => x.list.setWidth 64

/-! Confluence (R410, R411). -/

def ctrWord (c : TrigCounter) : W64 := putB 63 c.sat ||| putB 62 c.staged ||| c.value.setWidth 64

def cfEstat (x : Engine) : W64 :=
  let n := (x.ops.filter (fun o => !o.running)).length
  putN 56 (n % 256) ||| putB 55 (n == 256) ||| putN 48 ((x.ops.filter (fun o => o.running)).length % 128) ||| putN 32 x.stray.toNat

def queueWord (q : PostQueue) (k : Nat) : W64 :=
  match k with | 0 => q.w0 | 1 => q.w1 | 2 => q.consumed.setWidth 64 | _ => 0

def cfAbort (x : Engine) (k : Nat) : W64 :=
  match k with
  | 0 => putB 63 x.abortV ||| putN 32 x.abortRank.toNat ||| putN 16 x.abortGroup.toNat ||| x.abortSeq.setWidth 64
  | 2 => lo64 x.sig0
  | 3 => hi64 x.sig0
  | 4 => lo64 x.sigR
  | 5 => hi64 x.sigR
  | _ => 0

def cfGrp (x : Group) (k : Nat) : W64 := if k = 0 then putN 48 x.timeout.toNat else putN 56 x.chanKind.toNat ||| putN 48 x.chanValid.toNat

/-! Baseflow, Byvor, power, Wellhead. -/

def bfStat (b : Baseflow) : W64 :=
  putB 63 b.scrubLate ||| putB 62 b.wsaveErr ||| putN 40 b.winmiss.toNat ||| putN 32 b.teldrop.toNat ||| putN 16 b.poisonSeen.toNat ||| putN 8 b.noop.toNat

def byLstat (b : ByLink) : W64 :=
  putN 60 b.state.code ||| putN 56 b.reason.toNat ||| putN 54 b.width.toNat ||| putN 46 b.lanebad.toNat ||| putB 45 b.enc ||| putB 44 b.keyslot |||
    putN 16 b.gen.toNat ||| putN 8 b.peerMaj.toNat ||| b.peerMin.setWidth 64

def byLctl (b : ByLink) : W64 := putB 61 b.encReq ||| b.retryMs.setWidth 64

def pwDomerr (p : Power) : W64 := putB 63 p.pend.isSome ||| putN 60 p.domErr.toNat ||| p.domDom.setWidth 64

/-- State code of a domain (R509): until it has switched, what step 2 loaded from the fuses (R7). -/
def domCode (s : State) (d : Nat) : Nat :=
  if s.pw.changing.getLsbD d then 2 else if s.pw.fault.getLsbD d then 3 else if s.domainOn.getLsbD d then 1
  else if s.pw.fuseLoaded && !s.pw.switched.getLsbD d then Config.fusesPrimary.domState.toNat / 4 ^ d % 4 else 0

def pwDomst (s : State) (k : Nat) : W64 :=
  (List.range (if k = 0 then 32 else 12)).foldl (fun (w : W64) i => w ||| putN (2 * i) (domCode s (32 * k + i))) 0

def pwCap (p : Power) : W64 := putN 61 p.active.toNat ||| putN 32 p.bmcLimit.toNat

def pwStat (p : Power) : W64 :=
  putN 57 p.duty.toNat ||| putB 56 p.fast ||| putN 48 p.holder.toNat ||| putN 32 p.watts.toNat ||| putN 16 p.volts.toNat ||| p.amps.setWidth 64

/-- The hottest of a list of signed readings with its unit; the first of equals. -/
def hottest (l : List (BitVec 16 × BitVec 16)) : BitVec 16 × BitVec 16 :=
  match l with
  | [] => (0, 0)
  | x :: r => r.foldl (fun m y => if m.2.toInt < y.2.toInt then y else m) x

def domTemps (s : State) : List (BitVec 16 × BitVec 16) := (List.finRange 45).map (fun (d : Fin 45) => (domUnit d.val, s.pw.temps[d]))
def stackTempsOf (s : State) : List (BitVec 16 × BitVec 16) := (List.finRange 24).map (fun (n : Fin 24) => (stackUnit n, s.pw.stackTemps[n]))

/-- TH_STAT (R509); HOTUNIT keeps its reset value until a sensor has been read. -/
def thStat (s : State) : W64 :=
  let p := s.pw
  let a := hottest (domTemps s)
  let b := hottest (stackTempsOf s)
  putB 60 (!p.warn.isEmpty) ||| putB 61 (!p.crit.isEmpty) ||| putB 62 (!p.trip.isEmpty) ||| putB 63 p.hwtrip |||
    putN 32 (if !p.sensed then 0 else if a.2.toInt < b.2.toInt then b.1 else a.1).toNat ||| putN 16 b.2.toNat ||| a.2.setWidth 64

def whStat (w : Wellhead) : W64 := putB 63 w.req.isSome ||| putN 48 w.status.toNat ||| putN 32 w.rlen.toNat ||| w.param.setWidth 64

/-- WH_SEC (R532). -/
def whSec (s : State) : W64 :=
  let w := s.wh
  (List.finRange 4).foldl (fun (x : W64) (k : Fin 4) => x ||| putN (8 * k.val) (arbOf s k % 128))
    (putB 63 w.recovery ||| putB 62 w.bank ||| putN 60 w.dbgScope.toNat ||| putN 32 w.unlocks.toNat)

end Sys2Proof.Machine
end

