-- ==== Sys2Proof/Machine/StageCmds.lean ====
section
/-! DEFINITION. The commands of the stage time base (R332-R353). -/

namespace Sys2Proof.Machine

/-- ST_CFG_WRITE (R333). -/
def execStCfgWrite (v : W64) (s : State) : Out := .next (cfgWrite v s)

/-! Marks. -/

/-- Two copies of one mark: KIND, NUMBER and ATTEMPT agree. -/
def sameMark (a b : Mark) : Bool := a.rep == b.rep && a.number == b.number && a.attempt == b.attempt

/-- A mark that comes by wire (R336, R339): the held copy it stands for goes; one of the same attempt that disagrees prevails. -/
def wireMark (m : Mark) (s : State) : State :=
  if s.stg.source ≠ 2 then offerMark m true s
  else if s.stg.held.any (sameMark m) then offerMark m true (s.modStg (fun g => { g with held := removeFirst (sameMark m) g.held }))
  else match s.stg.held.find? (fun h => h.attempt == m.attempt) with
  | none => offerMark m true s
  | some h => offerMark h false (stageEvent 4 (s.modStg (fun g => { g with conflict := stick 8 g.conflict, held := removeFirst (sameMark h) g.held })))

/-- WIRE_MARK_FRAME (R334-R336): the frame and the stage timer at its mark edge. -/
def execWireMarkFrame (frame : BitVec 100) (edge : W64) (s : State) : Out :=
  .next (
    let g := s.stg
    if g.role ≠ 1 ∨ g.source = 0 then s
    else
      let body : BitVec 76 := frame.extractLsb' 16 76
      let kind := (frame.extractLsb' 88 4).toNat
      if frame.extractLsb' 92 8 ≠ 0xE2 ∨ wireCrc body ≠ frame.extractLsb' 0 16 ∨ (kind ≠ 1 ∧ kind ≠ 2) then
        s.modStg (fun g => { g with wiremiss := stick 8 g.wiremiss })
      else
        wireMark { rep := kind == 2, number := frame.extractLsb' 16 64, attempt := frame.extractLsb' 80 8,
                   time := w64 (edge.toNat - g.wirecomp.toNat) } s)

/-- STAGE_IN_TRANSITION (R335): a member regenerates it on STAGE_OUT; a master with SOURCE wire or both ignores STAGE_IN. -/
def execStageInTransition (level : Bool) (s : State) : Out :=
  .next (s.modStg (fun g =>
    if g.role = 2 ∧ (g.source = 1 ∨ g.source = 2) then { g with stageIn := level } else { g with stageIn := level, stageOut := level }))

/-- Fields of a stage message (R337). -/
def mKind (m : StageMsg) : Nat := fieldN m.w0 0 4
def mAttempt (m : StageMsg) : BitVec 8 := m.w0.extractLsb' 8 8
def mSender (m : StageMsg) : BitVec 16 := m.w0.extractLsb' 16 16
def mHops (m : StageMsg) : Nat := fieldN m.w0 32 8
def mGroup (m : StageMsg) : BitVec 16 := m.w0.extractLsb' 40 16
def mEpoch (m : StageMsg) : BitVec 32 := m.w2.extractLsb' 0 32

/-- Reserved fields and the group of a message (R337). -/
def msgFormOk (s : State) (m : StageMsg) : Bool :=
  decide (1 ≤ mKind m ∧ mKind m ≤ 4) && fieldN m.w0 4 4 == 0 && fieldN m.w0 56 8 == 0 && fieldN m.w2 32 32 == 0 && m.w3 == 0 &&
    mGroup m == s.stg.group

/-- The pending change that an ADVANCE makes current: the first that carries its epoch, at S' or after the moves of step 4 (R368). -/
def pendingAt (s : State) (m : StageMsg) : Option (Fin 64 × PendEpoch) :=
  match groupOf s s.stg.group with
  | none => none
  | some g => match s.far.groups[g].pend with
    | some p => if mKind m = 1 ∧ p.epoch = mEpoch m ∧ p.stage.toNat ≤ m.w1.toNat then some (g, p) else none
    | none => none

/-- Whether a message's epoch is the group's current one. -/
def epochCurrent (s : State) (m : StageMsg) : Bool := (groupOf s s.stg.group).isSome && mEpoch m == stageEpoch s

/-- A mark that comes on the Rill (R338, R339). -/
def rillMark (m : Mark) (s : State) : State :=
  let g := s.stg
  if g.role ≠ 1 ∨ g.source = 1 then s
  else if g.source = 0 then offerMark m false s
  else if g.byWire ∧ g.sync = sySynced ∧ m.number = g.number ∧ m.attempt = g.attempt ∧ g.lastKind = (if m.rep then 2 else 1) then s
  else if g.byWire ∧ g.sync = sySynced ∧ m.attempt = g.attempt ∧ (g.attempt ≠ 0 ∨ m.number ≠ g.number + 1) then
    offerMark m false (stageEvent 4 (s.modStg (fun g => { g with conflict := stick 8 g.conflict })))
  else if g.sync = syLost ∨ g.sync = syOff ∨ g.held.any (sameMark m) then s
  else s.modStg (fun g => { g with held := g.held ++ [m] })

/-- A stage message that begins an attempt arrives (R337, R338, R368). -/
def takeMarkMsg (rep : Bool) (m : StageMsg) (s : State) : State :=
  if !msgFormOk s m || mKind m != (if rep then 2 else 1) then s
  else
    let mark : Mark := { rep := rep, number := m.w1, attempt := mAttempt m, time := w64 (s.stg.t.toNat - mHops m * s.stg.rillhop.toNat) }
    match pendingAt s m with
    | some (g, p) =>
      let leaving := !p.members.contains s.devId
      if leaving then takeEpoch g p (rillMark mark s) else rillMark mark (takeEpoch g p s)
    | none => if epochCurrent s m then rillMark mark s else s

/-- STAGE_MESSAGE_ADVANCE (R338). -/
def execStageMessageAdvance (m : StageMsg) (s : State) : Out := .next (takeMarkMsg false m s)
/-- STAGE_MESSAGE_REPEAT (R338). -/
def execStageMessageRepeat (m : StageMsg) (s : State) : Out := .next (takeMarkMsg true m s)

/-- HELD_MARK_TIMEOUT (R339): no wire frame has come within 20 us of the oldest Rill copy that is held. -/
def execHeldMarkTimeout (s : State) : Out :=
  .next (match s.stg.held with
    | [] => s
    | h :: r => offerMark h false (s.modStg (fun g => { g with held := r, wiremiss := stick 8 g.wiremiss })))

/-! Acknowledgement. -/

/-- An ACK message (R345). -/
def takeAckMsg (m : StageMsg) (s : State) : State :=
  if !msgFormOk s m || mKind m != 3 || !epochCurrent s m || s.stg.role != 2 then s else takeAck (mSender m) m.w1 (mAttempt m) s

/-- A REPEAT_REQ message (R345). -/
def takeReqMsg (m : StageMsg) (s : State) : State :=
  if !msgFormOk s m || mKind m != 4 || !epochCurrent s m || s.stg.role != 2 then s else takeRepeatReq m.w1 (mAttempt m) s

/-- STAGE_ACK (R345). -/
def execStageAck (m : StageMsg) (s : State) : Out := .next (takeAckMsg m s)
/-- REPEAT_REQ (R345). -/
def execRepeatReq (m : StageMsg) (s : State) : Out := .next (takeReqMsg m s)

/-- Any stage message, by its KIND. -/
def takeStageMsg (m : StageMsg) (s : State) : State :=
  match mKind m with
  | 1 => takeMarkMsg false m s
  | 2 => takeMarkMsg true m s
  | 3 => takeAckMsg m s
  | 4 => takeReqMsg m s
  | _ => s

/-- ST_ACKCTL_READY (R344). -/
def execStAckctlReady (attempt : BitVec 8) (number : BitVec 48) (s : State) : Out := .next (ackWrite false attempt number s)
/-- ST_ACKCTL_REQREP (R344). -/
def execStAckctlReqrep (attempt : BitVec 8) (number : BitVec 48) (s : State) : Out := .next (ackWrite true attempt number s)

/-! The master. -/

/-- Whether every expected member is marked (R345). -/
def allAcked (g : Stage) : Bool := g.expected.all (fun d => g.ackedBy.contains d)

/-- Nanoseconds on the stage timer since the last adopted mark. -/
def sinceMark (g : Stage) : Nat := g.t.toNat - g.tmark.toNat

/-- The deadline of an attempt in ns after its mark: DEADLINE us, or 3 L when DEADLINE = 0 (R345). -/
def deadlineNs (g : Stage) : Nat := if g.deadline = 0 then 3 * g.l.toNat else 1000 * g.deadline.toNat

/-- Whether the deadline of the attempt has expired (R345): with DEADLINE = 0 and L = 0 there is none. -/
def deadlinePast (g : Stage) : Bool := deadlineNs g != 0 && decide (deadlineNs g ≤ sinceMark g)

/-- MASTER_ADVANCE (R345): every member is marked and MINSTEP has passed; a REPEAT that is due in the same tick goes before it. A master
that is UNSYNCED emits the first mark of its group. -/
def execMasterAdvance (s : State) : Out :=
  .next (
    if !isMaster s ∨ s.stg.halted then s
    else if s.stg.sync = syUnsynced then emitMark false (s.stg.number + 1) 0 s
    else if s.stg.sync = sySynced ∧ deadlinePast s.stg then repeatDue s
    else if s.stg.sync = sySynced ∧ allAcked s.stg ∧ !s.stg.expected.isEmpty ∧ 1000 * s.stg.minstep.toNat ≤ sinceMark s.stg then emitMark false (s.stg.number + 1) 0 s
    else s)

/-- MASTER_DEADLINE (R345): the deadline of the attempt has expired. -/
def execMasterDeadline (s : State) : Out :=
  .next (if isMaster s && s.stg.sync == sySynced && deadlinePast s.stg then repeatDue s else s)

/-- MEMBER_LOST (R345). -/
def execMemberLost (dev : BitVec 16) (s : State) : Out := .next (memberLost dev s)

/-! Late marks, phase and slots. -/

/-- STAGE_LATE (R343): once per attempt, when t - t_mark exceeds TIMEOUT quarters of L. -/
def execStageLate (s : State) : Out :=
  .next (
    let g := s.stg
    if g.role = 0 ∨ !g.marked ∨ g.l = 0 ∨ g.timeout = 0 ∨ g.late ∨ 4 * sinceMark g ≤ g.timeout.toNat * g.l.toNat then s
    else stageEvent 1 (stageLine 4 (s.modStg (fun g => { g with late := true, sLate := true }))))

/-- The wells' copies of STAGE (R165, R332). -/
def copyStage (s : State) : State :=
  { s with wells := s.wells.map (fun u => { u with cpu := { u.cpu with
      stageNumber := s.stageNumber, stagePhase := if s.stg.role = 0 then 0 else s.stg.phase } }) }

/-- PHASE_UPDATE (R342, R350): PHASE never falls within an attempt; slots whose phase has come fire. The wells' CSR copies follow. Before
the first mark there is no t_mark, and PHASE stays. -/
def execPhaseUpdate (s : State) : Out :=
  .next (
    let g := s.stg
    if g.role = 0 ∨ !g.marked then copyStage s
    else
      let p := phaseNow g
      copyStage (s.modStg (fun g => fireAll phaseReached { g with phase := if p.1.toNat < g.phase.toNat then g.phase else p.1, clamped := p.2 || g.clamped })))

/-- EVENT_SLOT_FIRE (R350): the firing at the head of the dispatch, slot n's, acts. -/
def execEventSlotFire (n : Fin 256) (s : State) : Out :=
  .next (match s.stg.dispatch with
    | [] => s
    | x :: r => if x.slot = n then slotAction x (s.modStg (fun g => { g with dispatch := r })) else s)

/-- EVENT_SLOT_WRITE (R348). -/
def execEventSlotWrite (n : Fin 256) (word : Fin 4) (v : W64) (s : State) : Out := .next (slotWrite n word v s)

end Sys2Proof.Machine
end

