-- ==== Sys2Proof/Machine/Headwater.lean ====
section
/-! DEFINITION. The Headwater commands, mailboxes and fault ledger (R413-R444). MGMT stands in RegMap, SOUNDING_COMPLETE in Sounding. -/

namespace Sys2Proof.Machine

/-! Statuses of R414. -/
def hsOk : BitVec 8 := 0
def hsInvalid : BitVec 8 := 1
def hsNoResource : BitVec 8 := 2
def hsState : BitVec 8 := 3
def hsNotFound : BitVec 8 := 4
def hsBusy : BitVec 8 := 5
def hsDenied : BitVec 8 := 6
def hsHalted : BitVec 8 := 7

/-! Rings (R413, R490). -/

def State.modHw (s : State) (f : Headwater → Headwater) : State := { s with hw := f s.hw }
def State.modBy (s : State) (f : ByLink → ByLink) : State := { s with by_ := f s.by_ }

/-- SOUND, EVENT_FETCH and EVENT_ACK, which the fault pair executes as they arrive (R413). -/
def fastCmd : HostCmd → Bool
  | .sound .. | .eventFetch _ | .eventAck _ => true
  | _ => false

/-- The command of a ring that a row executes: the oldest one of the pair that executes it. -/
def ringFront (r : Fin 4) (fast : Bool) (s : State) : Option (W64 × HostCmd) := s.hw.rings[r].cmds.find? (fun c => fastCmd c.2 == fast)

/-- Taking it: a credit of its class goes back to the adapter (R481). -/
def ringTake (r : Fin 4) (cseq : W64) (s : State) : State :=
  (s.modHw (fun h => { h with rings := h.rings.set r { h.rings[r] with cmds := removeFirst (fun c => c.1 == cseq) h.rings[r].cmds } })).modBy
    (fun b => { b with owed := b.owed.set (⟨r.val + 1, by omega⟩ : Fin 7) (b.owed[(⟨r.val + 1, by omega⟩ : Fin 7)] + 1) })

/-- A command whose code R413 does not list. -/
def reservedCmd : HostCmd → Bool
  | .other _ => true
  | _ => false

/-- The commands of reserved codes that have come to the front of the job pair's order in a ring complete INVALID (R413). -/
def refuseOthers (r : Fin 4) (s : State) : State :=
  ((s.hw.rings[r].cmds.filter (fun c => !fastCmd c.2)).takeWhile (fun c => reservedCmd c.2)).foldl
    (fun s c => (ringTake r c.1 s).complete r c.1 hsInvalid 0) s

/-- What keeps a command from running in the device's present state (R15, R414, R519, R537): HALTED, or STATE outside service. -/
def gate (fast mgmt : Bool) (s : State) : Option (BitVec 8) :=
  if s.wh.recovery then (if mgmt then none else some hsHalted)
  else if fast then none
  else if s.hw.jobHalted || s.hw.faultHalted then some hsHalted
  else if s.su.st ≠ 1 ∧ !mgmt then some hsState
  else none

/-- What a command answers: its status, its RESULT, and the state it leaves. -/
structure HwAns where
  status : BitVec 8
  result : BitVec 56
  after  : State

/-- A command that fails, or is done with nothing to return. -/
def HwAns.of (st : BitVec 8) (s : State) : HwAns := { status := st, result := 0, after := s }

/-- Executing the front command of a ring if it is one that the row takes (R413, R414): a row whose command is not at the front changes
nothing. With both pairs stopped no command runs. -/
def runCmd (r : Fin 4) (fast mgmt : Bool) (body : HostCmd → Option (State → HwAns)) (s : State) : State :=
  match ringFront r fast s with
  | none => s
  | some c =>
    match body c.2 with
    | none => s
    | some f =>
      if s.hw.jobHalted && s.hw.faultHalted then s
      else
        let t := ringTake r c.1 s
        match gate fast mgmt t with
        | some st => refuseOthers r (t.complete r c.1 st 0)
        | none => let a := f t; refuseOthers r (a.after.complete r c.1 a.status a.result)

/-! Jobs by handle. -/

/-- The slot of a job handle (R415). -/
def slotOfHandle (s : State) (h : BitVec 16) : Option (Fin 32) :=
  let k : Fin 32 := Fin.ofNat 32 (h.toNat % 32)
  if s.jobs[k].state != .free && s.jobs[k].handle k == h then some k else none

/-! Page tables (R279-R281). -/

/-- A table of Headwater's, zeroed. -/
def allocTable (size : Nat) (s : State) : Nat × State :=
  let a := (Config.tableAddress s.hw.tables).toNat / size * size
  (a, centralZero a size (s.modHw (fun h => { h with tables := h.tables + 1 })))

/-- The table that an entry points to; one is made where it does not. -/
def nextTable (entry size : Nat) (s : State) : Nat × State :=
  let e := s.readWord entry
  if bitB e 0 && fieldN e 1 3 == 0 then (entryAddr' e, s)
  else
    let r := allocTable size s
    (r.1, centralWrite entry (wordBytes (w64 r.1 ||| 1)) r.2)

/-- The word of a leaf (R280). -/
def leafWord (x : LeafReq) : W64 :=
  if !x.valid then 0
  else (x.pa.setWidth 64 &&& ~~~0x1FF) ||| putN 4 x.rights.toNat ||| putN 1 (if x.big then 2 else 1) ||| 1

/-- A leaf is written into the tree of an ASID. -/
def writeLeaf (asid : BitVec 16) (x : LeafReq) (s : State) : State :=
  let v := x.va.setWidth 64
  let a := nextTable (s.asidBase.toNat + 8 * asid.toNat) 0x8000 s
  let b := nextTable (a.1 + 8 * fieldN v 44 12) 0x8000 a.2
  let e2 := b.1 + 8 * fieldN v 32 12
  if x.big then centralWrite e2 (wordBytes (leafWord x)) b.2
  else
    let c := nextTable e2 512 b.2
    centralWrite (c.1 + 8 * fieldN v 26 6) (wordBytes (leafWord x)) c.2

/-- The empty L1 of a new ASID (R417 step 1). -/
def freshTree (asid : BitVec 16) (s : State) : State :=
  let r := allocTable 0x8000 s
  centralWrite (s.asidBase.toNat + 8 * asid.toNat) (wordBytes (w64 r.1 ||| 1)) r.2

/-- Headwater's own translation of a VA: it reads the tree in memory. -/
def hwAddr (asid : BitVec 16) (va : Nat) (s : State) : Option Nat :=
  match (walkFrom 4 asid (BitVec.ofNat 56 va) 4 0 s.asidBase.toNat s).1 with
  | .leaf big frame _ _ => some (frame + va % (if big then 2 ^ 32 else 2 ^ 26))
  | .fail _ _ => none

/-- A virtual range as physical pieces; none where a page is not mapped. -/
def hwPieces (asid : BitVec 16) (va n : Nat) (s : State) : Option (List (Nat × Nat)) :=
  (cutGranules va n).mapM (fun p => (hwAddr asid p.1 s).map (fun g => (g, p.2)))

/-- Whether a global address is this device's, and the local address. -/
def localOf (s : State) (g : Nat) : Option Nat := if g / 2 ^ 44 = s.devId.toNat then some (g % 2 ^ 44) else none

/-- Bytes that Headwater reads through an ASID; none where a page is not mapped or does not lie in this device's memory, or where a byte
is bad. -/
def hwReadVirt (asid : BitVec 16) (va n : Nat) (s : State) : Option (List Byte) × State :=
  match hwPieces asid va n s with
  | none => (none, s)
  | some ps => ps.foldl (fun (acc : Option (List Byte) × State) p =>
      match acc.1, localOf s p.1 with
      | some bs, some a => let r := hwRead a p.2 acc.2; (r.1.map (fun x => bs ++ x), r.2)
      | _, _ => (none, acc.2)) (some [], s)

/-! JOB_LOAD (R416-R418). -/

/-- The words of a job descriptor. -/
def descriptorWords (bs : List Byte) : Vector W64 16 := Vector.ofFn (fun (i : Fin 16) => bytesWord ((bs.drop (8 * i.val)).take 8))

/-- Basins of a layout. -/
def basinCount (mode : BitVec 2) : Nat := if mode = 0 then 1 else if mode = 1 then 2 else 4

/-- Reserved bits and ranges of a descriptor (R416). -/
def descriptorOk (s : State) (d : Vector W64 16) : Bool :=
  fieldN d[0] 10 54 == 0 && fieldN d[1] 28 4 == 0 && fieldN d[1] 58 6 == 0 && fieldN d[4] 11 21 == 0 && fieldN d[4] 48 16 == 0 &&
    (List.range 10).all (fun i => d.getD (6 + i) 0 == 0) &&
    decide (fieldN d[0] 0 2 < basinCount s.basinMode) && decide (1 ≤ fieldN d[0] 2 6 ∧ fieldN d[0] 2 6 ≤ 32) &&
    decide (fieldN d[1] 40 13 ≤ 4096) && decide (fieldN d[1] 53 5 ≤ 16) && decide (fieldN d[4] 0 11 ≤ 1024) &&
    decide (d[2].toNat < 2 ^ 44) && decide (d[3].toNat < 2 ^ 56) && decide (d[5].toNat < 2 ^ 56)

/-- Well groups of a basin. -/
def basinGroups (s : State) (basin : Nat) : List Nat :=
  (List.range 32).filter (fun g => basinOfWellN s.basinMode (Fin.ofNat 128 (4 * g)) == basin)

/-- Regions in R418's order of preference. -/
def regions (s : State) (basin : Nat) : List (List Nat) :=
  let gs := basinGroups s basin
  (List.range 4).map (fun n => gs.filter (fun g => g / 8 == n)) ++ (List.range 2).map (fun n => gs.filter (fun g => g / 16 == n)) ++ [gs]

/-- Whether no job owns a well of a group and its domain is on. -/
def groupIdle (s : State) (g : Nat) : Bool :=
  (List.range 4).all (fun i => let w : WellId := Fin.ofNat 128 (4 * g + i); s.wellJob[w].isNone && s.wellOn w)

/-- Wells of groups that are not retired, in increasing number. -/
def liveWells (s : State) (gs : List Nat) : List WellId :=
  (gs.flatMap (fun g => (List.range 4).map (fun i => (Fin.ofNat 128 (4 * g + i) : WellId)))).filter (fun w => !s.hw.retired.getLsbD w.val)

/-- The groups taken in one region: the lowest, and one further where retired wells leave too few (R418). -/
def chooseIn (s : State) (n : Nat) (region : List Nat) : Option (List Nat) :=
  let idle := region.filter (groupIdle s)
  let a := idle.take n
  let b := idle.take (n + 1)
  if a.length < n then none
  else if 4 * n ≤ (liveWells s a).length then some a
  else if 4 * n ≤ (liveWells s b).length then some b
  else none

/-- R418. -/
def chooseGroups (s : State) (basin n : Nat) : Option (List Nat) := (regions s basin).findSome? (chooseIn s n)

/-- One step of a basin's carve-out as frames (R300): in layouts 0b00 and 0b01 a frame of both quarters of a half. -/
def carveSteps (s : State) (basin : Nat) : List (List (HalfId × Fin 16)) :=
  let pair (h : Nat) : List (List (HalfId × Fin 16)) :=
    (List.range 8).map (fun f => [(Fin.ofNat 2 h, Fin.ofNat 16 f), (Fin.ofNat 2 h, Fin.ofNat 16 (8 + f))])
  if s.basinMode = 0 then pair 0 ++ pair 1
  else if s.basinMode = 1 then pair basin
  else (List.range 8).map (fun f => [(Fin.ofNat 2 (basin / 2), Fin.ofNat 16 (8 * (basin % 2) + f))])

/-- Whether a frame's quarter is powered. -/
def frameOn (s : State) (x : HalfId × Fin 16) : Bool := s.domain (32 + 2 * x.1.val + x.2.val / 8)

/-- Frames that a job may take (R304): CACHE or OFF ones. -/
def stepFree (s : State) (l : List (HalfId × Fin 16)) : Bool :=
  l.all (fun x => frameOn s x && (s.halves[x.1].frames[x.2] == .off || s.halves[x.1].frames[x.2] == .cache))

def setFrame (x : HalfId × Fin 16) (st : FrameState) (s : State) : State :=
  s.modHalf x.1 (fun h => { h with frames := h.frames.set x.2 st })

/-- A frame becomes zeroed scratchpad (R305). -/
def carveFrame (x : HalfId × Fin 16) (s : State) : State := setFrame x .scratch (zeroFrame x.1 x.2 (flushFrame x.1 x.2 s))

/-- Every frame. -/
def allFrames : List (HalfId × Fin 16) := (List.finRange 2).flatMap (fun h => (List.finRange 16).map (fun f => (h, f)))

/-- In layout 0b00 a frame that no job carves serves as cache while any job is loaded, and is OFF while none is (R304). -/
def settleFrames (s : State) : State :=
  if s.basinMode ≠ 0 then s
  else if slots.all (fun k => s.jobs[k].state == .free) then
    allFrames.foldl (fun s x => setFrame x .off (flushFrame x.1 x.2 s)) s
  else allFrames.foldl (fun s x => if s.halves[x.1].frames[x.2] == .off && frameOn s x then setFrame x .cache s else s) s

/-- Jobs that hold resources. -/
def liveJobs (s : State) : List (Fin 32) := slots.filter (fun k => s.jobs[k].state != .free)

/-- The lowest free run of counters (R378), all of engines whose domain is on (R21). -/
def chooseCounters (s : State) (n : Nat) : Option Nat :=
  let js := (liveJobs s).map (fun k => (s.jobs[k].ctrBase.toNat, s.jobs[k].ctrCount.toNat))
  let fits (b : Nat) : Bool := decide (b + n ≤ 4096) && js.all (fun j => decide (b + n ≤ j.1 ∨ j.1 + j.2 ≤ b)) &&
    (List.finRange 4).all (fun (e : Fin 4) => engOn s e || decide (b + n ≤ 1024 * e.val ∨ 1024 * e.val + 1024 ≤ b))
  (([0, 1024, 2048, 3072] ++ js.map (fun (j : Nat × Nat) => j.1 + j.2)).filter fits).foldl (fun (m : Option Nat) b => match m with | some x => some (min x b) | none => some b) none

/-- The lowest free post queues of an engine whose domain is on. -/
def chooseQueues (s : State) (e : EngineId) (n : Nat) : Option (List (EngineId × Fin 16)) :=
  if n ≠ 0 ∧ !engOn s e then none else
  let free := (List.finRange 16).filter (fun q => !(liveJobs s).any (fun k => s.jobs[k].queues.contains (e, q)))
  if free.length < n then none else some ((free.take n).map (fun q => (e, q)))

/-- A post queue of a job is set up (R380, R410). -/
def setQueue (h : BitVec 16) (basin : BitVec 2) (base : BitVec 12) (count : BitVec 13) (n : Nat) (q : EngineId × Fin 16) (s : State) : State :=
  let x := Config.queueLayout h.toNat n
  let w0 := putB 63 true ||| putB 62 x.priv ||| x.base.setWidth 64
  let w1 := putN 60 (min x.size.toNat 8) ||| putN 58 basin.toNat ||| putN 44 (base + x.pctr).toNat ||| putN 32 base.toNat ||| putN 16 h.toNat ||| count.setWidth 64
  s.modEng q.1 (fun e => { e with queues := e.queues.set q.2 { w0 := w0, w1 := w1, consumed := 0 } })

/-- The banks of a job's well (R417 step 3). -/
def setBanks (mask : BitVec 28) (w : WellId) (s : State) : State :=
  ((List.finRange 28).foldl (fun s b => clearBank w b s) s).modSt w (fun t =>
    { t with banks := Vector.ofFn (fun (b : Fin 28) => if mask.getLsbD b.val then .open else .off), bankOp := none })

/-- What JOB_LOAD has chosen. -/
structure Placement where
  slot : Fin 32
  groups : List Nat
  steps : List (List (HalfId × Fin 16))
  base : Nat
  queues : List (EngineId × Fin 16)

/-- The allocations of R417 in order; the status of the step that fails. -/
def place (s : State) (d : Vector W64 16) : Except (BitVec 8) Placement :=
  let basin := fieldN d[0] 0 2
  match slots.find? (fun k => s.jobs[k].state == .free) with
  | none => .error hsNoResource
  | some k => match chooseGroups s basin (fieldN d[0] 2 6) with
    | none => .error hsNoResource
    | some gs =>
      let steps := (carveSteps s basin).filter (stepFree s)
      if steps.length < fieldN d[1] 32 8 then .error hsNoResource
      else match chooseCounters s (fieldN d[1] 40 13) with
      | none => .error hsNoResource
      | some b => match chooseQueues s (engOfCtr (BitVec.ofNat 12 b)) (fieldN d[1] 53 5) with
        | none => .error hsNoResource
        | some qs => .ok { slot := k, groups := gs, steps := steps.take (fieldN d[1] 32 8), base := b, queues := qs }

/-- The placed job takes its resources (R417); image is its verified monitor. -/
def install (d : Vector W64 16) (image : Image) (p : Placement) (s : State) : HwAns :=
  let k := p.slot
  let live := liveWells s p.groups
  let basin : BitVec 2 := d[0].extractLsb' 0 2
  let count : BitVec 13 := d[1].extractLsb' 40 13
  let base := BitVec.ofNat 12 p.base
  let mask : BitVec 28 := d[1].extractLsb' 0 28
  let j : Job := { Job.reset with
    state := .loaded
    gen := s.jobs[k].gen
    basin := basin
    stageBound := bitB d[0] 8
    double := bitB d[0] 9
    groups := p.groups.foldl (fun (m : BitVec 32) g => m ||| (1#32 <<< g)) 0
    vmap := live.take (4 * fieldN d[0] 2 6)
    banks := mask
    frames := p.steps.flatten
    ctrBase := base
    ctrCount := count
    queues := p.queues
    monitor := d[2].extractLsb' 0 44
    protVa := d[3]
    nprot := d[4].extractLsb' 0 11
    xtimeout := d[4].extractLsb' 32 16
    preimg := d[5] }
  let h := j.handle k
  let m := Config.monitorOf image.body
  let hdr := hdrBytes image.header 0 128
  let j := { j with mon := m, history := [(0x01, 0)] }
  let s := freshTree h { s with jobs := s.jobs.set k j }
  let s := { s with wellJob := live.foldl (fun (v : Vector (Option (Fin 32)) 128) (w : Fin 128) => v.set w (some k)) s.wellJob }
  let s := live.foldl (fun s w => setBanks mask w s) s
  let s := settleFrames (j.frames.foldl (fun s x => carveFrame x s) s)
  let s := (grantCtrs j).foldl (fun (s : State) (c : Fin 4096) => { s with counters := s.counters.set c { s.counters[c] with value := 0, sat := false } }) s
  let s := live.foldl (fun s w => s.modMr w (fun x => { x with trigBase := base, trigCount := count })) s
  let s := ((List.range p.queues.length).zip p.queues).foldl (fun s q => setQueue h basin base count q.1 q.2 s) s
  let s := live.foldl (fun s w => loadMonitor w h m (enterScoreboard w s)) s
  let s := extendMeas ⟨8 + basin.toNat, by have := basin.isLt; omega⟩ hdr s
  { status := hsOk, result := h.setWidth 56, after := jobEvent k s }

/-- Whether an address lies in another basin than the job's (R17). -/
def otherBasin (s : State) (basin pa : Nat) : Bool :=
  s.basinMode != 0 && (match basinOfPlace s.basinMode (placeOf pa) with | some b => b != basin | none => false)

/-- JOB_LOAD (R417): the monitor image is verified by Wellhead (R520). A descriptor or an image that cannot be read fails its check. -/
def jobLoad (a : Nat) (s : State) : HwAns :=
  let r := hwRead a 128 s
  match r.1 with
  | none => .of hsInvalid r.2
  | some bs =>
    let s := r.2
    let d := descriptorWords bs
    if !descriptorOk s d then .of hsInvalid s
    else
      let basin := fieldN d[0] 0 2
      if otherBasin s basin a || otherBasin s basin d[2].toNat then .of hsDenied s
      else
        let m := imageAt d[2].toNat s
        match m.1 with
        | none => .of hsInvalid m.2
        | some image =>
          if verifyImage m.2 5 image != .good then .of hsInvalid m.2
          else match place m.2 d with
            | .error st => .of st m.2
            | .ok p => install d image p m.2

/-- JOB_LOAD (R417). -/
def execJobLoad (r : Fin 4) (s : State) : Out :=
  .next (runCmd r false false (fun c => match c with | .jobLoad a => some (jobLoad a.toNat) | _ => none) s)

/-! JOB_START (R415, R420, R427). -/

/-- The protected-buffer list: virtual address and length of each entry. -/
def protList (bs : List Byte) : Nat → List (Nat × Nat)
  | 0 => []
  | n + 1 => (ofBytes (bs.take 8), ofBytes ((bs.drop 8).take 8)) :: protList (bs.drop 16) n

/-- The half that holds a place in a stack or in the scratchpad. -/
def halfOfPa (pa : Nat) : Option HalfId :=
  match placeOf pa with
  | .stack n => some (halfOfStack n)
  | .scratch o => some (Fin.ofNat 2 (o / 0x20000000))
  | _ => none

/-- Adjoining runs become one range. -/
def mergeRuns (l : List (Nat × Nat)) : List (Nat × Nat) :=
  l.foldr (fun x acc => match acc with
    | (b, m) :: r => if x.1 + x.2 = b then (x.1, x.2 + m) :: r else x :: acc
    | [] => [x]) []

/-- The physical runs of a job's protected buffers, from the bytes of its list, and the check of its pre-image area (R427). -/
def protRuns (h : BitVec 16) (j : Job) (bs : List Byte) (s : State) : Except (BitVec 8) (List (Nat × Nat)) :=
  let l := protList bs j.nprot.toNat
  let sum := l.foldl (fun n x => n + x.2) 0
  if l.any (fun x => x.1 % 4096 != 0 || x.2 % 4096 != 0) then .error hsInvalid
  else if (hwPieces h j.preimg.toNat (sum + sum / 1024 + sum / 512) s).isNone then .error hsInvalid
  else match l.mapM (fun x => hwPieces h x.1 x.2 s) with
    | none => .error hsInvalid
    | some ps => match ps.flatten.mapM (fun p => (localOf s p.1).bind (fun a => (halfOfPa a).map (fun _ => (a, p.2)))) with
      | none => .error hsInvalid
      | some rs => .ok (mergeRuns rs)

/-- The protected-buffer list as Headwater reads it; empty for a job that protects nothing. -/
def readProt (h : BitVec 16) (j : Job) (s : State) : Option (List Byte) × State :=
  if j.nprot = 0 then (some [], s) else hwReadVirt h j.protVa.toNat (16 * j.nprot.toNat) s

/-- Ranges that a half holds: 1,024 at most (R427). -/
def rangesOf (s : State) (h : HalfId) (rs : List (Nat × Nat)) : Nat :=
  (s.prot.filter (fun r => halfOfPa r.lo == some h)).length + (rs.filter (fun r => halfOfPa r.1 == some h)).length

/-- A LOADED job starts at reach 0: its ranges are loaded, its record is written and is the checkpoint, and REACH_GO(0) goes to its
wells. -/
def startJob (k : Fin 32) (rs : List (Nat × Nat)) (s : State) : State :=
  let s := { s with prot := s.prot ++ rs.map (fun r => { job := k, lo := r.1, hi := r.1 + r.2 }) }
  let s := setJob k .running s
  let s := s.modJob k (fun j => { j with reach := 0, cur := reachRecord s { j with reach := 0 } })
  let s := s.modJob k (fun j => { j with ckpt := j.cur })
  let j := s.jobs[k]
  j.wells.foldl (fun s w => hwMail w 0x81 0 (startWell w s)) s

def jobStart (h : BitVec 16) (s : State) : HwAns :=
  match slotOfHandle s h with
  | none => .of hsNotFound s
  | some k =>
    let j := s.jobs[k]
    if j.state != .loaded then .of hsState s
    else
      let r := readProt h j s
      let s := r.2
      match r.1.elim (.error hsInvalid) (fun bs => if j.nprot = 0 then .ok [] else protRuns h j bs s) with
      | .error st => .of st s
      | .ok rs =>
        if 1024 < rangesOf s 0 rs ∨ 1024 < rangesOf s 1 rs then .of hsNoResource s
        else .of hsOk (startJob k rs (note k 0x02 0 s))

/-- JOB_START (R415). -/
def execJobStart (r : Fin 4) (s : State) : Out :=
  .next (runCmd r false false (fun c => match c with | .jobStart h => some (jobStart h) | _ => none) s)

/-! JOB_KILL (R433). -/

def jobKill (h : BitVec 16) (s : State) : HwAns :=
  match slotOfHandle s h with
  | none => .of hsNotFound s
  | some k => .of hsOk (if s.jobs[k].state == .clearing then s else tryReady (endJob k esKilled (note k 0x03 0 s)))

/-- JOB_KILL (R433). -/
def execJobKill (r : Fin 4) (s : State) : Out :=
  .next (runCmd r false false (fun c => match c with | .jobKill h => some (jobKill h) | _ => none) s)

/-! MAP (R413, R427, R438). -/

/-- Headwater's reserved pages: the top 64 MiB of the first stack of each basin. -/
def reservedPage (mode : BitVec 2) (pa : Nat) : Bool :=
  let top (n : Nat) : Bool := decide (n * 0x1000000000 + 0xFFC000000 ≤ pa ∧ pa < n * 0x1000000000 + 0x1000000000)
  top 0 || (mode == 1 && top 12) || (mode == 2 && (top 6 || top 12 || top 18))

/-- Whether two ranges meet. -/
def meets (a n b m : Nat) : Bool := decide (a < b + m ∧ b < a + n)

/-- What refuses a leaf of a MAP: alignment, the control space, the reserved pages; another basin, or wells of another job (R268). -/
def leafRefusal (s : State) (k : Fin 32) (x : LeafReq) : Option (BitVec 8) :=
  let size := if x.big then 2 ^ 32 else 2 ^ 26
  let g := x.pa.toNat
  let pa := g % 2 ^ 44
  if x.va.toNat % size ≠ 0 then some hsInvalid
  else if !x.valid then none
  else if g % size ≠ 0 ∨ 0xF0000000000 ≤ pa then some hsInvalid
  else if g / 2 ^ 44 ≠ s.devId.toNat then none
  else if ([0, 6, 12, 18].any (fun n => reservedPage s.basinMode (n * 0x1000000000 + 0xFFC000000) && meets pa size (n * 0x1000000000 + 0xFFC000000) 0x4000000)) then
    some hsInvalid
  else if otherBasin s s.jobs[k].basin.toNat pa then some hsDenied
  else match placeOf pa with
    | .well w _ => if (List.range (size / 0x1000000)).all (fun i => w.val + i < 128 && s.wellJob[(Fin.ofNat 128 (w.val + i) : Fin 128)] == some k) then none
                   else some hsDenied
    | _ => none

/-- What refuses an ingress window of a MAP. -/
def ingressRefusal (s : State) (k : Fin 32) (x : IngressReq) : Option (BitVec 8) :=
  let lo := fieldN x.w0 0 44
  let hi := fieldN x.w1 0 44
  if fieldN x.w0 44 20 ≠ 0 ∨ fieldN x.w1 44 20 ≠ 0 ∨ fieldN x.w2 16 41 ≠ 0 then some hsInvalid
  else if bitB x.w2 63 && fieldN x.w2 61 2 != 0 && s.prot.any (fun r => decide (r.lo ≤ hi ∧ lo < r.hi)) then some hsInvalid
  else if s.basinMode ≠ 0 ∧ fieldN x.w2 58 2 ≠ s.jobs[k].basin.toNat then some hsDenied
  else none

def setIngress (x : IngressReq) (s : State) : State :=
  let y : Ingress := { base := x.w0.extractLsb' 0 44, limit := x.w1.extractLsb' 0 44, valid := bitB x.w2 63, rights := x.w2.extractLsb' 60 3,
                       basin := x.w2.extractLsb' 58 2, anysrc := bitB x.w2 57, group := x.w2.extractLsb' 0 16 }
  s.modFar (fun f => { f with ingress := f.ingress.set x.index y })

/-- The job's list of leaves after a MAP. -/
def noteLeaf (x : LeafReq) (l : List (BitVec 56 × BitVec 60 × Bool)) : List (BitVec 56 × BitVec 60 × Bool) :=
  let rest := l.filter (fun y => !(y.1 == x.va && y.2.2 == x.big))
  if x.valid then rest ++ [(x.va, x.pa, x.big)] else rest

/-- Records on a granule that a MAP covers are RESUMEd (R438). -/
def resumeMapped (asid : BitVec 16) (ls : List LeafReq) (s : State) : State :=
  let covered (g : BitVec 30) : Bool := ls.any (fun x => x.valid && (if x.big then g.toNat / 64 == x.va.toNat / 2 ^ 32 else g.toNat == x.va.toNat / 2 ^ 26))
  (List.finRange 6).foldl (fun s f => (List.finRange 64).foldl (fun s n =>
    match s.fronts[f].records[n] with
    | some r => if r.asid = asid && covered (granuleOf r.va) then frespResume f n asid (granuleOf r.va) s else s
    | none => s) s) s

def mapCmd (h : BitVec 16) (ls : List LeafReq) (is_ : List IngressReq) (s : State) : HwAns :=
  match slotOfHandle s h with
  | none => .of hsNotFound s
  | some k =>
    let j := s.jobs[k]
    if j.state == .stopping || j.state == .clearing then .of hsState s
    else match ls.findSome? (leafRefusal s k), is_.findSome? (ingressRefusal s k) with
      | some st, _ => .of st s
      | none, some st => .of st s
      | none, none =>
        let s := ls.foldl (fun s x => writeLeaf h x s) s
        let s := is_.foldl (fun s x => setIngress x s) s
        let s := s.modJob k (fun j => { j with leaves := ls.foldl (fun l x => noteLeaf x l) j.leaves })
        .of hsOk (resumeMapped h ls (admitOwn h (note k 0x04 0 s)))

/-- MAP (R413). -/
def execMap (r : Fin 4) (s : State) : Out :=
  .next (runCmd r false false (fun c => match c with | .map h ls is_ => some (mapCmd h ls is_) | _ => none) s)

/-! STAGE_CFG (R413). -/

/-- A write into the stage block (R352, R353); none for an offset that holds no register. -/
def writeStage (o : Nat) (v : W64) (s : State) : Option State :=
  match o with
  | 0x000 | 0x008 | 0x018 | 0x048 | 0x050 | 0x058 => some s
  | 0x010 => some (cfgWrite v s)
  | 0x020 => some (s.modStg (fun g => { g with linit := v.extractLsb' 0 40 }))
  | 0x028 => some (s.modStg (fun g => { g with timeout := v.extractLsb' 56 8, deadline := v.extractLsb' 24 24, minstep := v.extractLsb' 0 24 }))
  | 0x030 => some (s.modStg (fun g => { g with wirecomp := v.extractLsb' 32 16, rillhop := v.extractLsb' 0 16 }))
  | 0x038 => some (if fieldN v 62 2 = 1 then ackWrite false (v.extractLsb' 48 8) (v.extractLsb' 0 48) s
                   else if fieldN v 62 2 = 2 then ackWrite true (v.extractLsb' 48 8) (v.extractLsb' 0 48) s else s)
  | 0x040 => some (s.modStg (fun g => { g with sLate := g.sLate && !bitB v 63, mismatch := g.mismatch && !bitB v 62, stuck := g.stuck && !bitB v 61 }))
  | 0x060 => some (s.modStg (fun g => { g with badslot := g.badslot && !bitB v 63 }))
  | _ =>
    if 0x1000 ≤ o ∧ o < 0x3000 ∧ o % 8 = 0 then some (slotWrite (Fin.ofNat 256 ((o - 0x1000) / 32)) (Fin.ofNat 4 (o % 32 / 8)) v s) else none

/-- The writes of a list in order; none where one names no register. -/
def writeStageAll : List (BitVec 16 × W64) → State → Option State
  | [], s => some s
  | (o, v) :: r, s => (writeStage o.toNat v s).bind (writeStageAll r)

def stageCfgCmd (ws : List (BitVec 16 × W64)) (bind : List (BitVec 16)) (s : State) : HwAns :=
  if bind.any (fun h => (slotOfHandle s h).isNone) then .of hsNotFound s
  else match writeStageAll ws s with
    | none => .of hsInvalid s
    | some t => .of hsOk (bind.foldl (fun s h => match slotOfHandle s h with
        | some k => (note k 0x05 0 s).modJob k (fun j => { j with stageBound := true })
        | none => s) t)

/-- STAGE_CFG (R413). -/
def execStageCfg (r : Fin 4) (s : State) : Out :=
  .next (runCmd r false false (fun c => match c with | .stageCfg ws b => some (stageCfgCmd ws b) | _ => none) s)

/-- BASIN_CFG (R413): kept for the next basin reset. -/
def basinCfgCmd (layout : BitVec 2) (ws : List (WeirAt × W64)) (s : State) : HwAns :=
  if layout = 3 then .of hsInvalid s else .of hsOk (s.modHw (fun h => { h with basinCfg := some (layout, ws) }))

/-- BASIN_CFG (R413). -/
def execBasinCfg (r : Fin 4) (s : State) : Out :=
  .next (runCmd r false false (fun c => match c with | .basinCfg l ws => some (basinCfgCmd l ws) | _ => none) s)

/-! Replay (R423-R425). -/

/-- A fault whose action is replay (R423, R424); while the job is being stopped for a replay or a rollback, the fault joins it (R423,
R432). -/
def faultReplay (k : Fin 32) (s : State) : State :=
  let j := s.jobs[k]
  if (j.state != .running && j.state != .paused) || j.cont.isSome then s
  else if !j.escaped && j.reachReplays < 3 then replayReach k s
  else if stageJob s j && stageSynced s then requestRepeat (note k noteRepeat 0 s)
  else endJob k (if j.escaped then esFaultEscaped else esReplayLimit) (note k noteStop 0 s)

/-- A well is retired and the reach of its job runs again (R425). -/
def retireAndReplay (w : WellId) (s : State) : State :=
  let k := s.wellJob[w]
  let s := retireWell w s
  match k with
  | some k => faultReplay k s
  | none => s

def retireCmd (ws : List WellId) (s : State) : HwAns :=
  .of hsOk (ws.foldl (fun s w => retireAndReplay w (match s.wellJob[w] with | some k => note k 0x07 (w64 w.val) s | none => s)) s)

/-- RETIRE (R425). -/
def execRetire (r : Fin 4) (s : State) : Out :=
  .next (runCmd r false false (fun c => match c with | .retire ws => some (retireCmd ws) | _ => none) s)

/-- XLATE_RESP (R289). -/
def xlateRespCmd (f : FrontId) (resume : Bool) (n : Fin 64) (asid : BitVec 16) (g : BitVec 30) (s : State) : HwAns :=
  if (respMatch s f n asid g).isNone then .of hsNotFound (badResp f s)
  else
    let s := match slotOfHandle s asid with | some k => note k 0x08 (putB 63 resume ||| g.setWidth 64) s | none => s
    .of hsOk (if resume then frespResume f n asid g s else frespAbort f n asid g s)

/-- XLATE_RESP (R413). -/
def execXlateResp (r : Fin 4) (s : State) : Out :=
  .next (runCmd r false false (fun c => match c with | .xlateResp f b n a g => some (xlateRespCmd f b n a g) | _ => none) s)

/-- FAULT_ACK (R437): the records named are freed. -/
def faultAckCmd (ks : List Nat) (s : State) : HwAns :=
  if ks.any (fun k => !s.hw.ledger.any (fun r => r.idx == k)) then .of hsNotFound s
  else .of hsOk (s.modHw (fun h => { h with ledger := h.ledger.filter (fun r => !ks.contains r.idx) }))

/-- FAULT_ACK (R413). -/
def execFaultAck (r : Fin 4) (s : State) : Out :=
  .next (runCmd r false false (fun c => match c with | .faultAck ks => some (faultAckCmd ks) | _ => none) s)

/-! Events (R443, R444). -/

/-- Records whose event has reached the host are DELIVERED (R435, R411). -/
def delivered (p : W64 → Bool) (s : State) : State :=
  let s := s.modHw (fun h => { h with ledger := h.ledger.map (fun r => if !r.delivered && p r.evt then { r with delivered := true, since := s.stg.t } else r) })
  s.modCf (fun c => { c with coal := c.coal.map (fun (x : Option Coal) => x.map (fun e =>
    { e with delivered := e.delivered || (match e.evt with | some n => p n | none => false) })) })

/-- Events lost are told as soon as the buffer has room (R444, R488). -/
def tellLoss (s : State) : State :=
  if s.evtLost = 0 ∨ 65536 ≤ s.events.length then s
  else { s.event 0x06 0xFFFF [s.evtFirstLost.getD 0, s.evtLost] with evtLost := 0 }

/-- A PAUSED job is RUNNING again and receives the REACH_GO that it was waiting for (R444); one that a replay or a rollback has restarted
meanwhile waits for none. -/
def resumeJob (k : Fin 32) (s : State) : State :=
  let s := setJob k .running (s.modJob k (fun j => { j with paused := false }))
  if s.jobs[k].reachDone.length = s.jobs[k].vmap.length then reachGo k s else tryReady s

/-- Jobs PAUSED for want of buffer go on once it holds less than 2 MiB (R444). -/
def resumePaused (s : State) : State :=
  if 32768 ≤ s.events.length then s
  else slots.foldl (fun s k => if s.jobs[k].state == .paused && s.jobs[k].paused then resumeJob k s else s) s

/-- EVENT_ACK (R443): every event up to the number leaves the buffer, with the record-area space it named (R489). -/
def eventAckCmd (n : W64) (s : State) : HwAns :=
  let s := delivered (fun e => decide (e.toNat ≤ n.toNat)) s
  let s := { s with events := s.events.filter (fun e => decide (n.toNat < e.seq.toNat)) }
  let s := s.modBy (fun b => { b with recUsed := b.recUsed.filter (fun x => decide (n.toNat < x.1.toNat)) })
  .of hsOk (resumePaused (tellLoss s))

/-- EVENT_ACK (R413). -/
def execEventAck (r : Fin 4) (s : State) : Out :=
  .next (runCmd r true false (fun c => match c with | .eventAck n => some (eventAckCmd n) | _ => none) s)

/-- EVENT_FETCH (R443): held events from a number go out again in order. -/
def eventFetchCmd (n : W64) (s : State) : HwAns :=
  .of hsOk (s.modBy (fun b => { b with stream := b.stream ++ (s.events.filter (fun e => decide (n.toNat ≤ e.seq.toNat))).map (fun e => .evt e.seq) }))

/-- EVENT_FETCH (R413). -/
def execEventFetch (r : Fin 4) (s : State) : Out :=
  .next (runCmd r true false (fun c => match c with | .eventFetch n => some (eventFetchCmd n) | _ => none) s)

/-- SOUND (R439): its completion waits for the record; a fifth one outstanding completes BUSY. In recovery mode it is answered too
(R519). -/
def execSound (r : Fin 4) (s : State) : Out :=
  .next (match ringFront r true s with
    | some (cseq, .sound token buffer) =>
      if s.hw.jobHalted && s.hw.faultHalted then s
      else
        let t := ringTake r cseq s
        if buffer.toNat % 4096 ≠ 0 then t.complete r cseq hsInvalid 0
        else if 4 ≤ t.hw.sounds.length then t.complete r cseq hsBusy 0
        else t.modHw (fun h => { h with sounds := h.sounds ++ [{ ring := r, cseq := cseq, token := token, buffer := buffer, start := t.stg.t }] })
    | _ => s)

/-! Mailboxes (R419, R420, R426). -/

/-- The message of a kind that waits in a well's WM_OUT, with the job that owns the well; Headwater takes it. -/
def takeMail (w : WellId) (kind : Nat) (body : W64 → State → State) (s : State) : State :=
  match s.wells[w].mailOut with
  | none => s
  | some m => if fieldN m 56 8 ≠ kind ∨ s.hw.jobHalted then s else body m (s.modWell w (fun u => { u with mailOut := none }))

/-- For the job that owns the well. -/
def withJob (w : WellId) (f : Fin 32 → State → State) (s : State) : State := match s.wellJob[w] with | some k => f k s | none => s

/-- REACH_DONE (R420): once every virtual well has sent it, the next reach starts, or waits while the job is PAUSED. One that is not for
the current reach is noted. -/
def takeReachDone (w : WellId) (m : W64) (k : Fin 32) (s : State) : State :=
  let j := s.jobs[k]
  if (j.state != .running && j.state != .paused) || j.cont.isSome || fieldN m 0 48 != j.reach.toNat % 2 ^ 48 then note k 0x11 m s
  else
    let s := s.modJob k (fun j => { j with reachDone := j.reachDone ++ [w] })
    if s.jobs[k].reachDone.length = j.vmap.length && j.state == .running then reachGoOrPause k s else s

/-- REACH_DONE (R420). -/
def execReachDone (w : WellId) (s : State) : Out := .next (takeMail w 1 (fun m s => withJob w (takeReachDone w m) s) s)

/-- STAGE_DONE (R426). -/
def takeStageDone (w : WellId) (m : W64) (k : Fin 32) (s : State) : State :=
  let j := s.jobs[k]
  if (j.state != .running && j.state != .paused) || j.cont.isSome || m.extractLsb' 0 48 != s.stg.number.truncate 48 || m.extractLsb' 48 8 != s.stg.attempt || !stageSynced s then note k 0x12 m s
  else
    let s := s.modJob k (fun j => { j with stageDone := j.stageDone ++ [w] })
    if s.jobs[k].stageDone.length = j.vmap.length then tryReady (s.modJob k (fun j => { j with lastStage := s.stg.number })) else s

/-- STAGE_DONE (R426). -/
def execStageDone (w : WellId) (s : State) : Out := .next (takeMail w 2 (fun m s => withJob w (takeStageDone w m) s) s)

/-- JOB_DONE (R433): once every virtual well has sent it, the job ends. -/
def takeJobDone (w : WellId) (m : W64) (k : Fin 32) (s : State) : State :=
  let j := s.jobs[k]
  if (j.state != .running && j.state != .paused) || j.cont.isSome then note k 0x13 m s
  else
    let s := s.modJob k (fun j => { j with jobDone := j.jobDone ++ [w] })
    if s.jobs[k].jobDone.length = j.vmap.length then tryReady (endJob k esDone s) else s

/-- JOB_DONE (R433). -/
def execJobDone (w : WellId) (s : State) : Out := .next (takeMail w 3 (fun m s => withJob w (takeJobDone w m) s) s)

/-- CAUSE codes that a FAULT message turns into a WELL_FAULT record (R436): STORE_ERR, REG_PARITY, V_STORE_ERR, V_PARITY, MR_RESIDUE,
MR_STORE_ERR. -/
def wellFaultCode (c : Nat) : Bool := c == 0x15 || c == 0x16 || c == 0x24 || c == 0x25 || c == 0x2C || c == 0x2D

/-- FAULT (R436): the monitor's report becomes a record for the fault pair; one with another CAUSE is noted. -/
def takeFault (w : WellId) (m : W64) (s : State) : State :=
  let c := fieldN m 0 8
  let s := s.modHw (fun h => { h with wellCause := h.wellCause.set w (BitVec.ofNat 8 c) })
  if wellFaultCode c then s.report (wellUnit w) 0x01 (w64 c) else withJob w (fun k s => note k 0x14 m s) s

/-- FAULT (R436). -/
def execFault (w : WellId) (s : State) : Out := .next (takeMail w 4 (takeFault w) s)

/-- OPERATION_COMPLETE (R384, R385): the operation completes, after which READY may be due (R398, R426). -/
def execOperationComplete (e : EngineId) (k : Nat) (s : State) : Out := .next (tryReady (completeOperation e k s))

/-! The fault ledger (R435-R437). -/

/-- The job that a report names. -/
def reportJobHandle (s : State) (r : Report) : BitVec 16 :=
  if r.job ≠ 0xFFFF then r.job
  else
    let n := r.unit.toNat % 4096
    if r.cls = 0x06 then
      (match s.fronts[(Fin.ofNat 6 (r.detail.toNat / 64) : Fin 6)].records[(Fin.ofNat 64 (r.detail.toNat % 64) : Fin 64)] with
        | some x => if (slotOfHandle s x.asid).isSome then x.asid else 0xFFFF
        | none => 0xFFFF)
    else if r.unit.toNat / 4096 = 1 then s.jobOfWell (Fin.ofNat 128 n)
    else if r.unit.toNat / 4096 = 2 ∧ n < 256 then s.jobOfWell (Fin.ofNat 128 (n / 2))
    else match reportJobs s r with
      | k :: _ => s.jobs[k].handle k
      | [] => 0xFFFF

/-- DETAIL of a record (R435): the CAUSE of a WELL_FAULT, the reason of a WELL_WEDGED, the Pump status of a PUMP_ERROR, the chunk index
of a REDUCE_CORRUPT, the DETAIL that a FABRIC report carries, the code of a PLATFORM report (R456); for the other classes the spec states
none, and it is the free value of index n. -/
def reportDetail (n : Nat) (r : Report) : BitVec 32 :=
  if r.cls = 0x05 then r.detail.extractLsb' 32 32
  else if r.cls = 0x10 then (r.detail.extractLsb' 0 16).setWidth 32
  else if r.cls = 0x01 ∨ r.cls = 0x02 ∨ r.cls = 0x0A ∨ r.cls = 0x0D then r.detail.extractLsb' 0 32
  else (Config.freeWord n).truncate 32

/-- Words 0-3 of a record (R435). -/
def LedgerRec.words (r : LedgerRec) : List W64 :=
  [putN 62 (if r.delivered then 2 else 1) ||| putN 48 r.cls.toNat ||| putN 32 r.unit.toNat ||| putN 16 r.job.toNat, r.stage,
   putN 32 r.count.toNat ||| r.detail.setWidth 64, putN 32 r.firstT.toNat ||| r.lastT.setWidth 64]

/-- Words 6 and 7 of an XLATE_FAULT event (R438, R488), and the address of a SECTOR_WEAK one (R452). -/
def xlateWords (s : State) (r : Report) : List W64 :=
  if r.cls = 0x10 ∧ r.detail.extractLsb' 0 16 = 0x0102 then [r.detail >>> 16]
  else if r.cls ≠ 0x06 then []
  else match s.fronts[(Fin.ofNat 6 (r.detail.toNat / 64) : Fin 6)].records[(Fin.ofNat 64 (r.detail.toNat % 64) : Fin 64)] with
    | some x => [putN 26 (granuleOf x.va).toNat, x.ftype.setWidth 64 ||| putN 4 x.rights.toNat]
    | none => []

/-- The event that reports a record; the coalescing entry of a FABRIC report takes its number too (R436). -/
def ledgerEvent (e : LedgerRec) (extra : List W64) (s : State) : State :=
  let n := s.evtSeq
  let s := if e.cls = 0x0D then s.modCf (fun c => { c with coal := c.coal.map (fun (x : Option Coal) => x.map (fun y =>
      if y.evt.isNone && y.unit == e.unit && y.stage == e.stage then { y with evt := some n } else y)) }) else s
  s.event 0x01 e.job (e.words ++ extra)

/-- Number of fault-ledger records (R435). -/
def ledgerSize : Nat := 16384

/-- A report enters the ledger (R437). -/
def ledgerPut (r : Report) (s : State) : State :=
  let job := reportJobHandle s r
  let now := timeUs s
  let same (e : LedgerRec) : Bool := e.unit == r.unit && e.cls == r.cls && e.stage == r.stage
  let extra := xlateWords s r
  if s.hw.ledger.any same then
    let s := s.modHw (fun h => { h with ledger := h.ledger.map (fun e => if same e then { e with count := stick 32 e.count, lastT := now } else e) })
    if r.cls = 0x06 then (match s.hw.ledger.find? same with | some e => ledgerEvent { e with job := job } extra s | none => s) else s
  else
    let mk (idx : Nat) (s : State) : State :=
      let e : LedgerRec := { idx := idx, delivered := false, since := 0, evt := s.evtSeq, cls := r.cls, unit := r.unit, job := job, stage := r.stage, count := 1,
                             detail := reportDetail s.free r, firstT := now, lastT := now }
      ledgerEvent e extra ({ s with free := s.free + 1 }.modHw (fun h => { h with ledger := h.ledger ++ [e] }))
    if s.hw.ledger.length < ledgerSize then
      mk (((List.range ledgerSize).find? (fun i => !s.hw.ledger.any (fun e => e.idx == i))).getD 0) s
    else match s.hw.ledger.find? (·.delivered) with
      | some e =>
        let s := s.event 0x01 e.job e.words
        mk e.idx (s.modHw (fun h => { h with ledger := h.ledger.filter (fun x => x.idx != e.idx) }))
      | none =>
        let first := s.hw.ledgerOvf = 0
        let s := s.modHw (fun h => { h with ledgerOvf := h.ledgerOvf + 1 })
        if first then { s with free := s.free + 1 }.event 0x01 0xFFFF [putN 62 1 ||| putN 48 0x11 ||| putN 32 0x7001 ||| putN 16 0xFFFF, r.stage,
          putN 32 1 ||| ((Config.freeWord s.free).truncate 32).setWidth 64, putN 32 now.toNat ||| now.setWidth 64]
        else s

/-- 24 hours of the stage timer in ns. -/
def dayNs : Nat := 86400000000000

/-- Whether an attributable fault of a well is its second in 24 hours (R425); it is counted. -/
def secondFault (w : WellId) (tag : Bool) (s : State) : Bool × State :=
  let recent := s.hw.faults.filter (fun f => decide (s.stg.t.toNat < f.2.2.toNat + dayNs))
  (recent.any (fun f => f.1 == w && f.2.1 == tag), s.modHw (fun h => { h with faults := recent ++ [(w, tag, s.stg.t)] }))

/-- Whether an uncorrectable store error of a well lies in a word that had one before and was cleared (R425); the word is kept. -/
def secondStoreError (w : WellId) (s : State) : Bool × State :=
  let e := s.wells[w].st.elast
  if !bitB e 63 || !bitB e 62 then (false, s)
  else
    let k := wellAddr w (fieldN e 0 24) / 8
    (s.hw.ueWords.contains k, s.modHw (fun h => if h.ueWords.contains k then h else { h with ueWords := k :: h.ueWords }))

/-- The well that a report names. -/
def reportWell (r : Report) : WellId := if r.unit.toNat / 4096 = 2 then Fin.ofNat 128 (r.unit.toNat % 4096 / 2) else Fin.ofNat 128 (r.unit.toNat % 4096)

/-- The replay of each job concerned, that of one it has joined apart (R423, R437). -/
def replayAll (ks : List (Fin 32)) (r : Report) (s : State) : State := ks.foldl (fun s k => if r.joined.contains k then s else faultReplay k s) s

/-- Retirement, if due, then the replay (R423 step 3, R425). -/
def replayWell (due : Bool) (w : WellId) (ks : List (Fin 32)) (r : Report) (s : State) : State :=
  replayAll ks r (if due then retireWell w s else s)

/-- The action of a report's class (R436). -/
def faultAction (r : Report) (s : State) : State :=
  let w := reportWell r
  let ks := reportJobs s r
  let code := r.detail.toNat % 256
  match r.cls.toNat with
  | 0x01 =>
    if code = 0x16 ∨ code = 0x25 ∨ code = 0x2C then (let x := secondFault w false s; replayWell x.1 w ks r x.2)
    else (let x := secondStoreError w s; replayWell x.1 w ks r x.2)
  | 0x02 =>
    if code = 3 ∨ code = 5 then replayAll ks r s
    else ks.foldl (fun s k => endJob k esWedged s) s
  | 0x04 => let x := secondFault w true s; replayWell x.1 w ks r x.2
  | 0x05 =>
    if r.detail.toNat / 2 ^ 32 % 256 = 0x08 ∧ r.unit.toNat % 4096 < 256 then (let x := secondStoreError w s; replayWell x.1 w ks r x.2) else replayAll ks r s
  | 0x07 | 0x08 => replayAll ks r s
  | 0x0A => if stageSynced s then requestRepeat s else s
  | 0x0B => if 4 ≤ code ∧ code ≤ 7 ∧ stageSynced s then requestRepeat s else s
  | _ => s

/-- Whether a report is only a reason to repeat the step, and no event for the host (R385). -/
def quietReport (r : Report) (s : State) : Bool :=
  r.cls == 0x0B && decide (4 ≤ r.detail.toNat % 256 ∧ r.detail.toNat % 256 ≤ 7) && s.stg.role != 0

/-- FAULT_RECORD (R436, R437): the oldest report is coalesced and its action taken. With a pair stopped (R15) the other records the
HEADWATER faults; without the job pair no action is taken. -/
def execFaultRecord (s : State) : Out :=
  .next (
    let p (r : Report) : Bool := !s.hw.faultHalted || r.cls == 0x0C
    if s.hw.faultHalted && s.hw.jobHalted then s
    else match s.reports.find? p with
    | none => s
    | some r =>
      let s := { s with reports := removeFirst p s.reports }
      let s := if quietReport r s then s else ledgerPut r s
      if s.hw.jobHalted || s.hw.faultHalted then s else tryReady (faultAction r s))

/-- XLATE_TIMEOUT (R438): the job's XTIMEOUT has expired for a record, which is ABORTed. -/
def execXlateTimeout (f : FrontId) (n : Fin 64) (s : State) : Out :=
  .next (match s.fronts[f].records[n] with
    | some r => if (slotOfHandle s r.asid).isSome && !s.hw.jobHalted then frespAbort f n r.asid (granuleOf r.va) s else s
    | none => s)

/-- FAULT_RECORD_EXPIRE (R437): 64 stages after its stage once delivered, or 1 s after delivery while ROLE = OFF. -/
def execFaultRecordExpire (k : Nat) (s : State) : Out :=
  .next (s.modHw (fun h => { h with ledger := h.ledger.filter (fun r =>
    !(r.idx == k && r.delivered && (if s.stg.role = 0 then decide (r.since.toNat + 1000000000 ≤ s.stg.t.toNat)
      else decide (r.stage.toNat + 64 ≤ s.stg.number.toNat)))) }))

/-! Clearing (R434). -/

/-- The frames of a job are cleared and released (R304, R434). -/
def releaseFrames (j : Job) (s : State) : State := j.frames.foldl (fun s x => setFrame x .off (zeroFrame x.1 x.2 s)) s

/-- JOB_CLEAR_COMPLETE (R434): everything the job owned has been cleared, and its slot is FREE for the next generation. -/
def clearJob (k : Fin 32) (s : State) : State :=
  let j := s.jobs[k]
  let ws := (List.finRange 128).filter (fun (w : Fin 128) => s.wellJob[w] == some k)
  let s := ws.foldl (fun s w => clearWell w false s) s
  let s := clearConfluence j s
  let s := centralWrite (s.asidBase.toNat + 8 * (j.handle k).toNat) (wordBytes 0) s
  let s := { s with wellJob := ws.foldl (fun (v : Vector (Option (Fin 32)) 128) (w : Fin 128) => v.set w none) s.wellJob }
  let s := jobEvent k (s.modJob k (fun j => { Job.reset with gen := j.gen + 1, endStatus := j.endStatus }))
  settleFrames (releaseFrames j s)

/-- JOB_CLEAR_COMPLETE (R434): once what runs for the clearing has ended. -/
def execJobClearComplete (k : Fin 32) (s : State) : Out := .next (if clearingDone s k then clearJob k s else s)

/-- HEADWATER_LOCKSTEP_DISAGREE (R15): the pair stops; the other one records it while it runs. -/
def execHeadwaterLockstepDisagree (pair : Fin 2) (s : State) : Out :=
  .next (
    let s := s.modHw (fun h => if pair = 0 then { h with jobHalted := true } else { h with faultHalted := true })
    s.report (BitVec.ofNat 16 (0x7000 + pair.val)) 0x0C 0)

end Sys2Proof.Machine
end

