-- ==== Sys2Proof/Machine/Baseflow.lean ====
section
/-! DEFINITION. Baseflow: scrubbing, calibration, margin, wear, telemetry records (R445-R469). -/

namespace Sys2Proof.Machine

def State.modBf (s : State) (f : Baseflow → Baseflow) : State := { s with bf := f s.bf }

/-- The baseflow core of a unit (R445). -/
def coreOfUnit (unit : BitVec 16) : Nat :=
  let n := unit.toNat % 4096
  match unit.toNat / 4096 with
  | 4 => if n < 12 then 0 else 1
  | 5 => if n < 18 then 2 else 3
  | 10 => if n < 16 then 0 else if n < 32 then 1 else if n < 34 then 0 else if n < 36 then 1 else if n < 38 then 0 else if n < 40 then 1
          else if n < 42 then 2 else if n < 44 then 3 else 2
  | _ => 2

/-- A task of a core is over. -/
def endTask (core : Fin 4) (task : BitVec 16) (s : State) : State :=
  s.modBf (fun b => { b with tasks := b.tasks.filter (fun t => !(t.1 == core && t.2 == task)) })

/-- A task on a core that owns none of its units (R449). -/
def noop (s : State) : State := s.modBf (fun b => { b with noop := stick 8 b.noop })

/-! Scrubbing (R446-R452). -/

def scrubBit : ScrubMem → Nat
  | .stackMem => 0 | .cistern => 1 | .stores => 2

/-- Period of a memory in ns (R450). -/
def scrubPeriod (s : State) (m : ScrubMem) : Nat :=
  let p := s.bf.period
  match m with
  | .stackMem => fieldN p 48 16 * 3600000000000
  | .cistern => fieldN p 32 16 * 1000000000
  | .stores => fieldN p 16 16 * 100000000

def passOf (s : State) (core : Fin 2) (m : ScrubMem) : Option ScrubPass := s.bf.passes.find? (fun p => p.core == core && p.mem == m)

def modPass (core : Fin 2) (m : ScrubMem) (f : ScrubPass → ScrubPass) (s : State) : State :=
  s.modBf (fun b => { b with passes := b.passes.map (fun p => if p.core == core && p.mem == m then f p else p) })

/-- The core that scrubs a sector. -/
def sectorCore (pa : Nat) : Fin 2 := match halfOfPa pa with | some h => h | none => 0

/-- A pass begins: a sector that the pass before did not correct leaves the list of R452. -/
def startPass (core : Fin 2) (m : ScrubMem) (s : State) : State :=
  if (passOf s core m).isSome then s
  else
    let mine (x : WeakSector) : Bool := x.core == core && x.mem == m
    s.modBf (fun b => { b with
      passes := b.passes ++ [{ core := core, mem := m, start := s.stg.t, late := false, counted := false }]
      weak := (b.weak.filter (fun x => !mine x || x.now)).map (fun x => if mine x then { x with now := false } else x) })

/-- SCRUB_PASS_START (R450): for a memory whose scrubbing BF_CTL enables. -/
def execScrubPassStart (core : Fin 2) (m : ScrubMem) (s : State) : Out :=
  .next (if bitB s.bf.ctl (scrubBit m) then startPass core m s else s)

/-- A sector corrected by scrubbing (R452): the third pass in a row raises SECTOR_WEAK. -/
def noteWeak (core : Fin 2) (m : ScrubMem) (unit : BitVec 16) (pa : Nat) (s : State) : State :=
  let k := pa / 64
  match s.bf.weak.find? (fun x => x.sector == k && x.mem == m) with
  | some x =>
    if x.now then s
    else
      let s := s.modBf (fun b => { b with weak := b.weak.map (fun y => if y.sector == k && y.mem == m then { y with passes := y.passes + 1, now := true } else y) })
      if x.passes + 1 = 3 then platform unit (putN 16 pa ||| 0x0102) s else s
  | none =>
    s.modBf (fun b =>
      let mine := b.weak.filter (fun x => x.core == core)
      let rest := if 1024 ≤ mine.length then removeFirst (fun x => x.core == core) b.weak else b.weak
      { b with weak := rest ++ [{ core := core, mem := m, sector := k, passes := 1, now := true }] })

/-- A sector that is poisoned already (R451). -/
def poisonSeen (s : State) : State := s.modBf (fun b => { b with poisonSeen := stick 16 b.poisonSeen })

/-- A scrub read of a store word (R251, R253, R451). -/
def scrubStore (w : WellId) (o : Nat) (s : State) : State :=
  if !s.wellOn w || 0x720000 ≤ o || !bankOpenAt s.wells[w].st o then s
  else
    let r := eccRead w 4 (o / 8 * 8) 8 s
    let s := if o < 0x700000 then noteTagParity w [slotOf o] r.2 else r.2
    match r.1 with
    | some off => s.report (wellUnit w) 0x01 (putN 32 off ||| 0x15)
    | none => s

/-- A scrub read of a Cistern sector (R313, R451). -/
def scrubCisternSector (core : Fin 2) (pa : Nat) (s : State) : State :=
  let k := pa / 64
  let act (h : HalfId) (sl : Fin 32) (lost : Bool) : State :=
    if s.poison.contains k then poisonSeen s
    else match s.cErr.find? (fun e => e.1 == k) with
      | none => s
      | some (_, false) => noteWeak core .cistern (sliceUnit h sl) pa (correctSector h sl pa s)
      | some (_, true) => if lost then poisonSector h sl pa s else
          updLine pa (fun l => { l with valid := l.valid &&& ~~~(1#4 <<< sectorK pa) })
            ({ s with cErr := s.cErr.filter (fun e => e.1 != k) }.modHalf h (fun x => { x with elast := ciElast true false false sl pa }))
  match placeOf pa with
  | .stack n => match lineAt s pa with
    | some l => if l.valid.getLsbD (sectorK pa) then act (halfOfStack n) l.slice (l.dirty.getLsbD (sectorK pa)) else s
    | none => s
  | .scratch o => if (centralRefusal s pa).isSome then s else act (backing s.basinMode o).1 (scratchPlace s.basinMode o).1 true
  | _ => s

/-- A scrub read of a stack sector: it takes the uncached path, behind every foreground request of its pseudo-channel (R317), and
allocates nothing (R450, R451). -/
def scrubStackSector (core : Fin 2) (n : StackId) (pa : Nat) (s : State) : State :=
  let read (s : State) : Bool × State := stackFetch n pa (takeTurn n pa .baseflow (settleSector n pa s))
  if (centralRefusal s pa).isSome then s
  else match s.stErr.find? (fun e => e.1 == pa / 64) with
    | some (_, .poison) => poisonSeen s
    | some (_, .oneSymbol) => noteWeak core .stackMem (stackUnit n) pa (read s).2
    | _ => (read s).2

/-- Whether new scrub work may start at this moment (R447): within the window, or with less than a tenth of the period left. -/
def scrubMay (s : State) (p : ScrubPass) : Bool :=
  let per := scrubPeriod s p.mem
  bfWindowOpen s || decide (10 * (p.start.toNat + per - s.stg.t.toNat) < per)

/-- Whether a read is the last one of a core's pass: the last word of its last powered well, the last sector of its last stack in
service, the last set of its last slice. -/
def lastRead (s : State) (core : Fin 2) (m : ScrubMem) (pa : Nat) : Bool :=
  match m, placeOf pa with
  | .stores, .well w o =>
    decide (0x71FFF8 ≤ o) && ((List.finRange 128).filter (fun (x : Fin 128) => x.val / 64 == core.val && s.wellOn x)).getLast? == some w
  | .stackMem, .stack n =>
    decide (0xFFFFFFFC0 ≤ pa % 0x1000000000) && ((List.finRange 24).filter (fun (x : Fin 24) => x.val / 12 == core.val && s.stackMask.getLsbD x.val)).getLast? == some n
  | .cistern, .stack _ => sliceOf pa == 31 && setOf pa == 4095
  | .cistern, .scratch o => (scratchPlace s.basinMode o).1 == 31 && (scratchPlace s.basinMode o).2.1 == 4095
  | _, _ => false

/-- A pass is over; after a late one the next starts at once (R448). -/
def endScrub (core : Fin 2) (m : ScrubMem) (late : Bool) (s : State) : State :=
  let s := s.modBf (fun b => { b with passes := b.passes.filter (fun p => !(p.core == core && p.mem == m)) })
  if late && bitB s.bf.ctl (scrubBit m) then startPass core m s else s

/-- STORE_SCRUB_READ (R450, R451): one read of a pass that runs. -/
def execStoreScrubRead (core : Fin 2) (m : ScrubMem) (addr : BitVec 44) (s : State) : Out :=
  .next (match passOf s core m with
    | none => s
    | some p =>
      let pa := addr.toNat
      if !scrubMay s p then s
      else
        let s := if bfWindowOpen s || p.counted then s
          else modPass core m (fun p => { p with counted := true }) (s.modBf (fun b => { b with winmiss := stick 8 b.winmiss }))
        let s := match m, placeOf pa with
          | .stores, .well w o => if w.val / 64 = core.val then scrubStore w o s else s
          | .stackMem, .stack n => if n.val / 12 = core.val then scrubStackSector core n pa s else s
          | .cistern, .stack n => if n.val / 12 = core.val then scrubCisternSector core pa s else s
          | .cistern, .scratch _ => if sectorCore pa = core then scrubCisternSector core pa s else s
          | _, _ => s
        if lastRead s core m pa then endScrub core m p.late s else s)

/-- SCRUB_LATE (R448): once for a pass that is unfinished at the end of its period. -/
def execScrubLate (core : Fin 2) (m : ScrubMem) (s : State) : Out :=
  .next (match passOf s core m with
    | none => s
    | some p => if p.late || decide (s.stg.t.toNat < p.start.toNat + scrubPeriod s m) then s else
        platform (bfUnit core.val) 0x0101 (modPass core m (fun p => { p with late := true }) (s.modBf (fun b => { b with scrubLate := true }))))

/-! Tasks (R449). -/

/-- A scrub task: a pass starts if none runs. -/
def scrubTask (core : Fin 4) (m : ScrubMem) (s : State) : State :=
  if h : core.val < 2 then startPass ⟨core.val, h⟩ m s else noop s

/-- SCRUB_STACKS (R449). -/
def execScrubStacks (core : Fin 4) (s : State) : Out := .next (scrubTask core .stackMem (endTask core 0x0001 s))
/-- SCRUB_CISTERN (R449). -/
def execScrubCistern (core : Fin 4) (s : State) : Out := .next (scrubTask core .cistern (endTask core 0x0002 s))
/-- SCRUB_STORES (R449). -/
def execScrubStores (core : Fin 4) (s : State) : Out := .next (scrubTask core .stores (endTask core 0x0003 s))

/-- LINK_RETRAIN (R449): every DEGRADED link of the core retrains. -/
def execLinkRetrain (core : Fin 4) (s : State) : Out :=
  .next (
    let s := endTask core 0x0010 s
    if core.val < 2 then noop s
    else (List.finRange 36).foldl (fun s (l : Fin 36) =>
      if l.val / 18 + 2 == core.val && s.far.links[l].degraded then linkRetrain l s else s) s)

/-! Wear (R459-R463). -/

/-- I_rated of a domain's rail in mA (R495). -/
def iRated (d : Nat) : Nat := if d < 32 then 60000 else if d < 36 then 80000 else if d < 40 then 50000 else if d = 40 ∨ d = 42 then 120000 else 40000

/-- Adding to an integrator, which sticks at its top (R457). -/
def sat64 (a : W64) (n : Nat) : W64 := w64 (min (2 ^ 64 - 1) (a.toNat + n))

/-- An entry's reading after an update. An EM_STRESS reading carries the rail current in mA times 2^16 and the temperature in 0.1 degrees
over one second. -/
def WearEntry.take (s : State) (e : WearEntry) (x : WearReading) : WearEntry :=
  let e := { e with valid := true }
  match e.code.toNat with
  | 1 | 3 => { e with reading := w64 x.value }
  | 2 => { e with reading := (s.far.links[(Fin.ofNat 36 (e.unit.toNat % 4096) : Fin 36)].bias).setWidth 64 }
  | 4 => { e with reading := sat64 e.reading (Config.emStress (x.value / 65536) (iRated (e.unit.toNat % 4096)) (x.value % 65536)) }
  | _ => e

/-- AT90 and AT100 (R461). -/
def wearLimits (e : WearEntry) (s : State) : WearEntry × State :=
  let u := e.used
  let r90 := decide (9 * u.2 ≤ 10 * u.1)
  let r100 := u.1 == u.2
  let s := if r90 && !e.at90 then platform e.unit 0x0105 s else s
  let s := if r100 && !e.at100 then platform e.unit 0x0106 s else s
  ({ e with at90 := e.at90 || r90, at100 := e.at100 || r100 }, s)

/-- LASER_BIAS, which is FB_OPT.BIAS, and THERMAL_CYCLES, counted as the sensors are read, need no reading from outside (R459). -/
def WearEntry.ownReading (e : WearEntry) : Bool := e.code == 2 || e.code == 5

/-- Every entry that a test takes is updated (R461) with its readings in order: an integrator adds each (R459), of the others the last
stays. -/
def updateWear (own : WearEntry → Bool) (readings : List WearReading) (s : State) : State :=
  let es := (wearEntries s).map (fun e =>
    if !own e then e
    else
      let rs := readings.filter (fun x => x.code == e.code && x.unit == e.unit)
      (if e.ownReading then rs ++ [{ unit := e.unit, code := e.code, value := 0 }] else rs).foldl (fun e x => e.take s x) e)
  let r := es.foldl (fun (a : List WearEntry × State) e => if own e && e.valid then (let y := wearLimits e a.2; (a.1 ++ [y.1], y.2)) else (a.1 ++ [e], a.2)) ([], s)
  r.2.modBf (fun b => { b with wear := r.1 })

/-- WEAR_UPDATE (R449). -/
def execWearUpdate (core : Fin 4) (readings : List WearReading) (s : State) : Out :=
  .next (updateWear (fun e => e.code != 6 && coreOfUnit e.unit == core.val) readings (endTask core 0x0020 s))

/-- WEAR_HOURLY_UPDATE (R461): every entry, and one more powered hour of AGE. -/
def execWearHourlyUpdate (readings : List WearReading) (s : State) : Out :=
  .next (updateWear (fun e => e.code != 6) readings
    (s.modBf (fun b => { b with wear := (wearEntries s).map (fun e => if e.code = 6 then { e with reading := sat64 e.reading 1, valid := true } else e) })))

/-- WEAR_DAILY_SAMPLE (R461): a history of 90 samples. -/
def execWearDailySample (s : State) : Out :=
  .next (s.modBf (fun b => { b with wear := (wearEntries s).map (fun e =>
    if e.valid && e.code != 6 then (let h := e.hist ++ [e.used.1]; { e with hist := h.drop (h.length - 90) }) else e) }))

/-- The copy of the wear log that is written next: the one that is not good, else the older (R463). -/
def olderCopy (s : State) : Fin 2 :=
  match s.bf.wearLog[(0 : Fin 2)], s.bf.wearLog[(1 : Fin 2)] with
  | none, _ => 0
  | some _, none => 1
  | some a, some b => if a.1.toNat ≤ b.1.toNat then 0 else 1

/-- Writing the wear log (R463). -/
def writeWearLog (ok : Bool) (s : State) : State :=
  let k := olderCopy s
  let n := (s.bf.wearLog.toList.filterMap (fun c => c.map (fun x => x.1.toNat))).foldl max 0
  if ok then s.modBf (fun b => { b with wearLog := b.wearLog.set k (some (w64 (n + 1), wearEntries s)) })
  else platform (bfUnit 2) 0x0108 (s.modBf (fun b => { b with wearLog := b.wearLog.set k none, wsaveErr := true }))

/-- WEAR_SAVE (R449, R463): on IO0 only, within the phase window. -/
def execWearSave (core : Fin 4) (ok : Bool) (s : State) : Out :=
  .next (if core ≠ 2 then noop (endTask core 0x0021 s) else if bfWindowOpen s then writeWearLog ok (endTask core 0x0021 s) else s)

/-- WEAR_LOG_WRITE (R463). -/
def execWearLogWrite (ok : Bool) (s : State) : Out := .next (if bfWindowOpen s then writeWearLog ok s else s)

/-! Calibration and margin (R453, R454). -/

/-- LASER_BIAS_TRIM (R453): the bias moves by at most 1% toward the trained power; how far is not stated. -/
def execLaserBiasTrim (l : LinkId) (txpwr trained : BitVec 16) (s : State) : Out :=
  .next (
    let k := s.far.links[l]
    if !s.linkOn l || k.state == .disabled then s
    else
      let d := txpwr.toInt - trained.toInt
      let r := s.takeFree
      let step := BitVec.ofNat 16 (r.1.toNat % (k.bias.toNat / 100 + 1))
      if d < -30 then r.2.modLink l (fun k => { k with txpwr := txpwr, bias := k.bias + step })
      else if 30 < d then r.2.modLink l (fun k => { k with txpwr := txpwr, bias := k.bias - step })
      else s.modLink l (fun k => { k with txpwr := txpwr }))

/-- RECEIVER_TUNING (R453): the equaliser taps are analogue settings that no register shows. -/
def execReceiverTuning (_l : LinkId) (s : State) : Out := .next s

/-- PHY_TRACKING (R453). -/
def execPhyTracking (n : StackId) (moved inRange : Bool) (s : State) : Out :=
  .next (
    if !s.domain (36 + n.val / 6) then s
    else
      let s := if moved then s.modStack n (fun c => { c with retrain := stick 16 c.retrain }) else s
      if inRange then s else platform (stackUnit n) 0x0103 s)

/-- Margin range of a rail in mV (R495). -/
def railRange (d : Nat) : Nat × Nat := if d < 32 then (700, 850) else if d < 40 then (720, 800) else (760, 840)

/-- MARGIN_CONTROL (R454): the guard is 15 ps; a step that the rail's range refuses while the slack is below the guard raises MARGIN_LOW. -/
def execMarginControl (d : Fin 44) (slack : Int) (s : State) : Out :=
  .next (
    let v := s.pw.rail[d]
    let r := railRange d.val
    let put (v : Nat) : State := { s with pw := { s.pw with rail := s.pw.rail.set d v } }
    if !s.domain d.val then s
    else if slack < 25 then
      (if v + 5 ≤ r.2 then put (v + 5) else if slack < 15 then platform (domUnit d.val) 0x0104 s else s)
    else if 45 < slack then (if r.1 ≤ v - 5 then put (v - 5) else s)
    else s)

/-- BASEFLOW_RESTART (R445): the core restarts from its image; its services go on where they were. -/
def execBaseflowRestart (core : Fin 4) (s : State) : Out := .next (platform (bfUnit core.val) 0x0109 s)

/-! Telemetry records (R466). -/

/-- The ring: its base and size. -/
def ringBase : Nat := 0x00FF000000
def ringSize : Nat := 0x1000000

/-- The bytes of a record. -/
def recordBytes (x : TelSample) (seq : W64) (dev : BitVec 16) : List Byte :=
  let b := ([x.w0, x.w1, seq, putN 16 0x0100 ||| dev.setWidth 64] ++ x.entries.flatMap (fun e => [e.1, e.2])).flatMap wordBytes
  b ++ List.replicate ((32 - b.length % 32) % 32) 0

/-- Writing into the ring, which lies in S0. -/
def ringWrite (o : Nat) (bs : List Byte) (s : State) : State :=
  if (centralRefusal s (ringBase + o)).isSome then s else centralWrite (ringBase + o) bs s

/-- TELEMETRY_RECORD_WRITE (R466): the oldest latched sample; a pad record fills the end of the ring where the record does not fit. -/
def execTelemetryRecordWrite (s : State) : Out :=
  .next (match s.bf.samples with
    | [] => s
    | x :: rest =>
      let bs := recordBytes x s.bf.telSeq s.devId
      let head := s.bf.telHead.toNat
      let wrap := decide (ringSize < head + bs.length)
      let s := if wrap then ringWrite head (List.replicate (ringSize - head) 0) s else s
      let at_ := if wrap then 0 else head
      let s := ringWrite at_ bs s
      s.modBf (fun b => { b with
        samples := rest
        telSeq := b.telSeq + 1
        telHead := BitVec.ofNat 24 (at_ + bs.length)
        telWrapped := b.telWrapped || wrap || at_ + bs.length == ringSize }))

/-! COUNTER_WRAP (R457). -/

/-- The 48-bit counters outside the wells' cores whose OVF is set: unit, counter. -/
def wrapped (s : State) : List (BitVec 16 × Nat) :=
  let pick (unit : BitVec 16) (cs : List (Nat × Counter48)) : List (BitVec 16 × Nat) := (cs.filter (fun c => c.2.ovf)).map (fun c => (unit, c.1))
  (List.finRange 2).flatMap (fun h => let x := s.halves[h]
    pick (sliceUnit h 0) [(0x10, x.cecnt), (0x11, x.hits), (0x12, x.misses), (0x13, x.wbacks), (0x14, x.lcreqs)]) ++
  (List.finRange 24).flatMap (fun n => let c := s.stks[n]
    pick (stackUnit n) [(0x20, c.cecnt), (0x21, c.odecc), (0x22, c.rdbytes), (0x23, c.wrbytes)]) ++
  (List.finRange 36).flatMap (fun l => let k := s.far.links[l]
    pick (linkUnit l) [(0x30, k.corr), (0x31, k.uncorr), (0x32, k.retry), (0x33, k.crcerr), (0x34, k.autherr), (0x35, k.drop), (0x36, k.rptDrop)]) ++
  (List.finRange 4).flatMap (fun e => pick (engUnit e) (s.cf.engines[e].drops.map (fun d => (d.1.val, d.2)))) ++
  (List.finRange 64).flatMap (fun i => pick (sliceUnit (Fin.ofNat 2 (i.val / 32)) 0) [(0x100 + i.val, s.weirs[i].cnt)]) ++
  pick 0x6010 [(0, s.far.ingrej), (1, s.cf.coalOvf)] ++
  pick 0xB000 [(0, s.by_.corr), (1, s.by_.uncorr), (2, s.by_.retry), (3, s.by_.crcerr), (4, s.by_.wfail)] ++
  (List.finRange 128).flatMap (fun w => pick (wellUnit w) [(0x03, s.wells[w].st.cecnt)])

/-- Baseflow looks at the counters (R457): COUNTER_WRAP where OVF has gone from 0 to 1 and BF_CTL.WRAPEV = 1; conditions that it holds
while ROLE = OFF go out after 1 s (R456). -/
def watchCounters (s : State) : State :=
  let ws := wrapped s
  let new := ws.filter (fun x => !s.bf.wrapSeen.contains x)
  let s := if bitB s.bf.ctl 4 then new.foldl (fun s x => platform x.1 0x0107 s) s else s
  let s := s.modBf (fun b => { b with wrapSeen := ws })
  if s.stg.role = 0 && !s.bf.held.isEmpty then releasePlatform s else s

end Sys2Proof.Machine
end

