-- ==== Sys2Proof/Machine/FarLink.lean ====
section
/-! DEFINITION. The Faranaor links: flits, credits and retry, training, the transmitter's slots, encryption, health and
failure (R354-R374). -/

namespace Sys2Proof.Machine

/-- Header fields of a flit (R356). -/
def fType (f : Flit) : Nat := fieldN f.hdr 60 4
def fVc (f : Flit) : Nat := fieldN f.hdr 57 3
def fSeq (f : Flit) : BitVec 12 := f.hdr.extractLsb' 45 12
def fAck (f : Flit) : BitVec 12 := f.hdr.extractLsb' 33 12
def fNak (f : Flit) : Bool := bitB f.hdr 32
def fCrvc (f : Flit) : Nat := fieldN f.hdr 29 3
def fCrn (f : Flit) : Nat := fieldN f.hdr 21 8
def fKeyslot (f : Flit) : Bool := bitB f.hdr 20
def fPstart (f : Flit) : Nat := fieldN f.hdr 14 6

/-- What the CRC of a flit covers: header and body, each in ascending byte order (R356). -/
def flitCovered (f : Flit) : List Byte := wordBytes f.hdr ++ f.body

/-- A flit that a receiver discards: uncorrectable codeword, bad CRC, or a reserved TYPE (R356). -/
def flitBad (f : Flit) : Bool := f.fecBad || f.crc != crc32c (flitCovered f) || fType f == 0 || decide (4 < fType f)

/-- A discarded or unexpected flit: one NAK is owed until the expected SEQ arrives (R358). -/
def oweNak (k : Link) : Link := if k.nakSent then k else { k with nakOwed := true, nakSent := true }

/-- An ACK passes the replayed flits before its SEQ (R358); one that names no flit of the buffer changes nothing. -/
def passAck (ack : BitVec 12) (k : Link) : Link :=
  match k.replay with
  | [] => k
  | q :: _ =>
    let n := (ack - q.seq).toNat
    if n ≤ k.replay.length then { k with replay := k.replay.drop n, resend := min k.resend (k.replay.length - n) } else k

/-- A NAK makes the sender resend from its ACK's SEQ and is counted; eight in a row for one SEQ end in RETRAIN (R358). -/
def takeNak (l : LinkId) (ack : BitVec 12) (s : State) : State :=
  let k := s.far.links[l]
  let n := if k.nakCount ≠ 0 ∧ k.nakSeq = ack then k.nakCount + 1 else 1
  let s := s.modLink l (fun k => { k with retry := countUp k.retry 1, resend := k.replay.length, nakSeq := ack, nakCount := if 8 ≤ n then 0 else n })
  if 8 ≤ n then linkRetrain l s else s

/-- Credits that a header returns (R357). -/
def takeCredits (f : Flit) (k : Link) : Link :=
  if h : fCrvc f < 5 then
    { k with credits := k.credits.set (fCrvc f) (k.credits[fCrvc f] + fCrn f),
             seen := k.seen.set (fCrvc f) (k.seen[fCrvc f] + BitVec.ofNat 16 (fCrn f)) }
  else k

/-- ACK, NAK and credits of a flit that is not discarded. -/
def takeHeader (l : LinkId) (f : Flit) (s : State) : State :=
  let s := s.modLink l (fun k => takeCredits f (passAck (fAck f) k))
  if fNak f then takeNak l (fAck f) s else s

/-- A discarded flit is counted in FB_CRCERR and NAKed (R356, R358). -/
def discardFlit (l : LinkId) (s : State) : State := s.modLink l (fun k => oweNak { k with crcerr := countUp k.crcerr 1 })

/-- Whether a link carries flits now. -/
def linkLive (s : State) (l : LinkId) : Bool := s.linkOn l && s.far.links[l].state == .active

/-! Delivery. -/

/-- A 32 B stage message in a packet (R337). -/
def stageOfBytes (bs : List Byte) : StageMsg :=
  { w0 := bytesWord (bs.take 8), w1 := bytesWord ((bs.drop 8).take 8), w2 := bytesWord ((bs.drop 16).take 8), w3 := bytesWord ((bs.drop 24).take 8) }

/-- STAGE_PACKET (R337, R356): one whose data is no whole message is discarded. -/
def takeStagePacket (p : Packet) (s : State) : State :=
  if forUs s p then (if p.data.length = 32 then takeStageMsg (stageOfBytes p.data) s else s) else transit p s

/-- STAGE_PACKET. -/
def execStagePacket (p : Packet) (s : State) : Out := .next (takeStagePacket p s)

/-- An UNREACHABLE notice names a device (R365, R371, R405): it is observed as a failure, and a member so named is lost. -/
def takeUnreachable (dev : BitVec 16) (s : State) : State := let r := s.takeFree; memberLost dev (observe dev 0x6010 0x03 (r.1.truncate 32) r.2)

/-- UNREACHABLE (R365, R371). -/
def execUnreachable (dev : BitVec 16) (s : State) : Out := .next (takeUnreachable dev s)

/-- What a MGMT packet for this device brings: a FAULT_REPORT (KIND 0x10, R405), or a notice (KIND 0x11, the model's). Group messages
arrive as the EPOCH commands. -/
def takeMgmtPacket (l : Option LinkId) (p : Packet) (s : State) : State :=
  if !forUs s p then transit p s
  else
    let w (i : Nat) : W64 := bytesWord ((p.data.drop (8 * i)).take 8)
    match fieldN (w 0) 0 8 with
    | 0x10 => if p.data.length = 32 then takeReport l #v[w 0, w 1, w 2, w 3] s else s
    | 0x11 => takeUnreachable ((w 0).extractLsb' 24 16) s
    | _ => s

/-- MGMT_PACKET (R365, R405). -/
def execMgmtPacket (p : Packet) (s : State) : Out := .next (takeMgmtPacket none p s)

/-- A packet that has arrived whole on a link (R356). Rill and collective packets for this device arrive as their own commands; a
reserved KIND is dropped and counted. -/
def deliverPacket (l : LinkId) (p : Packet) (s : State) : State :=
  match pKind p with
  | 1 | 2 | 3 => if forUs s p then takeAccess s (if l.val < 18 then 0 else 1, p) else transit p s
  | 4 => if forUs s p then takeResp p s else transit p s
  | 5 => if forUs s p then s else transit p s
  | 6 => takeStagePacket p s
  | 7 => takeMgmtPacket (some l) p s
  | 8 => if forUs s p then s else transit p s
  | _ => s.modLink l (fun k => { k with drop := countUp k.drop 1 })

/-- Bytes of data that follow a packet header: LEN, but none in a READ (R356). -/
def dataLen (w0 w1 : W64) : Nat := if fieldN w0 60 4 = 1 then 0 else fieldN w1 54 10

/-- Length rounded up to the 4 B unit of PSTART. -/
def pad4 (n : Nat) : Nat := (n + 3) / 4 * 4

/-- The whole packets at the front of a byte stream, and the bytes of a packet that has begun. Zeros after the last packet fill the
body (KIND 0 is no packet). The Nat bounds the packets of one body. -/
def deframe : Nat → List Byte → List Packet × List Byte
  | 0, bs => ([], bs)
  | n + 1, bs =>
    if bs.all (· == 0) then ([], [])
    else if bs.length < 8 then ([], bs)
    else
      let w0 := bytesWord (bs.take 8)
      if fieldN w0 60 4 = 0 then ([], [])
      else if bs.length < 16 then ([], bs)
      else
        let w1 := bytesWord ((bs.drop 8).take 8)
        let len := dataLen w0 w1
        if bs.length < 16 + len then ([], bs)
        else
          let r := deframe n (bs.drop (16 + pad4 len))
          ({ w0 := w0, w1 := w1, data := (bs.drop 16).take len } :: r.1, r.2)

/-- A body accepted on a virtual channel is deframed and its packets delivered in order; its buffer is free at once (R356, R357). -/
def acceptBody (l : LinkId) (v : Fin 5) (pstart : Nat) (body : List Byte) (s : State) : State :=
  let held := s.far.links[l].rxRem[v]
  let bs := if held.isEmpty then (if pstart = 63 then [] else body.drop (4 * pstart)) else held ++ body
  let r := deframe 64 bs
  let s := s.modLink l (fun k => { k with rxRem := k.rxRem.set v r.2, owed := k.owed.set v (k.owed[v] + 1) })
  r.1.foldl (fun s p => deliverPacket l p s) s

/-- The nonce of R369. -/
def linkNonce (salt : BitVec 32) (n : Nat) : BitVec 96 := salt ++ BitVec.ofNat 64 n

/-- The plain body of a received DATA flit: itself on a plain link; on an encrypted one what the receive slot named by KEYSLOT
opens (R369). -/
def openBody (k : Link) (f : Flit) : Option (List Byte) :=
  if !k.enc then some f.body
  else match k.keys[if fKeyslot f then (3 : Fin 4) else 2] with
    | none => none
    | some x => Config.gcmOpen x.key (linkNonce x.salt k.extRx) (wordBytes f.hdr) f.body

/-- DATA_FLIT (R356, R358, R369). -/
def execDataFlit (l : LinkId) (f : Flit) (s : State) : Out :=
  .next (
    let k := s.far.links[l]
    if !linkLive s l then s
    else if flitBad f then discardFlit l s
    else if fType f ≠ 1 then s
    else if fSeq f ≠ k.expSeq then s.modLink l oweNak
    else match openBody k f with
    | none =>
      let s := s.modLink l (fun k => oweNak { k with autherr := countUp k.autherr 1, authRun := k.authRun + 1 })
      if 16 ≤ k.authRun + 1 then linkDown l 8 s else s
    | some body =>
      let s := s.modLink l (fun k => { k with expSeq := k.expSeq + 1, nakSent := false, nakOwed := false, authRun := 0, extRx := k.extRx + 1 })
      let s := takeHeader l f s
      if h : fVc f < 5 then acceptBody l ⟨fVc f, h⟩ (fPstart f) body s
      else s.modLink l (fun k => { k with drop := countUp k.drop 1 }))

/-- An IDLE or MAINT flit shows the SEQ of the next DATA flit: another than the expected one means a lost flit (R356, R358). -/
def checkSeq (l : LinkId) (f : Flit) (s : State) : State := s.modLink l (fun k => if fSeq f = k.expSeq then k else oweNak k)

/-- IDLE_FLIT (R357). -/
def execIdleFlit (l : LinkId) (f : Flit) (s : State) : Out :=
  .next (
    if !linkLive s l then s
    else if flitBad f then discardFlit l s
    else if fType f ≠ 2 then s
    else takeHeader l f (checkSeq l f s))

/-- Credits held, after a cumulative count modulo 2^16 shows that more or fewer have been returned than were counted (R357). -/
def correctedBy (held : Nat) (seen count : BitVec 16) : Nat := ((held : Int) + (count - seen).toInt).toNat

/-- The credit state is corrected from the peer's cumulative count of a virtual channel (R357): up for credits on a discarded flit, down for
those that a resent flit has brought once more. -/
def correctCredit (k : Link) (v : Fin 5) (count : BitVec 16) : Link :=
  { k with credits := k.credits.set v (correctedBy k.credits[v] k.seen[v] count), seen := k.seen.set v count }

/-- MAINT_FLIT (R357, R369): counts of each virtual channel, and the transmit slot that the peer confirms. A link in its KEY step
takes the confirmation alone. -/
def execMaintFlit (l : LinkId) (f : Flit) (counts : Vector (BitVec 16) 8) (keyReady : Option Bool) (s : State) : Out :=
  .next (
    let k := s.far.links[l]
    let confirm (k : Link) : Link := match keyReady with
      | some b =>
        let i : Fin 2 := if b then 1 else 0
        { k with peerReady := k.peerReady.set i true }
      | none => k
    if !s.linkOn l then s
    else if k.state == .active then
      if flitBad f then discardFlit l s
      else if fType f ≠ 3 then s
      else
        let s := takeHeader l f (checkSeq l f s)
        s.modLink l (fun k => confirm ((List.finRange 5).foldl (fun k (v : Fin 5) => correctCredit k v counts[v.castLE (by omega : 5 ≤ 8)]) k))
    else if (k.state == .training || k.state == .retrain) && k.step == 4 then
      if flitBad f then s.modLink l (fun k => { k with crcerr := countUp k.crcerr 1 })
      else if fType f = 3 then s.modLink l confirm else s
    else s)

/-! Training (R359-R361). -/

/-- What training starts from: the credits of FB_VCCRED (R357) and empty buffers. -/
def Link.fresh (k : Link) : Link :=
  { k with
    state := .training
    step := 0
    reason := 0
    peerTrain := none
    enc := false
    keyslot := false
    nextSeq := 0
    expSeq := 0
    nakOwed := false
    nakSent := false
    nakSeq := 0
    nakCount := 0
    replay := []
    resend := 0
    credits := #v[8 * (k.cred.extractLsb' 0 8).toNat, 8 * (k.cred.extractLsb' 8 8).toNat, 8 * (k.cred.extractLsb' 16 8).toNat,
                  8 * (k.cred.extractLsb' 24 8).toNat, 8 * (k.cred.extractLsb' 32 8).toNat]
    returned := Vector.replicate 5 0
    seen := Vector.replicate 5 0
    owed := Vector.replicate 5 0
    txRem := Vector.replicate 5 (0, [])
    rxRem := Vector.replicate 5 []
    authRun := 0
    retrainDue := false
    extTx := 0
    extRx := 0
    keyReq := false
    peerReady := Vector.replicate 2 false }

/-- A link begins TRAINING (R359). -/
def startTraining (l : LinkId) (s : State) : State := if s.linkOn l then s.modLink l Link.fresh else s

/-- Failure of training or retraining (R359): RETRAIN has its one reason. -/
def failTraining (l : LinkId) (reason : BitVec 4) (s : State) : State :=
  linkDown l (if s.far.links[l].state = .retrain then 9 else reason) s

/-- The body of a TRAIN flit of this device (R360). -/
def trainBody (s : State) (l : LinkId) : List Byte :=
  [1, 0] ++ toBytes 2 s.far.cfgId.toNat ++ [BitVec.ofNat 8 l.val, if s.far.links[l].encReq then 1 else 0, 0, 0] ++ wordBytes 1 ++
    toBytes 4 s.far.fabric.toNat ++ List.replicate 224 0

/-- A flit from its header and body, with its CRC. -/
def sealFlit (hdr : W64) (body : List Byte) : Flit :=
  { hdr := hdr, body := body, crc := crc32c (wordBytes hdr ++ body), fecBad := false }

/-- The link reaches ACTIVE (R358, R361): a retrained link resends from the last ACK, and the first link after FB_FABCFG was written
assigns DEVICE_ID. -/
def linkUp (l : LinkId) (s : State) : State :=
  let s := s.modLink l (fun k => { k with state := .active, reason := 0, resend := k.replay.length })
  if s.far.cfgNew then { s with devValid := true, devId := s.far.cfgId, far := { s.far with cfgNew := false } } else s

/-- TRAINING_STEP_COMPLETE (R359): OPTICAL finishes with received power of at least -12 dBm only; EXCHANGE finishes once the peer's TRAIN flit has passed its checks, KEY once every slot is loaded
and confirmed. -/
def execTrainingStepComplete (l : LinkId) (bias txpwr rxpwr : BitVec 16) (s : State) : Out :=
  .next (
    let k := s.far.links[l]
    if !s.linkOn l || !(k.state == .training || k.state == .retrain) then s
    else match k.step with
    | 0 => if rxpwr.toInt < -1200 then s else s.modLink l (fun k => { k with step := 1, bias := bias, bias0 := bias, txpwr := txpwr, rxpwr := rxpwr })
    | 1 => s.modLink l (fun k => { k with step := 2 })
    | 2 => s.modLink l (fun k => { k with step := 3, peerTrain := none, out := some (sealFlit (putN 60 4 ||| putN 14 63 ||| putN 45 k.nextSeq.toNat) (trainBody s l)) })
    | 3 => (match k.peerTrain with
      | none => s
      | some p =>
        if k.encReq && p.1 then s.modLink l (fun k => { k with step := 4, enc := true })
        else linkUp l (s.modLink l (fun k => { k with enc := false })))
    | 4 => if k.keys.toList.all (·.isSome) && k.peerReady.toList.all (· == true) then linkUp l s else s)

/-- TRAINING_STEP_TIMEOUT (R359): DOWN with the reason of the step; REASON has no code for a time out of EXCHANGE or KEY, so that
code is free. -/
def execTrainingStepTimeout (l : LinkId) (s : State) : Out :=
  .next (
    let k := s.far.links[l]
    if !(k.state == .training || k.state == .retrain) then s
    else if k.step.val < 3 then failTraining l (BitVec.ofNat 4 (k.step.val + 1)) s
    else let r := s.takeFree; failTraining l (r.1.truncate 4) r.2)

/-- TRAIN_FLIT (R360, R361). -/
def execTrainFlit (l : LinkId) (f : Flit) (s : State) : Out :=
  .next (
    let k := s.far.links[l]
    let b (i : Nat) : Byte := f.body.getD i 0
    let n (i len : Nat) : Nat := ofBytes ((f.body.drop i).take len)
    if !s.linkOn l || !(k.state == .training || k.state == .retrain) || k.step != 3 then s
    else if flitBad f then s.modLink l (fun k => { k with crcerr := countUp k.crcerr 1 })
    else if fType f ≠ 4 then s
    else
      let encReq := (b 5).getLsbD 0
      let feature := (b 8).getLsbD 0
      let fabric := BitVec.ofNat 32 (n 16 4)
      let s := s.modLink l (fun k => { k with peerMaj := b 0, peerMin := b 1, peerId := BitVec.ofNat 16 (n 2 2), peerLink := b 4 })
      if b 0 ≠ 1 then failTraining l 4 s
      else if fabric ≠ s.far.fabric then failTraining l 5 s
      else if BitVec.ofNat 16 (n 2 2) = s.far.cfgId then failTraining l 6 s
      else if (k.encReq || encReq) && !(k.encReq && encReq && feature) then failTraining l 7 s
      else s.modLink l (fun k => { k with peerTrain := some (encReq, feature, fabric) }))

/-- LINK_RETRY_TIMER (R359, R374): a RETRY_MS of 0 means no retraining. -/
def execLinkRetryTimer (l : LinkId) (s : State) : Out :=
  .next (if s.far.links[l].state = .down ∧ s.far.links[l].retryMs ≠ 0 then startTraining l s else s)

/-- FB_LCTL.CMD TRAIN: from DISABLED or DOWN. -/
def cmdTrain (l : LinkId) (s : State) : State :=
  if s.far.links[l].state = .disabled ∨ s.far.links[l].state = .down then startTraining l s else s

/-- FB_LCTL.CMD DISABLE: laser off, buffers dropped, and the accesses that wait on the link fail (R359, R365). -/
def cmdDisable (l : LinkId) (s : State) : State :=
  failLink l (s.modLink l (fun k => { k with state := .disabled, reason := 0, replay := [], resend := 0, txq := Vector.replicate 5 [],
                                             txRem := Vector.replicate 5 (0, []), rxRem := Vector.replicate 5 [] }))

/-- FB_LCTL_TRAIN (R374). -/
def execFbLctlTrain (l : LinkId) (s : State) : Out := .next (cmdTrain l s)
/-- FB_LCTL_DISABLE (R374). -/
def execFbLctlDisable (l : LinkId) (s : State) : Out := .next (cmdDisable l s)
/-- FB_LCTL_RETRAIN (R374). -/
def execFbLctlRetrain (l : LinkId) (s : State) : Out := .next (linkRetrain l s)

/-- RETRY_TIMEOUT (R358): 20 us with unacknowledged flits and no progress of ACK. -/
def execRetryTimeout (l : LinkId) (s : State) : Out := .next (if s.far.links[l].replay.isEmpty then s else linkRetrain l s)

/-! Routes and health (R365, R370, R371). -/

/-- The accesses and the group members that a lost link leaves without a usable candidate (R365, R371). -/
def loseRoutes (s : State) : State :=
  let s := loseAccesses s
  let members := (s.far.groups.toList.filter (fun g => g.inUse && g.master == s.devId)).flatMap (·.members)
  (members.eraseDups.filter (fun d => d != s.devId && (!bitB (routeWord s d) 63 || (usable s d).isEmpty))).foldl (fun s d => memberLost d s) s

/-- ROUTE_REMOVE (R365, R371): the fabric cores take a link that is not ACTIVE out of every entry. While it retrains, its accesses wait in
the replay buffer. -/
def execRouteRemove (l : LinkId) (s : State) : Out :=
  .next (
    if s.far.links[l].state = .active then s
    else
      let s := s.modFar (fun x => { x with removed := x.removed ||| BitVec.ofNat 36 (2 ^ l.val) })
      if s.far.links[l].state = .retrain then s else loseRoutes s)

/-- ROUTE_RESTORE (R365). -/
def execRouteRestore (l : LinkId) (s : State) : Out :=
  .next (if s.far.links[l].state = .active then s.modFar (fun x => { x with removed := x.removed &&& ~~~(BitVec.ofNat 36 (2 ^ l.val)) }) else s)

/-- DEGRADED rises, with its event; the fabric cores retrain the link when its traffic allows (R370). -/
def degrade (l : LinkId) (s : State) : State :=
  if s.far.links[l].degraded then s
  else observe s.devId (linkUnit l) 0x02 (BitVec.ofNat 32 l.val) (s.modLink l (fun k => { k with degraded := true, retrainDue := true }))

/-- LINK_HEALTH_CHECK (R370): symbols received and corrected, uncorrectable codewords in 1 s, power in 0.01 dBm, bias in 10 uA. -/
def execLinkHealthCheck (l : LinkId) (received corrected uncorrectable : Nat) (rxpwr bias : BitVec 16) (s : State) : Out :=
  .next (
    if !linkLive s l then s
    else
      let s := s.modLink l (fun k => { k with corr := countUp k.corr corrected, uncorr := countUp k.uncorr uncorrectable, rxpwr := rxpwr, bias := bias })
      let s := if received < corrected * 100000 ∨ 10 < uncorrectable ∨ rxpwr.toInt < -900 then degrade l s else s
      let b0 := s.far.links[l].bias0.toNat
      let s := if b0 ≠ 0 ∧ 5 * b0 ≤ 4 * bias.toNat then observe s.devId (linkUnit l) 0x08 (BitVec.ofNat 32 l.val) s else s
      if rxpwr.toInt < -1200 then linkRetrain l s else s)

/-- LOSS_OF_SIGNAL (R370). -/
def execLossOfSignal (l : LinkId) (s : State) : Out := .next (linkRetrain l s)

/-- Flits sent under the key of the transmit slot in use (R369). -/
def keyUse (slot : Bool) (n : Vector Nat 2) : Nat := n[if slot then (1 : Fin 2) else 0]

/-- KEY_CHANGE_REQUEST (R369): the fabric cores ask for a new key at 2^39 flits. -/
def execKeyChangeRequest (l : LinkId) (s : State) : Out :=
  .next (s.modLink l (fun k => if k.enc && decide (2 ^ 39 ≤ keyUse k.keyslot k.keyFlits) then { k with keyReq := true } else k))

/-- KEYEXH (R369): at 2^40 flits no further DATA flit goes out, and the reason says so; the link stays ACTIVE. -/
def execKeyexh (l : LinkId) (s : State) : Out :=
  .next (s.modLink l (fun k => if k.enc && k.state == .active && decide (2 ^ 40 ≤ keyUse k.keyslot k.keyFlits) then { k with reason := 10 } else k))

/-! The transmitter (R355, R357, R362, R363). -/

/-- Bytes of what waits for a virtual channel, each padded to 4 B. A Rill packet's data layout is the model's. -/
def itemBytes (dev : BitVec 16) : TxItem → List Byte
  | .packet p => wordBytes p.w0 ++ wordBytes p.w1 ++ p.data ++ List.replicate (pad4 p.data.length - p.data.length) 0
  | .rill dst m =>
    let data := wordBytes (putN 0 m.group.toNat ||| putN 16 m.attempt.toNat ||| putB 24 m.down ||| putN 32 m.epoch.toNat) ++
      wordBytes m.stage ++ wordBytes (putN 32 m.round ||| w64 m.fromRank) ++ m.lanes.flatMap wordBytes
    wordBytes (putN 60 5 ||| putN 52 1 ||| putN 36 dev.toNat ||| putN 20 dst.toNat) ++ wordBytes (putN 54 (data.length % 1024)) ++ data

/-- What waits on a virtual channel for a basin, or for any: the rest of a packet under way comes first. -/
def waits (k : Link) (v : Fin 5) (b : Option (Fin 4)) : Bool :=
  if k.txRem[v].2.isEmpty then k.txq[v].any (fun x => b.isNone || b == some x.1) else b.isNone || b == some k.txRem[v].1

/-- Items taken from a queue until the room is filled: bytes taken and the items left. An item is started only with room for its
16 B header. -/
def fillBody (dev : BitVec 16) (b : Option (Fin 4)) : Nat → Nat → List (Fin 4 × TxItem) → List Byte × List (Fin 4 × TxItem) × (Fin 4 × List Byte)
  | 0, _, q => ([], q, (0, []))
  | n + 1, room, q =>
    if room < 16 then ([], q, (0, []))
    else match q.find? (fun x => b.isNone || b == some x.1) with
    | none => ([], q, (0, []))
    | some x =>
      let bs := itemBytes dev x.2
      let q := removeFirst (fun y => y == x) q
      if room ≤ bs.length then (bs.take room, q, (x.1, bs.drop room))
      else
        let r := fillBody dev b n (room - bs.length) q
        (bs ++ r.1, r.2.1, r.2.2)

/-- Credits and ACK that the next header carries, and the link after it. -/
def headerOut (k : Link) : W64 × Link :=
  let v : Fin 5 := Fin.ofNat 5 ((findBelow 5 (fun i => decide (0 < k.owed[Fin.ofNat 5 i]))).getD 0)
  let n := min 255 k.owed[v]
  (putN 45 k.nextSeq.toNat ||| putN 33 k.expSeq.toNat ||| putB 32 k.nakOwed ||| putN 29 v.val ||| putN 21 n,
   { k with owed := k.owed.set v (k.owed[v] - n), returned := k.returned.set v (k.returned[v] + BitVec.ofNat 16 n), nakOwed := false })

/-- A key change takes effect at a DATA flit once the peer has confirmed the other slot, whose key is new (R369). -/
def flipKey (k : Link) : Link :=
  let other : Fin 2 := if k.keyslot then 0 else 1
  if k.enc && k.keyReq && k.peerReady[other] && k.keyFlits[other] == 0 && (k.keys[other.castLE (by omega : 2 ≤ 4)]).isSome then
    { k with keyslot := !k.keyslot, keyReq := false, reason := 0 }
  else k

/-- One more flit under the key in use. -/
def countKey (slot : Bool) (n : Vector Nat 2) : Vector Nat 2 :=
  let i : Fin 2 := if slot then 1 else 0
  n.set i (n[i] + 1)

/-- A DATA flit of a virtual channel goes out: it uses a credit and stays in the replay buffer (R357, R358). -/
def sendData (dev : BitVec 16) (v : Fin 5) (b : Option (Fin 4)) (k : Link) : Link :=
  let k := flipKey k
  let room := if k.enc then 228 else 244
  let rem := k.txRem[v]
  let head := rem.2.take room
  let r := if rem.2.length < room then fillBody dev b 64 (room - rem.2.length) k.txq[v] else ([], k.txq[v], (rem.1, rem.2.drop room))
  let pstart := if r.1.isEmpty then 63 else head.length / 4
  let plain := head ++ r.1
  let plain := plain ++ List.replicate (room - plain.length) 0
  let h := headerOut k
  let hdr := putN 60 1 ||| putN 57 v.val ||| h.1 ||| putB 20 k.keyslot ||| putN 14 pstart
  let body := if k.enc then
      (match k.keys[if k.keyslot then (1 : Fin 4) else 0] with
        | some x => Config.gcmSeal x.key (linkNonce x.salt k.extTx) (wordBytes hdr) plain
        | none => plain ++ List.replicate 16 0)
    else plain
  let f := sealFlit hdr body
  { h.2 with nextSeq := k.nextSeq + 1, extTx := k.extTx + 1, keyFlits := countKey k.keyslot k.keyFlits, credits := k.credits.set v (k.credits[v] - 1),
             txq := k.txq.set v r.2.1, txRem := k.txRem.set v r.2.2, replay := k.replay ++ [{ seq := k.nextSeq, flit := f }], out := some f }

/-- Whether a virtual channel has data, a credit and room in the replay buffer. -/
def vcReady (k : Link) (b : Option (Fin 4)) (v : Fin 5) : Bool :=
  waits k v b && decide (0 < k.credits[v]) && decide (k.replay.length < 512) && !(k.enc && decide (2 ^ 40 ≤ keyUse k.keyslot k.keyFlits) && (flipKey k).keyslot == k.keyslot)

/-- Weight of VC1-VC3; 0 is treated as 1 (R362). -/
def vcWeight (k : Link) (i : Fin 3) : Nat := max 1 (if i = 0 then k.w1 else if i = 1 then k.w2 else k.w3).toNat

/-- Deficit round robin over VC1-VC3 (R362): the channel chosen, with the deficits after it. A round begins when no ready channel
has any left. -/
def drr (k : Link) (b : Option (Fin 4)) : Option (Fin 5) × Link :=
  let ready := (List.finRange 3).filter (fun i => vcReady k b (i.succ.castLE (by omega : 4 ≤ 5)))
  let k := if ready.any (fun i => decide (0 < k.deficit[i])) then k
    else { k with deficit := Vector.ofFn (fun i => if ready.contains i then vcWeight k i else 0) }
  match ready.find? (fun i => decide (0 < k.deficit[i])) with
  | some i => (some (i.succ.castLE (by omega : 4 ≤ 5)), { k with deficit := k.deficit.set i (k.deficit[i] - 1) })
  | none => (none, k)

/-- The basin that R363 lets send in this slot, one body of 244 B, after the buckets are filled: first by floor, then by ceiling. -/
def weirSlot (k : Link) : Option (Fin 4) × Link :=
  let fill (w : Weir) : Weir :=
    let cap := 256 * 16 * (max 1 w.depth.toNat) * 244
    if w.en then { w with fl := min (w.fl + w.floor.toNat * 244) cap, ce := min (w.ce + w.ceil.toNat * 244) cap } else w
  let k := { k with weirs := k.weirs.map fill }
  let turn := (([0, 1, 2, 3] : List (Fin 4)).map (fun i => k.weirRr + i)).filter (fun b => k.weirs[b].en)
  let ready (b : Fin 4) : Bool := (List.finRange 3).any (fun i => vcReady k (some b) (i.succ.castLE (by omega : 4 ≤ 5)))
  let cost := 256 * 244
  let pick (floors : Bool) : Option (Fin 4) := turn.find? (fun b =>
    ready b && decide (cost ≤ k.weirs[b].ce) && (!floors || decide (cost ≤ k.weirs[b].fl)))
  let take (floors : Bool) (b : Fin 4) : Link :=
    let w := k.weirs[b]
    let w : Weir := { w with ce := w.ce - cost, fl := if floors then w.fl - cost else w.fl, cnt := countUp w.cnt 4 }
    { k with weirs := k.weirs.set b w }
  let next (k : Link) : Link := { k with weirRr := ((([1, 2, 3, 0] : List (Fin 4)).map (fun i => k.weirRr + i)).find? (fun b => k.weirs[b].en)).getD k.weirRr }
  match pick true with
  | some b => (some b, next (take true b))
  | none => match pick false with
    | some b => (some b, next (take false b))
    | none => (none, next k)

/-- An IDLE flit (R356). -/
def sendIdle (k : Link) : Link :=
  let h := headerOut k
  { h.2 with out := some (sealFlit (putN 60 2 ||| h.1 ||| putN 14 63) (List.replicate 244 0)) }

/-- The receive slots that are loaded, as a MAINT flit confirms them (R369). -/
def loadedSlots (keys : Vector (Option LinkKey) 4) : Byte := (if keys[2].isSome then 1 else 0) + (if keys[3].isSome then 2 else 0)

/-- A MAINT flit (R355, R357, R369): the cumulative credits returned per virtual channel, and the key slots that are loaded. Its body's layout
is the model's. -/
def sendMaint (k : Link) : Link :=
  let h := headerOut k
  let body := (h.2.returned.toList.flatMap (fun c => toBytes 2 c.toNat)) ++ List.replicate 6 0 ++ [loadedSlots k.keys] ++ List.replicate 227 0
  { h.2 with sinceMaint := 0, out := some (sealFlit (putN 60 3 ||| h.1 ||| putN 14 63) body) }

/-- A slot of the 256-flit window has passed (R362). -/
def countSlot (k : Link) : Link :=
  if 256 ≤ k.winCount + 1 then { k with winCount := 0, win0 := 0, win4 := 0 } else { k with winCount := k.winCount + 1 }

/-- Choice of a slot after MAINT and resends: VC0 and VC4 under their caps, VC1-VC3, else IDLE (R362, R363). -/
def chooseSlot (basins : Bool) (dev : BitVec 16) (k : Link) : Link :=
  let weighted := (List.finRange 3).any (fun i => waits k (i.succ.castLE (by omega : 4 ≤ 5)) none)
  if vcReady k none 0 && (decide (k.win0 < k.cap0.toNat) || !weighted) then sendData dev 0 none { k with win0 := k.win0 + 1 }
  else if vcReady k none 4 && (decide (k.win4 < k.cap4.toNat) || !weighted) then sendData dev 4 none { k with win4 := k.win4 + 1 }
  else
    let w := if basins then weirSlot k else (none, k)
    if basins && w.1.isNone then sendIdle w.2
    else match drr w.2 w.1 with
      | (some v, k) => sendData dev v w.1 k
      | (none, k) => sendIdle k

/-- Whether nothing waits on a link or is unacknowledged. -/
def quiet (k : Link) : Bool := k.replay.isEmpty && k.txq.toList.all (·.isEmpty) && k.txRem.toList.all (·.2.isEmpty)

/-- FLIT_SLOT (R355, R362): what a link's transmitter sends in one slot. In the KEY step that is MAINT flits, which confirm its slots (R369).
A degraded link retrains once no traffic waits (R370). -/
def execFlitSlot (l : LinkId) (s : State) : Out :=
  .next (
    let k := s.far.links[l]
    if s.linkOn l && (k.state == .training || k.state == .retrain) && k.step == 4 then s.modLink l sendMaint
    else if !linkLive s l then s
    else if k.retrainDue && quiet k then linkRetrain l s
    else s.modLink l (fun k =>
      if 511 ≤ k.sinceMaint then sendMaint (countSlot k)
      else
        let k : Link := { countSlot k with sinceMaint := k.sinceMaint + 1 }
        if k.resend ≠ 0 then
          { k with out := ((k.replay[k.replay.length - k.resend]?).map (·.flit)), resend := k.resend - 1 }
        else chooseSlot (s.basinMode != 0) s.devId k))

end Sys2Proof.Machine
end

