-- ==== Sys2Proof/Machine/Byvor.lean ====
section
/-! DEFINITION. The Byvor Host Link: flits, training, credits, the ordered stream to the host, memory windows and loss
(R470-R493). -/

namespace Sys2Proof.Machine

/-- Unit ID of the link (R32, R470). -/
def byUnit : BitVec 16 := 0xB000

/-- Header fields of a Byvor flit (R476). -/
def bType (f : ByFlit) : Nat := (f.hdr.extractLsb' 30 2).toNat
def bSeq (f : ByFlit) : BitVec 11 := f.hdr.extractLsb' 19 11
def bAck (f : ByFlit) : BitVec 11 := f.hdr.extractLsb' 8 11
def bNak (f : ByFlit) : Bool := f.hdr.getLsbD 7
def bKeyslot (f : ByFlit) : Bool := f.hdr.getLsbD 6
def bPstart (f : ByFlit) : Nat := (f.hdr.extractLsb' 1 5).toNat

/-- A flit that is discarded and counted in BY_CRCERR (R477). -/
def byBad (f : ByFlit) : Bool := f.fecBad || f.crc != crc32c (toBytes 4 f.hdr.toNat ++ f.body)

/-- Whether the domain and REFCLK_B are there (R470, R503), and whether the link carries flits. -/
def byOn (s : State) : Bool := s.domain 41 && !s.pw.refBLost
def byLive (s : State) : Bool := byOn s && s.by_.state == .active

/-- A NAK is owed until the expected SEQ arrives (R358, R477). -/
def byOwe (b : ByLink) : ByLink := if b.nakSent then b else { b with nakOwed := true, nakSent := true }

/-- A discarded flit. -/
def byDiscard (s : State) : State := s.modBy (fun b => byOwe { b with crcerr := countUp b.crcerr 1 })

/-- RETRAIN from SIGNAL with the replay state kept (R472, R477). -/
def byRetrain (s : State) : State := s.modBy (fun b => if b.state = .active then { b with state := .retrain, step := 0 } else b)

/-- The link leaves ACTIVE for good (R491): partly received packets, unsent responses and the replay buffer are dropped. What was
received whole stays. -/
def byDrop (b : ByLink) : ByLink :=
  { b with replay := [], resend := 0, txRem := [], rxRem := [], resps := [], downSeen := b.downSeen || b.state == .active || b.state == .retrain,
           held := b.held.filter (fun h => match h with | .read .. => false | _ => true) }

/-- The link is lost, and goes on in a state of `f`'s: the window reads that waited at a weir ask nothing of it any more (R318). -/
def byLost (f : ByLink → ByLink) (s : State) : State :=
  s.by_.held.foldl (fun s h => match h with | .read _ _ tag => dropWeirs (.host (some tag)) s | _ => s) (s.modBy (fun b => f (byDrop b)))

/-- DOWN with its reason (R472); RETRAIN has its one reason. -/
def byDown (reason : BitVec 4) (s : State) : State :=
  byLost (fun b => { b with state := .down, reason := if s.by_.state = .retrain then 8 else reason, width := 0, downs := b.downs + 1 }) s

/-- An ACK passes the replayed flits before its SEQ (R477). -/
def byPassAck (ack : BitVec 11) (b : ByLink) : ByLink :=
  match b.replay with
  | [] => b
  | q :: _ =>
    let n := (ack - q.1).toNat
    if n ≤ b.replay.length then { b with replay := b.replay.drop n, resend := min b.resend (b.replay.length - n) } else b

/-- ACK and NAK of a flit that is not discarded (R477). -/
def byHeader (f : ByFlit) (s : State) : State :=
  let s := s.modBy (byPassAck (bAck f))
  if !bNak f then s
  else
    let b := s.by_
    let n := if b.nakCount ≠ 0 ∧ b.nakSeq = bAck f then b.nakCount + 1 else 1
    let s := s.modBy (fun b => { b with retry := countUp b.retry 1, resend := b.replay.length, nakSeq := bAck f, nakCount := if 8 ≤ n then 0 else n })
    if 8 ≤ n then byRetrain s else s

/-! Memory windows (R483-R485). -/

/-- The valid window that covers an aperture offset (R483). -/
def windowAt (s : State) (off : Nat) : Option (Fin 16) :=
  (List.finRange 16).find? (fun i =>
    let w := s.by_.windows[i]
    bitB w.w2 63 && decide (fieldN w.w2 0 40 ≤ off ∧ off + fieldN w.w0 0 44 ≤ fieldN w.w2 0 40 + fieldN w.w1 0 44))

/-- Status of R484 for a local refusal. -/
def windowStatus (st : BitVec 8) : BitVec 8 :=
  if st = stUnmapped then 1 else if st = stDomainOff then 3 else if st = stBankClosed ∨ st = stTileBusy then 4
  else if st = stScoreboard then 5 else 6

/-- A failed window access (R484): BY_WERR keeps the first failure, BY_WFAIL counts, WINDOW_ERROR at most once a window and second. -/
def windowFail (win : Fin 16) (addr : Nat) (st : BitVec 8) (s : State) : State :=
  let s := s.modBy (fun b => { b with
    werr := if bitB b.werr 63 then b.werr else putB 63 true ||| putN 48 st.toNat ||| putN 44 win.val ||| w64 (addr % 2 ^ 44)
    wfail := countUp b.wfail 1 })
  let due : Bool := match s.by_.winTimes[win] with | none => true | some t => decide (t.toNat + 1000000000 ≤ s.stg.t.toNat)
  if (due == true) = true then platform byUnit 0x0203 (s.modBy (fun b => { b with winTimes := b.winTimes.set win (some s.stg.t) })) else s

/-- Outcome of a window access before the bytes move. -/
inductive WinRes where
  | bad (win : Fin 16) (addr : Nat) (status : BitVec 8)
  | ok (win : Fin 16) (pa : Nat)
  deriving DecidableEq, Repr

/-- The checks of R484. -/
def windowCheck (s : State) (write : Bool) (off n : Nat) : WinRes :=
  match windowAt s off with
  | none => if n = 0 ∨ 512 < n ∨ 4096 < off % 4096 + n then .bad 0 off 7 else .bad 0 off 1
  | some i =>
    let w := s.by_.windows[i]
    let pa := fieldN w.w0 0 44 + (off - fieldN w.w2 0 40)
    if n = 0 ∨ 512 < n ∨ 4096 < off % 4096 + n then .bad i pa 7
    else if !(bitB w.w2 (if write then 62 else 61)) then .bad i pa 2
    else match outsideRefusal s pa n with
      | some st => .bad i pa (windowStatus st)
      | none => (match placeOf pa with
          | .stack _ | .scratch _ => .ok i pa
          | .well _ o => if o < 0x700000 then .ok i pa else .bad i pa 1
          | _ => .bad i pa 1)

/-- A WRESP (R478, R479). -/
def wresp (tag : BitVec 12) (st : BitVec 8) (unc : Bool) (off : W64) (data : List Byte) (s : State) : State :=
  let w0 := putN 60 9 ||| putN 44 tag.toNat ||| putN 34 data.length ||| putN 26 st.toNat ||| putB 25 unc
  s.modBy (fun b => { b with resps := b.resps ++ [wordBytes w0 ++ wordBytes off ++ data] })

/-- The committed bytes of a range (R429): the pre-image where a chunk is captured. -/
def committed (s : State) (pa : Nat) (bs : List Byte) : List Byte :=
  (List.range bs.length).zip bs |>.map (fun x =>
    let a := pa + x.1
    match chunkJob s (a / 4096) with
    | none => x.2
    | some k => if s.jobs[k].captured.contains (a / 4096) then
        ((s.jobs[k].log.find? (fun c => c.1 == a / 4096)).bind (fun c => c.2[a % 4096]?)).getD x.2 else x.2)

/-- Whether a byte of a range lies in a captured chunk (R429). -/
def uncommitted (s : State) (pa n : Nat) : Bool :=
  (chunksOf pa n).any (fun c => match chunkJob s c with | some k => s.jobs[k].captured.contains c | none => false)

/-- Credits of the window write buffer go back (R481 class 6). -/
def writeAccepted (n : Nat) (b : ByLink) : ByLink := { b with owed := b.owed.set 6 (b.owed[6] + (n + 63) / 64) }

/-- A window access crosses IO0's bridge, or waits at its weirs under the window's basin (R318). -/
def hostCross (i : Fin 16) (tag : Option (BitVec 12)) (pa n : Nat) (in_ : Bool) (s : State) : Bool × State :=
  weirCross (.host tag) ((ioNeed 0 (halfOfPlace s.basinMode pa) in_).map (fun p =>
    { path := p, basin := Fin.ofNat 4 (fieldN s.by_.windows[i].w2 58 2), bytes := n })) s

/-- A window write takes effect (R484), or its chunk's capture (R428) or a weir (R318) holds it: false then. -/
def windowWrite (off : W64) (data : List Byte) (s : State) : Bool × State :=
  match windowCheck s true off.toNat data.length with
  | .bad i a st => (true, (windowFail i a st s).modBy (writeAccepted data.length))
  | .ok i pa =>
    let c := captureFor pa data.length s
    if c.1 then (false, c.2)
    else
      let c := hostCross i none pa data.length false c.2
      if !c.1 then (false, c.2) else (true, (writeEnd pa data c.2).modBy (writeAccepted data.length))

/-- A window read is answered (R484, R485); false while a capture or a weir holds it. -/
def windowRead (off : W64) (len : BitVec 10) (tag : BitVec 12) (s : State) : Bool × State :=
  match windowCheck s false off.toNat len.toNat with
  | .bad i a st => (true, wresp tag st false off [] (windowFail i a st s))
  | .ok i pa =>
    let c := if captureHeld s pa len.toNat then (false, s) else hostCross i (some tag) pa len.toNat true s
    if !c.1 then c
    else
      let r := readEnd false 5 pa len.toNat c.2
      match r.1 with
      | .error _ => (true, wresp tag 6 false off [] (windowFail i pa 6 r.2))
      | .ok bs =>
        if bitB s.by_.windows[i].w2 60 then (true, wresp tag 0 false off (committed s pa bs) r.2)
        else
          let unc := uncommitted s pa len.toNat
          let s := r.2.modBy (fun b => if unc then { b with windows := b.windows.set i { b.windows[i] with w2 := b.windows[i].w2 ||| putB 57 true } } else b)
          (true, wresp tag 0 unc off bs s)

/-- A command arrives whole (R490): accepted by CSEQ, or discarded with its ring place given back. A code outside R413 completes
INVALID once the commands before it have run (R413). -/
def takeCmd (ring : Fin 4) (cseq : W64) (cmd : HostCmd) (s : State) : State :=
  let back (s : State) : State := s.modBy (fun b =>
    let c : Fin 7 := ⟨ring.val + 1, by omega⟩
    { b with owed := b.owed.set c (b.owed[c] + 1) })
  let last := s.hw.rings[ring].last
  if cseq.toNat ≤ last.toNat then back s
  else if cseq ≠ last + 1 then (back s).complete ring cseq hsInvalid 0
  else
    let r := s.hw.rings[ring]
    let r : HwRing := { r with last := cseq, cmds := r.cmds ++ [(cseq, cmd)] }
    refuseOthers ring (s.modHw (fun h => { h with rings := h.rings.set ring r }))

/-- A packet that the host sends waits behind an earlier window write that a capture holds (R482). -/
def behindWrite (b : ByLink) : Bool := b.held.any (fun h => match h with | .write .. => true | _ => false)

/-- A window access or a command from the host, in the order of R482. -/
def takeHost (p : HeldPkt) (s : State) : State :=
  let hold (s : State) : State := s.modBy (fun b => { b with held := b.held ++ [p] })
  if behindWrite s.by_ then hold s
  else match p with
    | .cmd r c x => takeCmd r c x s
    | .write o d =>
      let r := windowWrite o d s
      if r.1 then r.2 else hold r.2
    | .read o n t =>
      let r := windowRead o n t s
      if r.1 then r.2 else hold r.2

/-- What captures and weirs hold tries again, in arrival order (R428, R318). -/
def retryHost (s : State) : State :=
  let waiting := s.by_.held
  waiting.foldl (fun s p => takeHost p s) (s.modBy (fun b => { b with held := [] }))

/-- CMD (R490). -/
def execCmd (ring : Fin 4) (cseq : W64) (cmd : HostCmd) (s : State) : Out := .next (if byLive s then takeHost (.cmd ring cseq cmd) s else s)
/-- WWRITE (R484). -/
def execWwrite (off : W64) (data : List Byte) (s : State) : Out := .next (if byLive s then takeHost (.write off data) s else s)
/-- WREAD (R484). -/
def execWread (off : W64) (len : BitVec 10) (tag : BitVec 12) (s : State) : Out := .next (if byLive s then takeHost (.read off len tag) s else s)

/-- The wall-clock time (R479). -/
def takeTime (ns : W64) (s : State) : State := s.modHw (fun h => { h with wallTime := ns })
/-- TIME (R479). -/
def execTime (ns : W64) (s : State) : Out := .next (if byLive s then takeTime ns s else s)

/-- Credits returned by the adapter: link flits and the host stream; the device holds no others (R481). -/
def takeCredit (class_ : Nat) (n : Nat) (s : State) : State :=
  s.modBy (fun b =>
    if class_ = 0 then { b with linkCred := b.linkCred + n, seen := b.seen.set 0 (b.seen[0] + BitVec.ofNat 16 n) }
    else if class_ = 5 then { b with hostCred := b.hostCred + n, seen := b.seen.set 5 (b.seen[5] + BitVec.ofNat 16 n) }
    else b)
/-- CREDIT (R481). -/
def execCredit (class_ : BitVec 4) (amount : W64) (s : State) : Out := .next (if byLive s then takeCredit class_.toNat amount.toNat s else s)

/-- CHUNK_CAPTURE_COMPLETE (R428): the mark is set and the held accesses are released in their order. -/
def execChunkCaptureComplete (addr : BitVec 44) (s : State) : Out :=
  .next (
    let c := addr.toNat / 4096
    if !s.capturing.contains c then s
    else
      retryHost { s with capturing := s.capturing.filter (· != c) })

/-! Receiving (R476-R482). -/

/-- Whether a packet header is discarded: a reserved KIND or a reserved bit (R478). -/
def byHeaderBad (w0 : W64) : Bool :=
  let k := fieldN w0 60 4
  !(k == 1 || k == 2 || k == 3 || k == 4 || k == 5 || k == 8 || k == 9 || k == 0xA || k == 0xB) || fieldN w0 56 2 != 0 || fieldN w0 0 21 != 0

/-- Code of a command (R413). -/
def cmdCode : HostCmd → BitVec 8
  | .jobLoad _ => 1 | .jobStart _ => 2 | .jobKill _ => 3 | .map .. => 4 | .stageCfg .. => 5 | .basinCfg .. => 6 | .retire _ => 7
  | .xlateResp .. => 8 | .faultAck _ => 9 | .eventAck _ => 0xA | .eventFetch _ => 0xB | .sound .. => 0xC | .mgmt .. => 0xD | .other c => c

/-- A whole packet from the adapter (R479). A CMD's arguments have a layout for SOUND alone (R480): those of the other commands are free, and
a command whose words hold none of its code is refused as one of a reserved code is. -/
def takePacket (w0 w1 : W64) (body : List Byte) (s : State) : State :=
  if byHeaderBad w0 then s.modBy (fun b => { b with crcerr := countUp b.crcerr 1 })
  else
    let w (i : Nat) : W64 := bytesWord ((body.drop (8 * i)).take 8)
    match fieldN w0 60 4 with
    | 1 =>
      let code : BitVec 8 := (w 0).truncate 8
      let ring : Fin 4 := ⟨fieldN w0 58 2, by have := (w0.extractLsb' 58 2).isLt; simpa [fieldN] using this⟩
      let free := Config.cmdArgs code ((List.range 6).map (fun i => w (i + 2)))
      let cmd : HostCmd := if code = 0x0C then .sound ((w 2).truncate 32) (w 3) else if cmdCode free = code then free else .other code
      takeHost (.cmd ring (w 1) cmd) s
    | 2 => takeHost (.write w1 body) s
    | 3 => takeHost (.read w1 (w0.extractLsb' 34 10) (w0.extractLsb' 44 12)) s
    | 4 => takeTime w1 s
    | 5 => takeCredit (fieldN w0 21 4) w1.toNat s
    | _ => s

/-- Bytes of body that follow a packet header: none for WREAD, TIME and CREDIT (R478, R479). -/
def byLen (w0 : W64) : Nat :=
  let k := fieldN w0 60 4
  if k = 3 ∨ k = 4 ∨ k = 5 then 0 else fieldN w0 34 10

/-- Length rounded up to the alignment of packets (R476). -/
def pad8 (n : Nat) : Nat := (n + 7) / 8 * 8

/-- Whole packets at the front of a byte stream, and the bytes of one that has begun; zeros after the last fill the body. -/
def byDeframe : Nat → List Byte → List (W64 × W64 × List Byte) × List Byte
  | 0, bs => ([], bs)
  | n + 1, bs =>
    if bs.length < 8 then ([], [])
    else
      let w0 := bytesWord (bs.take 8)
      if w0 = 0 then ([], [])
      else if bs.length < 16 then ([], bs)
      else
        let len := byLen w0
        if bs.length < 16 + len then ([], bs)
        else
          let r := byDeframe n (bs.drop (16 + pad8 len))
          ((w0, bytesWord ((bs.drop 8).take 8), (bs.drop 16).take len) :: r.1, r.2)

/-- The plain body of a received DATA flit (R487). -/
def byOpen (b : ByLink) (f : ByFlit) : Option (List Byte) :=
  if !b.enc then some f.body
  else match b.keys[if bKeyslot f then (3 : Fin 4) else 2] with
    | none => none
    | some x => Config.gcmOpen x.key (linkNonce x.salt b.extRx) (toBytes 4 f.hdr.toNat) f.body

/-- BYVOR_DATA_FLIT (R477, R487). -/
def execByvorDataFlit (f : ByFlit) (s : State) : Out :=
  .next (
    if !byLive s then s
    else if byBad f then byDiscard s
    else if bType f ≠ 0 then s
    else if bSeq f ≠ s.by_.expSeq then s.modBy byOwe
    else match byOpen s.by_ f with
    | none =>
      let n := s.by_.authRun + 1
      let s := s.modBy (fun b => byOwe { b with crcerr := countUp b.crcerr 1, authRun := n })
      if 16 ≤ n then byDown 7 s else s
    | some body =>
      let held := s.by_.rxRem
      let bs := if held.isEmpty then (if bPstart f = 31 then [] else body.drop (8 * bPstart f)) else held ++ body
      let r := byDeframe 64 bs
      let s := s.modBy (fun b => { b with expSeq := b.expSeq + 1, nakSent := false, nakOwed := false, authRun := 0, extRx := b.extRx + 1, rxRem := r.2,
                                          owed := b.owed.set 0 (b.owed[0] + 1) })
      r.1.foldl (fun s p => takePacket p.1 p.2.1 p.2.2 s) (byHeader f s))

/-- Another SEQ than the expected one means a lost flit (R358). -/
def byCheckSeq (f : ByFlit) (s : State) : State := s.modBy (fun b => if bSeq f = b.expSeq then b else byOwe b)

/-- BYVOR_IDLE_FLIT (R471). -/
def execByvorIdleFlit (f : ByFlit) (s : State) : Out :=
  .next (
    if !byLive s then s
    else if byBad f then byDiscard s
    else if bType f ≠ 1 then s
    else byHeader f (byCheckSeq f s))

/-- BYVOR_MAINT_FLIT (R476): cumulative counts correct the credits the device holds; key slots are confirmed. -/
def execByvorMaintFlit (f : ByFlit) (counts : Vector (BitVec 16) 7) (keyReady : Option Bool) (s : State) : Out :=
  .next (
    let confirm (b : ByLink) : ByLink := match keyReady with
      | some x =>
        let i : Fin 2 := if x then 1 else 0
        { b with peerReady := b.peerReady.set i true }
      | none => b
    if !byOn s then s
    else if s.by_.state == .active then
      if byBad f then byDiscard s
      else if bType f ≠ 2 then s
      else
        (byHeader f (byCheckSeq f s)).modBy (fun b => confirm { b with
          linkCred := correctedBy b.linkCred b.seen[0] counts[0]
          hostCred := correctedBy b.hostCred b.seen[5] counts[5]
          seen := (b.seen.set 0 counts[0]).set 5 counts[5] })
    else if (s.by_.state == .training || s.by_.state == .retrain) && s.by_.step == 5 then
      if byBad f then s.modBy (fun b => { b with crcerr := countUp b.crcerr 1 })
      else if bType f = 2 then s.modBy confirm else s
    else s)

/-! Training (R472-R475). -/

/-- What TRAINING starts from; 1,024 link credits (R481). -/
def ByLink.fresh (b : ByLink) : ByLink :=
  { b with
    state := .training
    step := 0
    reason := 0
    width := 0
    peerTrain := none
    enc := false
    keyslot := false
    nextSeq := 0
    expSeq := 0
    nakOwed := false
    nakSent := false
    nakSeq := 0
    nakCount := 0
    replay := []
    resend := 0
    linkCred := 1024
    returned := Vector.replicate 7 0
    seen := Vector.replicate 7 0
    owed := Vector.replicate 7 0
    txRem := []
    rxRem := []
    authRun := 0
    extTx := 0
    extRx := 0
    keyReq := false
    peerReady := Vector.replicate 2 false }

/-- A link begins TRAINING. -/
def byTrain (s : State) : State := if byOn s then s.modBy ByLink.fresh else s

/-- Body of the device's TRAIN flit (R474). -/
def byTrainBody (s : State) : List Byte :=
  [1, 0, 1, 0] ++ wordBytes 1 ++ wordBytes 0 ++ [if s.by_.encReq then 1 else 0, 0, 0, 0] ++ wordBytes devIdent ++ wordBytes (deviceIdWord s) ++
    (List.finRange 4).flatMap (fun (r : Fin 4) => wordBytes s.hw.rings[r].last) ++ wordBytes s.evtSeq ++ toBytes 2 (s.by_.gen + 1).toNat ++
    toBytes 2 1024 ++ toBytes 2 256 ++ toBytes 2 256 ++ toBytes 2 256 ++ toBytes 2 256 ++ toBytes 2 4096 ++ List.replicate 154 0

/-- A Byvor flit with its CRC. -/
def bySeal (hdr : BitVec 32) (body : List Byte) : ByFlit :=
  { hdr := hdr, body := body, crc := crc32c (toBytes 4 hdr.toNat ++ body), fecBad := false }

/-- Width of R473 from the lanes that failed: a retrain never returns from x4 to x8. 0 for none. -/
def byWidth (b : ByLink) : BitVec 2 :=
  let wide := b.state = .training ∨ b.width = 3
  if b.lanebad = 0 ∧ wide then 3 else if b.lanebad &&& 0x0F = 0 then 1 else if b.lanebad &&& 0xF0 = 0 then 2 else 0

/-- ACTIVE (R473, R475, R477, R491). -/
def byUp (s : State) : State :=
  let was := s.by_.downSeen
  let s := s.modBy (fun b => { b with state := .active, reason := 0, gen := b.gen + 1, resend := b.replay.length, downSeen := false })
  let s := if s.by_.width = 3 then s else platform byUnit 0x0202 s
  if was then platform byUnit 0x0201 (s.modHw (fun h => { h with lostLink := true })) else s

/-- BYVOR_TRAINING_STEP_COMPLETE (R472-R475): lanes gives the lanes that passed FEC_LOCK. -/
def execByvorTrainingStepComplete (lanes : BitVec 8) (s : State) : Out :=
  .next (
    let b := s.by_
    if !byOn s || !(b.state == .training || b.state == .retrain) then s
    else match b.step with
    | 0 => s.modBy (fun b => { b with step := 1 })
    | 1 => s.modBy (fun b => { b with step := 2 })
    | 2 =>
      let s := s.modBy (fun b => { b with step := 3, lanebad := ~~~lanes })
      if byWidth s.by_ = 0 then byDown 3 s else s.modBy (fun b => { b with width := byWidth b })
    | 3 => s.modBy (fun b => { b with step := 4, peerTrain := none,
                                      out := some (bySeal (BitVec.ofNat 32 (3 * 2 ^ 30 + b.nextSeq.toNat * 2 ^ 19 + b.expSeq.toNat * 2 ^ 8 + 62)) (byTrainBody s)) })
    | 4 => (match b.peerTrain with
      | none => s
      | some p =>
        if b.encReq && p.1 then s.modBy (fun b => { b with step := 5, enc := true })
        else byUp (s.modBy (fun b => { b with enc := false })))
    | 5 => if b.keys.toList.all (·.isSome) && b.peerReady.toList.all (· == true) then byUp s else s)

/-- BYVOR_TRAINING_STEP_TIMEOUT (R472): REASON has no code for EXCHANGE or KEY out of time, so that code is free. -/
def execByvorTrainingStepTimeout (s : State) : Out :=
  .next (
    if !(s.by_.state == .training || s.by_.state == .retrain) then s
    else if s.by_.step.val < 4 then byDown (BitVec.ofNat 4 (s.by_.step.val + 1)) s
    else let r := s.takeFree; byDown (r.1.truncate 4) r.2)

/-- BYVOR_TRAIN_FLIT (R474, R475): the adapter's credit and record area hold from its TRAINING on. -/
def execByvorTrainFlit (f : ByFlit) (s : State) : Out :=
  .next (
    let b := s.by_
    let at_ (i : Nat) : Byte := f.body.getD i 0
    let w (i : Nat) : W64 := bytesWord ((f.body.drop i).take 8)
    if !byOn s || !(b.state == .training || b.state == .retrain) || b.step != 4 then s
    else if byBad f then s.modBy (fun b => { b with crcerr := countUp b.crcerr 1 })
    else if bType f ≠ 3 then s
    else
      let encReq := (at_ 20).getLsbD 0
      let feature := bitB (w 4) 0
      let s := s.modBy (fun b => { b with peerMaj := at_ 0, peerMin := at_ 1 })
      if at_ 0 ≠ 1 ∨ at_ 2 ≠ 1 then byDown 5 s
      else if (b.encReq || encReq) && !(b.encReq && encReq && feature) then byDown 6 s
      else s.modBy (fun b =>
        let b := { b with peerTrain := some (encReq, feature, at_ 2) }
        if b.state = .training then { b with hostCred := (w 32).toNat, recBase := w 40, recSize := w 48 } else b))

/-- BYVOR_LINK_RETRY_TIMER (R472, R493). -/
def execByvorLinkRetryTimer (s : State) : Out := .next (if s.by_.state = .down ∧ s.by_.retryMs ≠ 0 then byTrain s else s)

/-- BY_LCTL.CMD (R493). -/
def byCmdTrain (s : State) : State := if s.by_.state = .disabled ∨ s.by_.state = .down then byTrain s else s
def byCmdDisable (s : State) : State :=
  if s.by_.state = .disabled then s else byLost (fun b => { b with state := .disabled, reason := 0, width := 0 }) s
/-- BY_LCTL_TRAIN (R493). -/
def execByLctlTrain (s : State) : Out := .next (byCmdTrain s)
/-- BY_LCTL_DISABLE (R493). -/
def execByLctlDisable (s : State) : Out := .next (byCmdDisable s)
/-- BY_LCTL_RETRAIN (R493). -/
def execByLctlRetrain (s : State) : Out := .next (byRetrain s)
/-- BYVOR_RETRY_TIMEOUT (R477). -/
def execByvorRetryTimeout (s : State) : Out := .next (if s.by_.replay.isEmpty then s else byRetrain s)
/-- BYVOR_LOSS_OF_SIGNAL (R472, R491). -/
def execByvorLossOfSignal (s : State) : Out := .next (byRetrain s)

/-- HOST_LINK_DOWN (R491, R443): completions not yet sent become COMPLETION events, soundings in progress are abandoned, and the rest of
the stream is dropped; the events it named stay held. -/
def execHostLinkDown (s : State) : Out :=
  .next (
    if s.by_.state == .active || s.by_.state == .retrain then s
    else
      let items := s.by_.stream
      let s := (s.modBy (fun b => { b with stream := [] })).modHw (fun h => { h with sounds := [] })
      items.foldl (fun s x => match x with
        | .cpl r c st v => s.complete r c st v
        | _ => s) s)

/-! The transmitter (R471, R481, R482). -/

/-- A CREDIT packet (R478). -/
def creditPacket (class_ n : Nat) : List Byte := wordBytes (putN 60 5 ||| putN 21 class_) ++ wordBytes (w64 n)

/-- Body of an event (R488). -/
def evtBytes (e : Evt) : List Byte :=
  wordBytes e.seq ++ wordBytes (putN 16 e.job.toNat ||| e.type_.setWidth 64) ++
    ((e.words ++ List.replicate 6 0).take 6).flatMap wordBytes

/-- Packet bytes of an item of the stream and the credits it uses (R480, R481); an event no longer held is passed over. -/
def streamBytes (s : State) : HostItem → List Byte × Nat
  | .cpl _ cseq st v => (wordBytes (putN 60 8 ||| putN 34 16) ++ wordBytes 0 ++ wordBytes cseq ++ wordBytes (v ++ st), 1)
  | .evt n => (match s.events.find? (fun e => e.seq == n) with
      | some e => (wordBytes (putN 60 0xA ||| putN 34 64) ++ wordBytes 0 ++ evtBytes e, 1)
      | none => ([], 0))
  | .hostwr a d => (wordBytes (putN 60 0xB ||| putN 34 d.length) ++ wordBytes a ++ d ++ List.replicate (pad8 d.length - d.length) 0, (d.length + 63) / 64)

/-- The next packet to send: returned credits, then window responses, then the stream while its credit lasts. -/
def nextPacket (s : State) : Option (List Byte × State) :=
  match (List.finRange 7).find? (fun c => decide (0 < s.by_.owed[c])) with
  | some c =>
    let n := s.by_.owed[c]
    some (creditPacket c.val n, s.modBy (fun b => { b with owed := b.owed.set c 0, returned := b.returned.set c (b.returned[c] + BitVec.ofNat 16 n) }))
  | none =>
    match s.by_.resps with
    | p :: r => some (p ++ List.replicate (pad8 p.length - p.length) 0, s.modBy (fun b => { b with resps := r }))
    | [] =>
      match s.by_.stream with
      | [] => none
      | x :: r =>
        let p := streamBytes s x
        if s.by_.hostCred < p.2 then none
        else
          let s := s.modBy (fun b => { b with stream := r, hostCred := b.hostCred - p.2 })
          some (p.1, match x with | .evt n => delivered (fun e => e == n) s | _ => s)

/-- Packets that fill a body from a place on: the bytes, and the rest of the last one. A packet starts only with room for its header. -/
def byFill : Nat → Nat → State → List Byte × List Byte × State
  | 0, _, s => ([], [], s)
  | n + 1, room, s =>
    if room < 16 then ([], [], s)
    else match nextPacket s with
    | none => ([], [], s)
    | some p =>
      if room ≤ p.1.length then (p.1.take room, p.1.drop room, p.2)
      else
        let r := byFill n (room - p.1.length) p.2
        (p.1 ++ r.1, r.2.1, r.2.2)

/-- Low header fields that every flit carries. -/
def byHdr (b : ByLink) (type_ : Nat) (pstart : Nat) : BitVec 32 :=
  BitVec.ofNat 32 (type_ * 2 ^ 30 + b.nextSeq.toNat * 2 ^ 19 + b.expSeq.toNat * 2 ^ 8 + (if b.nakOwed then 128 else 0) + (if b.keyslot then 64 else 0) + pstart * 2)

/-- Key requests at 2^39 flits, the flip once the other slot is confirmed, and exhaustion at 2^40 (R369, R487). -/
def byKeys (b : ByLink) : ByLink :=
  if !b.enc then b
  else
    let b := if 2 ^ 39 ≤ keyUse b.keyslot b.keyFlits then { b with keyReq := true } else b
    let other : Fin 2 := if b.keyslot then 0 else 1
    if b.keyReq && b.peerReady[other] && b.keyFlits[other] == 0 && (b.keys[other.castLE (by omega : 2 ≤ 4)]).isSome then
      { b with keyslot := !b.keyslot, keyReq := false, reason := 0 }
    else if 2 ^ 40 ≤ keyUse b.keyslot b.keyFlits then { b with reason := 9 } else b

/-- Whether a DATA flit may go: something to send, a link credit, replay room, a key not exhausted (R477, R481, R487). -/
def byReady (s : State) : Bool :=
  let b := s.by_
  (!b.txRem.isEmpty || (nextPacket s).isSome) && decide (0 < b.linkCred) && decide (b.replay.length < 512) && !(b.enc && decide (2 ^ 40 ≤ keyUse b.keyslot b.keyFlits))

/-- An IDLE flit. -/
def byIdle (b : ByLink) : ByLink := { b with nakOwed := false, sinceIdle := 0, out := some (bySeal (byHdr b 1 31) (List.replicate 248 0)) }

/-- A DATA flit. -/
def byData (s : State) : State :=
  let room := if s.by_.enc then 232 else 248
  let rem := s.by_.txRem
  let head := rem.take room
  let r := if rem.length < room then byFill 64 (room - rem.length) s else ([], rem.drop room, s)
  let plain := head ++ r.1
  let plain := plain ++ List.replicate (room - plain.length) 0
  r.2.2.modBy (fun b =>
    let hdr := byHdr b 0 (if r.1.isEmpty then 31 else head.length / 8)
    let body := if b.enc then
        (match b.keys[if b.keyslot then (1 : Fin 4) else 0] with
          | some x => Config.gcmSeal x.key (linkNonce x.salt b.extTx) (toBytes 4 hdr.toNat) plain
          | none => plain ++ List.replicate 16 0)
      else plain
    let f := bySeal hdr body
    { b with nakOwed := false, nextSeq := b.nextSeq + 1, extTx := b.extTx + 1, keyFlits := countKey b.keyslot b.keyFlits, linkCred := b.linkCred - 1,
             txRem := r.2.1, replay := b.replay ++ [(b.nextSeq, f)], out := some f })

/-- A MAINT flit (R476, R369): cumulative credits returned, and the key slots that are loaded. Its body's layout is the model's. -/
def byMaint (b : ByLink) : ByLink :=
  { b with nakOwed := false, sinceMaint := 0,
           out := some (bySeal (byHdr b 2 31) (b.returned.toList.flatMap (fun c => toBytes 2 c.toNat) ++ [loadedSlots b.keys] ++ List.replicate 233 0)) }

/-- BYVOR_FLIT_SLOT (R471): MAINT once in 512 slots, IDLE after 2,047 slots without one, resends, DATA, else IDLE; MAINT in the KEY step. -/
def execByvorFlitSlot (s : State) : Out :=
  .next (
    if byOn s && (s.by_.state == .training || s.by_.state == .retrain) && s.by_.step == 5 then s.modBy byMaint
    else if !byLive s then s
    else
      let s := s.modBy (fun b => byKeys { b with sinceMaint := b.sinceMaint + 1, sinceIdle := b.sinceIdle + 1 })
      let b := s.by_
      if 512 ≤ b.sinceMaint then s.modBy byMaint
      else if 2048 ≤ b.sinceIdle then s.modBy byIdle
      else if b.resend ≠ 0 then
        s.modBy (fun b => { b with out := (b.replay[b.replay.length - b.resend]?).map (·.2), resend := b.resend - 1 })
      else if byReady s then byData s
      else s.modBy byIdle)

end Sys2Proof.Machine
end

