-- ==== Sys2Proof/Machine/Clocks.lean ====
section
/-! DEFINITION. The clocks (R18, R166, R342) and the synchronisers between them (R550). -/

namespace Sys2Proof.Machine

/-- Well-clock edges in the nanosecond after t at 850 MHz (R18). -/
def wellEdges (t : Nat) : Nat := 17 * (t + 1) / 20 - 17 * t / 20

/-- Lines whose source is level are latched again while it lasts (R226): TIMER while its condition holds, PUMP_FAULT while a translation
record holds a descriptor of the well. -/
def relatch (s : State) : State :=
  (List.finRange 128).foldl (fun (s : State) w =>
    if !s.wellOn w then s
    else
      let c := s.cpu w
      let s := if c.exc.timecmp != 0 && decide (c.exc.timecmp.toNat ≤ c.cycle.count.toNat) then raiseLine w 5 s else s
      if ([0, 1] : List (Fin 2)).any (fun p => s.pumps[wellPump w p].queue.any (fun d => d.heldS.isSome || d.heldD.isSome)) then raiseLine w 6 s else s) s

/-- One nanosecond of the stage timer (R342): every powered well's CYCLE counts its clock's edges (R166). -/
def tickTime (s : State) : State :=
  let n := wellEdges s.stg.t.toNat
  { s with
    stg := { s.stg with t := s.stg.t + 1 }
    wells := if n = 0 then s.wells else Vector.ofFn (fun (w : Fin 128) =>
      let u := s.wells[w]
      if s.wellOn w && s.dieClocked then { u with cpu := { u.cpu with cycle := countUp u.cpu.cycle n } } else u) }

/-- An uncorrectable error in a trigger counter (R455): every operation that watches it completes with MEM_ERR. -/
def counterLost (c : BitVec 12) (s : State) : State :=
  let e := engOfCtr c
  (s.cf.engines[e].ops.filter (fun o => o.phase == .armed && watched s e o == c)).foldl (fun s o => endOp e o.id 0x07 s) s

/-- Bad parity in a Pump's queue (R277, R455): one of its descriptors ends with PUMP_ERR. -/
def queueParity (p : PumpId) (i : Nat) (s : State) : State :=
  match s.pumps[p].queue[i]? with
  | some d => failDesc p d.seq 0x0E s
  | none => s

/-- A bit upset that a free value may bring, in the memories of R455: an uncorrectable or correctable error in a well's stores (R251), a
bad group of tags (R253), bad parity in a Windlass or Flume register (R125, R164), in an instruction-cache line (R190), in a Pump's queue
(R277) or in a front end's cached translation; a data RAM word that does not take a write (R224), an error in a stack sector (R311) or
one that the stack itself corrects (R309), in a Cistern sector or in a Cistern tag (R313), in a trigger counter, in a job's ledger. Most
free values bring none. Nothing in the spec says when one strikes (log 6). -/
def upset (s : State) : State :=
  let r := s.takeFree
  let s := r.2
  let p := r.1.toNat / 16
  let w : WellId := Fin.ofNat 128 p
  let q := p / 128
  let word := wellAddr w 0 / 8 + q % 0xE4000
  let n : StackId := Fin.ofNat 24 p
  let sector := n.val * 0x40000000 + p / 24 % 0x40000000
  let place (k : Nat) : Bool := (lineAt s (k * 64)).isSome
  match r.1.toNat % 16 with
  | 1 => if s.wellOn w then { s with ue := ueAdd s.ue word, ce := s.ce.filter (· != word) } else s
  | 2 => if s.wellOn w && !s.ue.contains word then { s with ce := ueAdd s.ce word } else s
  | 3 =>
    let g : Fin 224 := Fin.ofNat 224 q
    if s.wellOn w && !s.wells[w].st.tagBad.any (fun x => x.1 == g) then s.modSt w (fun t => { t with tagBad := (g, false) :: t.tagBad })
    else s
  | 4 =>
    let i := q / 8
    let reg : RegRef := match q % 8 with
      | 0 | 1 => .g false (Fin.ofNat 32 i) | 2 => .g true (Fin.ofNat 32 i) | 3 => .q (Fin.ofNat 16 i)
      | 4 => .csr (BitVec.ofNat 12 i) | 5 | 6 => .v (Fin.ofNat 32 i) | _ => .m (Fin.ofNat 8 i)
    if s.wellOn w && !(s.cpu w).badRegs.contains reg && !(reg == .g false 0 || reg == .g true 0) then
      s.modCpu w (fun c => { c with badRegs := reg :: c.badRegs })
    else s
  | 5 =>
    let e : StackErr := match p / 24 / 0x40000000 % 4 with | 0 => .symbols | 1 => .addrCheck | _ => .oneSymbol
    if s.stks[n].trained && !s.stErr.any (fun x => x.1 == sector) then { s with stErr := (sector, e) :: s.stErr } else s
  | 6 =>
    let sector := if p / 0x800000000000 % 2 = 1 then 0x800000000 + q % 0x1000000 else sector
    if (place sector || (decide (0x800000000 ≤ sector) && (centralRefusal s (sector * 64)).isNone)) && !s.cErr.any (fun x => x.1 == sector) then
      { s with cErr := (sector, p / 0x1000000000000 % 2 == 1) :: s.cErr } else s
  | 7 =>
    match s.lines[p % (s.lines.length + 1)]? with
    | some l => if s.cTagErr.contains (l.half, l.slice, l.set) then s else { s with cTagErr := (l.half, l.slice, l.set) :: s.cTagErr }
    | none => s
  | 8 =>
    let i := q % 1024
    if s.wellOn w then s.modCpu w (fun c => { c with icache := (c.icache.zipIdx).map (fun x => if x.2 = i then { x.1 with bad := true } else x.1) }) else s
  | 9 => if s.wellOn w then s.modSt w (fun t => { t with wbad := (BitVec.ofNat 24 (0xE0000 + q % 0x4000) :: t.wbad).eraseDups }) else s
  | 10 => queueParity (Fin.ofNat 272 p) (p / 272 % 64) s
  | 11 => if s.stks[n].trained then s.modStack n (fun c => { c with odecc := countUp c.odecc 1 }) else s
  | 12 => counterLost (BitVec.ofNat 12 p) s
  | 13 =>
    let f : FrontId := Fin.ofNat 6 p
    s.modFront f (fun x => { x with tlb := x.tlb.eraseIdx (p / 6 % (x.tlb.length + 1)) })
  | 14 =>
    let k : Fin 32 := Fin.ofNat 32 p
    if p / 32 % 1024 = 0 ∧ s.jobs[k].state ≠ .free then tryReady (endJob k esMemErr s) else s
  | _ => s

/-- What Headwater had to wait for may have come (R423, R431, R433), and READY with it (R426). -/
def headwaterGoesOn (s : State) : State := if hwBusy s && !s.hw.jobHalted then tryReady (jobsGoOn s) else s

/-- Accesses of the fabric and of the host that a weir held try again (R318). -/
def outsideGoesOn (s : State) : State :=
  let s := if s.far.waiting.isEmpty then s else retryAccesses s
  if s.by_.held.isEmpty then s else retryHost s

/-- What passes while no command waits: a nanosecond, baseflow's look at the counters, the level lines, what Headwater and the accesses
from outside wait for, and perhaps an upset. -/
def tick (s : State) : State := upset (outsideGoesOn (headwaterGoesOn (relatch (watchCounters (tickTime s)))))

/-- SYNCHRONISED_EVENT_ARRIVAL (R550): the oldest event on its way through the well's synchroniser arrives, and its line
asserts. -/
def execSynchronisedEventArrival (w : WellId) (s : State) : Out :=
  .next (match s.sync.find? (fun e => e.well == w) with
    | none => s
    | some e =>
      let s := { s with sync := removeFirst (fun x => x.well == w) s.sync }
      if s.wellOn w then raiseLine w e.line.val s else s)

end Sys2Proof.Machine
end

