-- ==== Sys2Proof/Machine/Power.lean ====
section
/-! DEFINITION. Power, clocks and thermal limits: the input, the domains, capping, the references and the sensors (R494-R509). -/

namespace Sys2Proof.Machine

def State.modPw (s : State) (f : Power → Power) : State := { s with pw := f s.pw }

/-- Unit that the events of the input, the capping controller and the clocks name (R507). -/
def aonUnit : BitVec 16 := 0xA02C

/-- D and HOLDER: the lowest request wins (R500, R501, R506, R509). -/
def settleDuty (s : State) : State :=
  s.modPw (fun p =>
    let d := min (min p.ownDuty.toNat (if p.uv then 16 else 64)) (min (if p.warn.isEmpty then 64 else 48) (if p.crit.isEmpty then 64 else 8))
    { p with
      duty := BitVec.ofNat 7 d
      holder := BitVec.ofNat 6 ((if p.ownDuty.toNat < 64 then 1 else 0) + (if p.warn.isEmpty then 0 else 2) + (if p.crit.isEmpty then 0 else 4) + (if p.uv then 8 else 0)) })

/-- INPUT_UV (R494). -/
def execInputUv (s : State) : Out :=
  .next (if s.pw.inputOn then platform aonUnit 0x0004 (settleDuty (s.modPw (fun p => { p with uv := true }))) else s)

/-! Domains (R495, R498, R499). -/

/-- First byte of a stack and of the next one. -/
def stackLo (n : Nat) : Nat := n * 0x1000000000

/-- What an I/O die loses with its engines (R19): their operations, queues and counters. -/
def enginesGone (s : State) (die : Nat) : State :=
  let s := s.modCf (fun c => { c with engines := (c.engines.set (Fin.ofNat 4 (2 * die)) Engine.reset).set (Fin.ofNat 4 (2 * die + 1)) Engine.reset })
  { s with counters := Vector.ofFn (fun (c : Fin 4096) => if c.val / 2048 = die then { value := 0, sat := false, staged := false } else s.counters[c]) }

/-- What is lost with a domain's power: wells stop with their Pumps and their banks go OFF (R256); frames go OFF and hold nothing, and a frame command goes on
without them (R308); the stacks'
contents are discarded with their lines in the Cistern (R20, R308); links are DISABLED, and the die's engines lose what they hold. -/
def domainGone (s : State) (d : Nat) : State :=
  if d < 32 then
    (List.range 4).foldl (fun s i =>
      let w : WellId := Fin.ofNat 128 (4 * d + i)
      let s := ((stopWell w s).modPump (wellPump w 0) (fun _ => Pump.reset)).modPump (wellPump w 1) (fun _ => Pump.reset)
      (clearWellBytes w s).modSt w (fun t => { t with banks := Vector.replicate 28 .off, bankOp := none, claims := [], waiters := [] })) s
  else if d < 36 then
    let h : HalfId := Fin.ofNat 2 ((d - 32) / 2)
    let q := (d - 32) % 2
    let s := { s with lines := s.lines.filter (fun l => !(l.half == h && l.slice.val / 16 == q)) }
    let mine : BitVec 16 := if q = 0 then 0x00FF else 0xFF00
    let s := s.modHalf h (fun x => { x with
      plru := x.plru.filter (fun y => y.1.val / 16 != q)
      op := x.op.bind (fun o => if o.mask &&& ~~~mine = 0 then none else some { o with mask := o.mask &&& ~~~mine }) })
    (List.range 8).foldl (fun s i => let f : Fin 16 := Fin.ofNat 16 (8 * q + i); setFrame (h, f) .off (zeroFrame h f s)) s
  else if d < 40 then
    let lo := stackLo (6 * (d - 36))
    let hi := stackLo (6 * (d - 36) + 6)
    let keep (k : Nat) : Bool := !(decide (lo ≤ k ∧ k < hi))
    let s := (List.range 6).foldl (fun s i => s.modStack (Fin.ofNat 24 (6 * (d - 36) + i)) (fun c => { c with queue := [], rows := [] })) s
    { s.clearBytes lo hi with
      lines := s.lines.filter (fun l => keep (l.line.toNat * 256))
      cErr := s.cErr.filter (fun e => keep (e.1 * 64))
      poison := s.poison.filter (fun k => keep (k * 64))
      stErr := s.stErr.filter (fun e => keep (e.1 * 64)) }
  else if d = 40 ∨ d = 42 then
    enginesGone ((List.range 18).foldl (fun s i => cmdDisable (Fin.ofNat 36 ((if d = 40 then 0 else 18) + i)) s) s) (if d = 40 then 0 else 1)
  else if d = 41 then byCmdDisable s
  else s

/-- A domain's rail goes off at once (R495, R506). -/
def cutDomain (s : State) (d : Nat) : State :=
  let m : BitVec 44 := BitVec.ofNat 44 (2 ^ d)
  domainGone ({ s with domainOn := s.domainOn &&& ~~~m }.modPw (fun p => { p with changing := p.changing &&& ~~~m, switched := p.switched ||| m })) d

/-- RAIL_FAULT (R495): the domain goes off and shows FAULT; jobs lose the wells in it as failed units. -/
def execRailFault (d : Fin 44) (s : State) : Out :=
  .next (
    if !s.domain d then s
    else
      let s := (cutDomain s d).modPw (fun p => { p with fault := p.fault ||| BitVec.ofNat 44 (2 ^ d.val) })
      let s := platform (domUnit d) 0x0007 s
      let ws : List WellId := if d.val < 32 then (List.range 4).map (fun i => Fin.ofNat 128 (4 * d.val + i)) else []
      let ks := (ws.filterMap (fun w => s.wellJob[w])).eraseDups
      let s := jobsGoOn (ws.foldl (fun s w => moveWell w s) s)
      tryReady (ks.foldl (fun s k => faultReplay k s) s))

/-- INPUT_TURN_OFF (R494): every domain, the always-on one included, goes off. -/
def execInputTurnOff (s : State) : Out :=
  .next ((((List.range 44).filter (fun d => s.domain d)).foldl cutDomain s).modPw (fun p => { p with inputOn := false, pwrGood := false, pend := none }))

/-- Jobs that are not FREE hold units: stacks by their leaves, which include the pre-image area (R20, R417). -/
def stackHeld (s : State) (n : Nat) : Bool :=
  (liveJobs s).any (fun k => s.jobs[k].leaves.any (fun l => match localOf s l.2.1.toNat with
    | some pa => decide (pa / 0x1000000000 = n)
    | none => false))

/-- Why an ON command cannot take a domain (R20, R498, R509). -/
def onErr (s : State) (d : Nat) : Nat :=
  if 36 ≤ d ∧ d < 40 then
    let die := (d - 36) / 2
    if s.domain (32 + 2 * die) && s.domain (33 + 2 * die) then 0 else 2
  else if d = 42 ∧ !s.domain 43 then 3
  else 0

/-- Whether a job owns post queues or trigger counters of an I/O die's engines (R20, R378). -/
def jobUsesDie (s : State) (k : Fin 32) (die : Nat) : Bool :=
  let j := s.jobs[k]
  j.queues.any (fun q => q.1.val / 2 == die) || (grantCtrs j).any (fun c => c.val / 2048 == die)

/-- Why an OFF command cannot take a domain (R20, R498, R509). The first stack of each basin holds a reserved page of Headwater. -/
def offErr (s : State) (d : Nat) : Nat :=
  if d < 32 then
    (if (List.range 4).any (fun i => (s.wellJob[(Fin.ofNat 128 (4 * d + i) : WellId)]).isSome) then 1 else 0)
  else if d < 36 then
    let die := (d - 32) / 2
    let q := (d - 32) % 2
    if (liveJobs s).any (fun k => s.jobs[k].frames.any (fun f => f.1.val == die && f.2.val / 8 == q)) then 1
    else if s.domain (36 + 2 * die) || s.domain (37 + 2 * die) then 2 else 0
  else if d < 40 then
    if (List.range 6).any (fun i => stackHeld s (6 * (d - 36) + i)) then 1
    else if d = 36 ∨ (s.basinMode = 1 ∧ d = 38) ∨ s.basinMode = 2 then 2 else 0
  else if d = 41 then (if s.su.st = 1 then 3 else 0)
  else if d = 43 then (if s.domain 42 then 3 else 0)
  else
    let base := if d = 40 then 0 else 18
    let e := if d = 40 then 0 else 2
    if (liveJobs s).any (fun k => jobUsesDie s k (if d = 40 then 0 else 1)) then 1
    else if (List.range 18).any (fun i => s.far.links[(Fin.ofNat 36 (base + i) : LinkId)].state != .disabled) ||
      !(s.cf.engines[(Fin.ofNat 4 e : EngineId)].ops.isEmpty) || !(s.cf.engines[(Fin.ofNat 4 (e + 1) : EngineId)].ops.isEmpty) then 3 else 0

/-- Domains of a mask. -/
def maskDomains (m : BitVec 44) : List Nat := (List.range 44).filter (fun d => m.getLsbD d)

/-- A refused domain command (R498, R509). -/
def refuseDomain (err dom : Nat) (s : State) : State := s.modPw (fun p => { p with domErr := BitVec.ofNat 3 err, domDom := BitVec.ofNat 6 dom })

/-- A domain command starts (R499): accesses are refused from now on where it switches off. Domains already there stay. -/
def domainCommand (on : Bool) (mask : BitVec 44) (s : State) : State :=
  let low := (maskDomains mask).headD 0
  if s.pw.pend.isSome then refuseDomain 4 low s
  else
    let ds := (maskDomains mask).filter (fun d => s.domain d != on)
    let err := if on then onErr s else offErr s
    match ds.find? (fun d => err d != 0) with
    | some d => refuseDomain (err d) d s
    | none =>
      let m : BitVec 44 := ds.foldl (fun m d => m ||| BitVec.ofNat 44 (2 ^ d)) 0
      let s := s.modPw (fun p => { p with pend := some (on, m), changing := p.changing ||| m, switched := p.switched ||| m })
      if on then s
      else
        let s := ((List.range 128).filter (fun w => ds.contains (w / 4))).foldl (fun s w => stopWell (Fin.ofNat 128 w) s) s
        { s with domainOn := s.domainOn &&& ~~~m }

/-- PW_DOMCTL_ON (R499). -/
def execPwDomctlOn (mask : BitVec 44) (s : State) : Out := .next (domainCommand true mask s)
/-- PW_DOMCTL_OFF (R499). -/
def execPwDomctlOff (mask : BitVec 44) (s : State) : Out := .next (domainCommand false mask s)

/-- What a domain brings when its rail is up (R499): cleared wells with every bank OFF, frames OFF, the stacks that trained, links
DISABLED. -/
def domainUp (trained : BitVec 24) (s : State) (d : Nat) : State :=
  let m : BitVec 44 := BitVec.ofNat 44 (2 ^ d)
  let s := { s with domainOn := s.domainOn ||| m }.modPw (fun p => { p with fault := p.fault &&& ~~~m, switched := p.switched ||| m })
  if d < 32 then
    (List.range 4).foldl (fun s i =>
      let w : WellId := Fin.ofNat 128 (4 * d + i)
      clearWell w false (s.modSt w (fun t => { t with banks := Vector.replicate 28 .off }))) s
  else if 36 ≤ d ∧ d < 40 then
    let g : BitVec 24 := BitVec.ofNat 24 (0x3F * 2 ^ (6 * (d - 36)))
    let s := { s with stackMask := (s.stackMask &&& ~~~g) ||| (trained &&& g) }
    (List.range 6).foldl (fun s i =>
      let n := 6 * (d - 36) + i
      s.modStack (Fin.ofNat 24 n) (fun c => { c with trained := trained.getLsbD n })) s
  else s

/-- DOMAIN_SWITCH_COMPLETE (R499): trained gives the stacks that passed. -/
def execDomainSwitchComplete (trained : BitVec 24) (s : State) : Out :=
  .next (match s.pw.pend with
    | none => s
    | some (on, m) =>
      let s := s.modPw (fun p => { p with pend := none, changing := p.changing &&& ~~~m })
      if on then (maskDomains m).foldl (domainUp trained) s else (maskDomains m).foldl domainGone s)

/-! Capping (R500-R502). -/

/-- LIMIT and MIN of the profile in force (R509). -/
def profileLimit (p : Power) : Nat := fieldN (p.profiles[(Fin.ofNat 8 p.active.toNat : Fin 8)]) 48 16
def profileMin (p : Power) : Nat := fieldN (p.profiles[(Fin.ofNat 8 p.active.toNat : Fin 8)]) 40 7

/-- The effective limit E (R501). -/
def effectiveLimit (p : Power) : Nat := if p.bmcLimit = 0 then profileLimit p else min (profileLimit p) p.bmcLimit.toNat

/-- The next D of the controller for a mean power P (R501). -/
def nextDuty (d e minD watts : Nat) : Nat :=
  if e < watts then max minD (d * e / watts) else if watts * 100 < e * 98 then min 64 (d + 1) else d

/-- POWER_EVALUATION (R501, R502): gauge actions since the last one take effect, then D moves. An input back above 39 V ends INPUT_UV's
hold. -/
def execPowerEvaluation (watts volts amps : BitVec 16) (s : State) : Out :=
  .next (settleDuty (s.modPw (fun p =>
    let p := { p with active := p.profReq.getLast?.getD p.active, profReq := [], watts := watts, volts := volts, amps := amps,
                      uv := p.uv && decide (volts.toNat < 3900) }
    { p with ownDuty := BitVec.ofNat 7 (nextDuty p.ownDuty.toNat (effectiveLimit p) (profileMin p) watts.toNat) })))

/-- CURRENT_LIMIT (R501). -/
def execCurrentLimit (s : State) : Out :=
  .next (platform aonUnit 0x0005 (settleDuty (s.modPw (fun p => { p with ownDuty := 16, fast := true }))))

/-- CAP_THROTTLE (R501): at most once per minute. -/
def execCapThrottle (s : State) : Out :=
  .next (
    let due := match s.pw.capAt with | none => true | some t => decide (t.toNat + 60000000000 ≤ s.stg.t.toNat)
    if s.pw.duty.toNat < 64 && due then platform aonUnit 0x0006 (s.modPw (fun p => { p with capAt := some s.stg.t })) else s)

/-- A write of PW_CAP (R502): it stands over gauge actions dispatched before it. -/
def capWrite (v : W64) (s : State) : State := s.modPw (fun p => { p with active := v.extractLsb' 61 3, profReq := [] })
/-- PW_CAP_WRITE (R502). -/
def execPwCapWrite (v : W64) (s : State) : Out := .next (capWrite v s)

/-! References (R503). -/

/-- A start that loses a reference or trips goes no further than step 8 (R536). -/
def stopStart (reason : BitVec 8) (s : State) : State :=
  if s.su.st = 0 ∧ !s.su.porLow ∧ 2 ≤ s.su.step.toNat then { s with su := { s.su with stopped := true, reason := reason } } else s

/-- REFCLK_A_LOSS (R503): every job stops with CLOCK_LOSS. -/
def execRefclkALoss (s : State) : Out :=
  .next (if s.pw.refALost then s else endAllJobs esClockLoss (stopStart 8 (platform aonUnit 0x0008 (s.modPw (fun p => { p with refALost := true })))))

/-- A link that runs goes DOWN; no REASON code names the loss of its clock, so the code is free. -/
def clockDown (s : State) (l : LinkId) : State :=
  let st := s.far.links[l].state
  if st == .active || st == .training || st == .retrain then (let r := s.takeFree; linkDown l (r.1.truncate 4) r.2) else s

/-- REFCLK_B_LOSS (R503): the links and the Byvor Link go DOWN and every job stops with CLOCK_LOSS. -/
def execRefclkBLoss (s : State) : Out :=
  .next (
    if s.pw.refBLost then s
    else
      let s := (List.finRange 36).foldl clockDown s
      let b := s.by_.state
      let s := if b == .active || b == .training || b == .retrain then (let r := s.takeFree; byDown (r.1.truncate 4) r.2) else s
      stopStart 8 (endAllJobs esClockLoss (s.modPw (fun p => { p with refBLost := true }))))

/-! Temperature (R505, R506). -/

/-- A half-cycle of THERMAL_CYCLES counts for a domain (R459). -/
def countCycle (d : Nat) (s : State) : State :=
  s.modBf (fun b => { b with wear := (wearEntries s).map (fun e => if e.code = 5 && e.unit == domUnit d then { e with reading := sat64 e.reading 1, valid := true } else e) })

/-- Turning points: a swing of at least 40 degrees from the extreme since the last one (R459). -/
def followSwing (d : Fin 45) (t : BitVec 16) (s : State) : State :=
  let x := s.pw.extreme[d].toInt
  let up := s.pw.rising[d]
  let set (r : Bool) (s : State) : State := s.modPw (fun p => { p with rising := p.rising.set d r, extreme := p.extreme.set d t })
  if (if up then x ≤ t.toInt else t.toInt ≤ x) then set up s
  else if (if up then t.toInt + 400 ≤ x else x + 400 ≤ t.toInt) then countCycle d.val (set (!up) s)
  else s

/-- A unit's place in a threshold list after a reading: in at the level, out 5 K below it (R506). -/
def levelSet (l : List (BitVec 16)) (u : BitVec 16) (t level : Int) : List (BitVec 16) :=
  if level ≤ t then (if l.contains u then l else l ++ [u]) else if t ≤ level - 50 then l.filter (· != u) else l

/-- THERMAL_TRIP (R506): jobs stop, links are DISABLED, frames go OFF, then the well groups, PD40, PD42 and PD43 switch off. -/
def thermalTrip (s : State) : State :=
  let s := (stopStart 7 (endAllJobs esThermal s)).modPw (fun p => { p with tripped := true })
  let s := (List.finRange 36).foldl (fun s l => cmdDisable l s) s
  let s := allFrames.foldl (fun s x => setFrame x .off (flushFrame x.1 x.2 s)) s
  ((List.range 32 ++ [40, 42, 43]).filter (fun d => s.domain d)).foldl cutDomain s

/-- The thresholds of a unit after a reading (R506). -/
def thermalLevels (u : BitVec 16) (t warn : Int) (s : State) : State :=
  let p := s.pw
  let rises (l : List (BitVec 16)) (level : Int) : Bool := decide (level ≤ t) && !l.contains u
  let w := rises p.warn warn
  let c := rises p.crit (warn + 50)
  let r := rises p.trip (warn + 150)
  let s := s.modPw (fun p => { p with warn := levelSet p.warn u t warn, crit := levelSet p.crit u t (warn + 50), trip := levelSet p.trip u t (warn + 150) })
  let s := if w then platform u 0x0001 s else s
  let s := if c then platform u 0x0002 s else s
  let s := if r then thermalTrip (platform u 0x0003 s) else s
  settleDuty s

/-- THERMAL_SENSOR_READ (R505, R506): a reading in 0.1 degrees. -/
def execThermalSensorRead (unit : ThermalUnit) (deci : BitVec 16) (s : State) : Out :=
  .next (
    let logic (d : Fin 45) : State :=
      thermalLevels (domUnit d.val) deci.toInt 900 (followSwing d deci (s.modPw (fun p => { p with temps := p.temps.set d deci, sensed := true })))
    match unit with
    | .domain d => logic (d.castLE (by omega : 44 ≤ 45))
    | .aon => logic 44
    | .stack n => thermalLevels (stackUnit n) deci.toInt 800 (s.modPw (fun p => { p with stackTemps := p.stackTemps.set n deci, sensed := true })))

/-- HWTRIP (R506): every stage-2 regulator except VAON turns off and THERMTRIP_N asserts; the I3C endpoint records it. -/
def execHwtrip (s : State) : Out :=
  .next (
    let s := ((List.range 44).filter (fun d => s.domain d)).foldl cutDomain s
    let r : Report := { unit := aonUnit, cls := 0x10, stage := s.stageNumber, detail := 0x0003, job := 0xFFFF, joined := [] }
    tellBmc r (s.modPw (fun p => { p with hwtrip := true, thermtrip := true, pend := none })))

end Sys2Proof.Machine
end

