-- ==== Sys2Proof/Machine/Bmc.lean ====
section
/-! DEFINITION. Board management over I3C (R512, R513) and the boundary-scan port (R514). -/

namespace Sys2Proof.Machine

/-- The endpoint answers while its always-on domain is powered (R513). -/
def answer (f : Bmc → Bmc) (s : State) : State := if s.pw.inputOn then { s with bmc := f s.bmc } else s

/-- An answer that changes nothing else. -/
def reply (r : BmcResp) (s : State) : State := answer (fun b => { b with resp := r }) s

/-- MCTP_CONTROL_MESSAGE (R512): message types other than control are unsupported here; PLDM (type 1) has its own commands. -/
def execMctpControlMessage (type_ : BitVec 8) (cmd : McKind) (arg : Byte) (s : State) : Out :=
  .next (
    if type_ = 1 then s
    else if type_ ≠ 0 then reply .unsupported s
    else match cmd with
    | .setEid => answer (fun b => { b with eid := arg, resp := .done }) s
    | .getEid => reply (.eid s.bmc.eid) s
    | .getVersion => reply .version s
    | .getTypes => reply (.types [0, 1]) s
    | .getUuid => reply (.uuid Config.endpointUuid) s
    | .other => reply .unsupported s)

/-- I3C_DYNAMIC_ADDRESS (R512): SETDASA names the static address 0x3A. -/
def execI3cDynamicAddress (setdasa : Bool) (static_ addr : BitVec 7) (s : State) : Out :=
  .next (if setdasa && static_ != 0x3A then s else answer (fun b => { b with dynAddr := some addr }) s)

/-- GETTID_SETTID (R513). -/
def execGettidSettid (set : Option Byte) (s : State) : Out :=
  .next (match set with
    | some t => answer (fun b => { b with tid := t, resp := .done }) s
    | none => reply (.tid s.bmc.tid) s)

/-- GETPLDMVERSION_TYPES_COMMANDS (R513). -/
def execGetpldmversionTypesCommands (which : Fin 3) (s : State) : Out := .next (reply (.pldm which) s)

/-- One record for each numeric sensor, state sensor and effecter of R513: 75 and 45 and 1. -/
def pdrCount : Nat := 121

/-- GETPDRREPOSITORYINFO_GETPDR (R513). -/
def execGetpdrrepositoryinfoGetpdr (handle : Option Nat) (s : State) : Out :=
  .next (match handle with
    | none => reply (.repositoryInfo pdrCount) s
    | some h => reply (if h < pdrCount then .pdr h else .unsupported) s)

/-- Value of a numeric sensor (R497, R505, R513). -/
def sensorValue (x : SensorId) (s : State) : Int :=
  let wear (lo : Nat) : Int := (fieldN ((deviceWear s).getD 1 0) lo 16 : Nat)
  match x with
  | .inputV => s.pw.volts.toNat
  | .inputI => s.pw.amps.toNat
  | .inputP => s.pw.watts.toNat
  | .hotspot d => (s.pw.temps[d.castLE (by omega : 44 ≤ 45)]).toInt
  | .hotspotAon => (s.pw.temps[(44 : Fin 45)]).toInt
  | .stackTemp n => (s.pw.stackTemps[n]).toInt
  | .wearLow => wear 48
  | .wearEst => wear 32
  | .wearHigh => wear 16

/-- GETSENSORREADING (R513). -/
def execGetsensorreading (x : SensorId) (s : State) : Out := .next (reply (.reading (sensorValue x s)) s)

/-- GETSTATESENSORREADINGS (R513): the state of a domain, or TH_STAT.LEVEL. -/
def execGetstatesensorreadings (dom : Option (Fin 44)) (s : State) : Out :=
  .next (match dom with
    | some d => reply (.states [BitVec.ofNat 4 (domCode s d.val)]) s
    | none => reply (.states [(thStat s).extractLsb' 60 4]) s)

/-- SETNUMERICEFFECTERVALUE (R513): 0 or 400-2,800 W; another value is refused. -/
def execSetnumericeffectervalue (watts : BitVec 16) (s : State) : Out :=
  .next (
    if !s.pw.inputOn then s
    else if watts = 0 ∨ (400 ≤ watts.toNat ∧ watts.toNat ≤ 2800) then reply .done (s.modPw (fun p => { p with bmcLimit := watts }))
    else reply .unsupported s)

/-- GETNUMERICEFFECTERVALUE (R513). -/
def execGetnumericeffectervalue (s : State) : Out := .next (reply (.effecter s.pw.bmcLimit) s)

/-- SETEVENTRECEIVER (R513). -/
def execSeteventreceiver (eid : Byte) (s : State) : Out := .next (answer (fun b => { b with receiver := some eid, resp := .done }) s)

/-- The oldest event leaves; ALERT_N stays asserted while events wait (R512). -/
def pollEvent (b : Bmc) : Bmc :=
  match b.events with
  | [] => { b with resp := .none, alert := false }
  | r :: rest => { b with resp := .event r, events := rest, alert := !rest.isEmpty }

/-- POLLFORPLATFORMEVENTMESSAGE (R513). -/
def execPollforplatformeventmessage (s : State) : Out := .next (answer pollEvent s)

/-- PLATFORMEVENTMESSAGE (R513): the oldest event goes to the event receiver, once one is set. -/
def execPlatformeventmessage (s : State) : Out :=
  .next (if s.bmc.receiver.isSome && !s.bmc.events.isEmpty then answer pollEvent s else s)

/-! Boundary scan (R514). -/

def modJtag (f : Jtag → Jtag) (s : State) : State := { s with jtag := f s.jtag }

/-- IDCODE of R514. -/
def idcodeWord : BitVec 32 := 0x10848B93

/-- BYPASS: a single 0 stands between TDI and TDO. -/
def selectBypass (s : State) : State := modJtag (fun j => { j with ir := .bypass, captured := 0 }) s

/-- BYPASS (R514). -/
def execBypass (s : State) : Out := .next (selectBypass s)
/-- IDCODE (R514). -/
def execIdcode (s : State) : Out := .next (modJtag (fun j => { j with ir := .idcode, captured := idcodeWord }) s)
/-- SAMPLE_PRELOAD (R514). -/
def execSamplePreload (preload : List Bool) (s : State) : Out := .next (modJtag (fun j => { j with ir := .samplePreload, boundary := preload }) s)

/-- Instructions that are supported only while POR_N is asserted; else their code selects BYPASS (R514). -/
def porOnly (ir : JtagIr) (s : State) : State := if s.su.porLow then modJtag (fun j => { j with ir := ir }) s else selectBypass s

/-- EXTEST (R514). -/
def execExtest (s : State) : Out := .next (porOnly .extest s)
/-- HIGHZ (R514). -/
def execHighz (s : State) : Out := .next (porOnly .highz s)
/-- CLAMP (R514). -/
def execClamp (s : State) : Out := .next (porOnly .clamp s)
/-- TRST_N (R514): the port resets; IDCODE is then in force, as IEEE 1149.1 has it where a device has the instruction. -/
def execTrstN (s : State) : Out := .next (modJtag (fun j => { j with ir := .idcode, captured := idcodeWord }) s)

end Sys2Proof.Machine
end

