-- ==== Sys2Proof/Machine/Control.lean ====
section
/-! DEFINITION. CLASS 0x2: skips and jumps (R180, R181). -/

namespace Sys2Proof.Machine

/-- Condition code of a skip. -/
def skipCond (i : W64) : Nat := immN i 26 4

/-- Encoding of a skip: codes 0xC-0xF are reserved, and the bits a condition does not use are zero (R180). -/
def skipLegal (i : W64) : Bool :=
  let k := skipCond i
  noDest i && noS3 i &&
    (if k ≤ 5 then immZero i 0 26
     else if k ≤ 7 then noS2 i && immZero i 6 20
     else if k ≤ 0xB then noS2 i && immZero i 20 6
     else false)

/-- Whether a skip's condition is true (R180). -/
def skipTrue (i : W64) (a b : W64) : Bool :=
  let k := skipCond i
  let m := imm20 i
  if k = 0 then a == b
  else if k = 1 then a != b
  else if k = 2 then a.slt b
  else if k = 3 then !a.slt b
  else if k = 4 then a.ult b
  else if k = 5 then !a.ult b
  else if k = 6 then a.getLsbD (immN i 0 6)
  else if k = 7 then !a.getLsbD (immN i 0 6)
  else if k = 8 then a == m
  else if k = 9 then a != m
  else if k = 0xA then a.slt m
  else !a.slt m

/-- SKIP (R180). -/
def execSkip (w : WellId) (i : W64) (s : State) : Out :=
  issue w i { mnemonic := "SKIP", cls := 2, lo := 0x001, hi := 0x001, legal := skipLegal }
    (fun c => { reads := gRefs c (wS1 i :: if skipCond i ≤ 5 then [wS2 i] else []), writes := [], opens := false })
    (fun s =>
      let c := s.cpu w
      let t := skipTrue i (c.rd (wS1 i)) (c.rd (wS2 i))
      .done (s.modCpu w (fun c => { c with skipNext := t }))) s

/-- Whether a jump target is one (R181). -/
def targetOk (t : W64) : Bool := fieldN t 0 3 == 0 && fieldN t 56 8 == 0

/-- A jump: FETCH_ADDR at the jump, or the link written and the pc moved (R181). -/
def jumpTo (w : WellId) (t : W64) (link : Option (Fin 32)) (s : State) : CpuRes :=
  if !targetOk t then .fault 0x04 t s
  else
    let next : W64 := (s.cpu w).pc.setWidth 64 + 8
    .jump (match link with | some d => setG w d next s | none => s) (t.truncate 56)

/-- PC + 8 * sext(imm[29:0]) (R181). -/
def relTarget (c : Windlass) (i : W64) : W64 := c.pc.setWidth 64 + (imm30 i <<< 3)

/-- J (R181). -/
def execJ (w : WellId) (i : W64) (s : State) : Out :=
  issue w i { mnemonic := "J", cls := 2, lo := 0x010, hi := 0x010, legal := fun i => noDest i && noS1 i && noS2 i && noS3 i }
    (fun _ => Uses.none) (fun s => jumpTo w (relTarget (s.cpu w) i) none s) s

/-- JAL (R181). -/
def execJal (w : WellId) (i : W64) (s : State) : Out :=
  issue w i { mnemonic := "JAL", cls := 2, lo := 0x011, hi := 0x011, legal := fun i => noS1 i && noS2 i && noS3 i }
    (fun c => { reads := [], writes := gRefs c [wDest i], opens := false })
    (fun s => jumpTo w (relTarget (s.cpu w) i) (some (wDest i)) s) s

/-- JR (R181): gs1 is read before the link is written. -/
def execJr (w : WellId) (i : W64) (s : State) : Out :=
  issue w i { mnemonic := "JR", cls := 2, lo := 0x012, hi := 0x012, legal := fun i => noS2 i && noS3 i && immZero i 20 10 }
    (fun c => { reads := gRefs c [wS1 i], writes := gRefs c [wDest i], opens := false })
    (fun s => jumpTo w ((s.cpu w).rd (wS1 i) + imm20 i) (some (wDest i)) s) s

end Sys2Proof.Machine
end

