-- ==== Sys2Proof/Machine/DjQ.lean ====
section
/-! DEFINITION. CLASS 0x4, the DJ-Q short-vector instructions (R163, R198-R200). -/

namespace Sys2Proof.Machine

/-- Fields of the CLASS 0x4 immediate (R198). -/
def qEw (i : W64) : Nat := immN i 28 2
def qFalt (i : W64) : Bool := bitB i 27
def qRm (i : W64) : Nat := immN i 24 3
def qSat (i : W64) : Bool := bitB i 23
def qDf (i : W64) : Nat := immN i 19 4
def qSf (i : W64) : Nat := immN i 15 4
def qSh (i : W64) : Nat := immN i 0 6

/-- Element width in bits and element count. -/
def ewBits (ew : Nat) : Nat := 8 * 2 ^ ew
def ewCount (ew : Nat) : Nat := 16 / 2 ^ ew

/-- Element k of a q value at a width, and a q value from its elements. -/
def qElem (q : BitVec 128) (width k : Nat) : Nat := q.toNat / 2 ^ (width * k) % 2 ^ width
def qJoin (width : Nat) (l : List Nat) : BitVec 128 := BitVec.ofNat 128 (l.foldr (fun v acc => v % 2 ^ width + 2 ^ width * acc) 0)

/-- q registers in the dest, src1 and src2 fields have bit 4 clear (R160). -/
def q3 (i : W64) : Bool := qOk (wDest i) && qOk (wS1 i) && qOk (wS2 i) && noS3 i
def q2 (i : W64) : Bool := qOk (wDest i) && qOk (wS1 i) && noS2 i && noS3 i

/-- FALT and width of a floating instruction (R198, R199). -/
def qFltOk (i : W64) : Bool := qEw i != 0 && (!qFalt i || qEw i == 1)
/-- A rounding field that is not reserved (R44). -/
def rmOk (rm : Nat) : Bool := decide (rm ≤ 4)

/-- The format that EW and FALT name. -/
def qFmt (i : W64) : Fmt := if qEw i = 1 then (if qFalt i then .bf16 else .fp16) else if qEw i = 2 then .fp32 else .fp64

/-- Uses: q sources and destination. -/
def qUses (i : W64) (srcs : List (Fin 32)) (_ : Windlass) : Uses :=
  { reads := srcs.map (fun n => .q (qReg n)), writes := [.q (qReg (wDest i))], opens := false }

/-- Element-wise q operation without flags. -/
def qMap2 (width : Nat) (f : Nat → Nat → Nat) (a b : BitVec 128) : BitVec 128 :=
  qJoin width ((List.range (128 / width)).map (fun k => f (qElem a width k) (qElem b width k)))

/-- A q instruction with two q sources and no flags. -/
def qIssue2 (mn : String) (lo hi : Nat) (legal : W64 → Bool) (f : W64 → BitVec 128 → BitVec 128 → BitVec 128)
    (w : WellId) (i : W64) (s : State) : Out :=
  issue w i { mnemonic := mn, cls := 4, lo := lo, hi := hi, legal := fun i => q3 i && legal i } (qUses i [wS1 i, wS2 i])
    (fun s => let c := s.cpu w
      .done (setQ w (qReg (wDest i)) (f i c.q[qReg (wS1 i)] c.q[qReg (wS2 i)]) s)) s

/-- Integer extremes on width-bit numbers: min, max, minu, maxu by k = 0..3 (R199, R133). -/
def extremeN (width k a b : Nat) : Nat :=
  match k with
  | 0 => if signedN width b < signedN width a then b else a
  | 1 => if signedN width a < signedN width b then b else a
  | 2 => if b < a then b else a
  | _ => if a < b then b else a

/-- Shifts on width-bit numbers: sll, srl, sra by k = 0..2. -/
def shiftN (width k a n : Nat) : Nat :=
  match k with
  | 0 => a * 2 ^ n % 2 ^ width
  | 1 => a / 2 ^ n
  | _ => wrapN width (signedN width a / ((2 ^ n : Nat) : Int))

/-- QADD_QSUB_QMUL (R199). -/
def execQaddQsubQmul (w : WellId) (i : W64) (s : State) : Out :=
  qIssue2 "QADD_QSUB_QMUL" 0x001 0x003 (fun i => immZero i 0 28)
    (fun i => let n := ewBits (qEw i); qMap2 n (fun a b =>
      if wOp i = 0x001 then (a + b) % 2 ^ n else if wOp i = 0x002 then (a + 2 ^ n - b) % 2 ^ n else a * b % 2 ^ n)) w i s

/-- QMIN_QMAX_QMINU_QMAXU (R199). -/
def execQminQmaxQminuQmaxu (w : WellId) (i : W64) (s : State) : Out :=
  qIssue2 "QMIN_QMAX_QMINU_QMAXU" 0x004 0x007 (fun i => immZero i 0 28)
    (fun i => let n := ewBits (qEw i); qMap2 n (extremeN n (wOp i - 4))) w i s

/-- QAND_QOR_QXOR (R199). -/
def execQandQorQxor (w : WellId) (i : W64) (s : State) : Out :=
  qIssue2 "QAND_QOR_QXOR" 0x008 0x00A (fun i => immZero i 0 30)
    (fun i a b => if wOp i = 0x008 then a &&& b else if wOp i = 0x009 then a ||| b else a ^^^ b) w i s

/-- QSLL_QSRL_QSRA (R199): per element by SH mod EW. -/
def execQsllQsrlQsra (w : WellId) (i : W64) (s : State) : Out :=
  issue w i { mnemonic := "QSLL_QSRL_QSRA", cls := 4, lo := 0x00B, hi := 0x00D, legal := fun i => q2 i && immZero i 6 22 }
    (qUses i [wS1 i])
    (fun s => let n := ewBits (qEw i)
      .done (setQ w (qReg (wDest i)) (qMap2 n (fun a _ => shiftN n (wOp i - 0x00B) a (qSh i % n)) (s.cpu w).q[qReg (wS1 i)] 0) s)) s

/-- Flags of an issued DJ-Q floating instruction wait for its completion (R200). -/
def pendQ (w : WellId) (fl : BitVec 6) (s : State) : State := s.modCpu w (fun c => { c with djq := c.djq ++ [fl] })

/-- Results and ORed flags of an element-wise floating operation. -/
def qFloat (width : Nat) (f : Nat → Nat × BitVec 6) : BitVec 128 × BitVec 6 :=
  let rs := (List.range (128 / width)).map f
  (qJoin width (rs.map (·.1)), rs.foldl (fun acc r => acc ||| r.2) 0)

/-- A floating q instruction writing qd. -/
def qFloatIssue (mn : String) (lo hi : Nat) (legal : W64 → Bool) (srcs : W64 → List (Fin 32))
    (f : W64 → Windlass → BitVec 128 × BitVec 6) (w : WellId) (i : W64) (s : State) : Out :=
  issue w i { mnemonic := mn, cls := 4, lo := lo, hi := hi, legal := legal } (qUses i (srcs i))
    (fun s => let r := f i (s.cpu w)
      .done (pendQ w r.2 (setQ w (qReg (wDest i)) r.1 s))) s

/-- Encoding of the floating two-operand form; `qfsqrt` reads qs1 only. -/
def qArithLegal (i : W64) : Bool :=
  (if wOp i = 0x014 then q2 i else q3 i) && qFltOk i && rmOk (qRm i) && immZero i 0 24

/-- QFADD_QFSUB_QFMUL_QFDIV_QFSQRT (R199). -/
def execQfaddQfsubQfmulQfdivQfsqrt (w : WellId) (i : W64) (s : State) : Out :=
  qFloatIssue "QFADD_QFSUB_QFMUL_QFDIV_QFSQRT" 0x010 0x014 qArithLegal (fun i => if wOp i = 0x014 then [wS1 i] else [wS1 i, wS2 i])
    (fun i c => let n := ewBits (qEw i)
      qFloat n (fun k => arithOp (qFmt i) (resolveRm (qRm i) c.eff.frm) (wOp i - 0x010)
        (qElem c.q[qReg (wS1 i)] n k) (qElem c.q[qReg (wS2 i)] n k))) w i s

/-- QFMA (R199). -/
def execQfma (w : WellId) (i : W64) (s : State) : Out :=
  qFloatIssue "QFMA" 0x015 0x015 (fun i => q3 i && qFltOk i && rmOk (qRm i) && immZero i 0 24)
    (fun i => [wS1 i, wS2 i, wDest i])
    (fun i c => let n := ewBits (qEw i)
      qFloat n (fun k => fmaOp (qFmt i) (resolveRm (qRm i) c.eff.frm) false false (qElem c.q[qReg (wS1 i)] n k)
        (qElem c.q[qReg (wS2 i)] n k) (qElem c.q[qReg (wDest i)] n k))) w i s

/-- QFMIN_QFMAX (R199, R82). -/
def execQfminQfmax (w : WellId) (i : W64) (s : State) : Out :=
  qFloatIssue "QFMIN_QFMAX" 0x016 0x017 (fun i => q3 i && qFltOk i && immZero i 0 27) (fun i => [wS1 i, wS2 i])
    (fun i c => let n := ewBits (qEw i)
      qFloat n (fun k => minMaxOp (qFmt i) (wOp i == 0x017) (qElem c.q[qReg (wS1 i)] n k) (qElem c.q[qReg (wS2 i)] n k))) w i s

/-- QFEQ_QFLT_QFLE (R199): gd bit k is the result for element k. -/
def execQfeqQfltQfle (w : WellId) (i : W64) (s : State) : Out :=
  issue w i { mnemonic := "QFEQ_QFLT_QFLE", cls := 4, lo := 0x018, hi := 0x01A,
              legal := fun i => qOk (wS1 i) && qOk (wS2 i) && noS3 i && qFltOk i && immZero i 0 27 }
    (fun c => { reads := [.q (qReg (wS1 i)), .q (qReg (wS2 i))], writes := gRefs c [wDest i], opens := false })
    (fun s => let c := s.cpu w
      let n := ewBits (qEw i)
      let rs := (List.range (ewCount (qEw i))).map (fun k =>
        compareOp (qFmt i) (wOp i - 0x018) (qElem c.q[qReg (wS1 i)] n k) (qElem c.q[qReg (wS2 i)] n k))
      let v := rs.foldr (fun r acc => (if r.1 then 1 else 0) + 2 * acc) 0
      .done (pendQ w (rs.foldl (fun a r => a ||| r.2) 0) (setG w (wDest i) (w64 v) s))) s

/-- Encoding of `qcvt` (R199): formats of R135 but MXINT8, different, EW the wider width and not 8. -/
def qcvtLegal (i : W64) : Bool :=
  match Fmt.ofCode (qDf i), Fmt.ofCode (qSf i) with
  | some d, some f => q2 i && d != f && d != .mxint8 && f != .mxint8 && qEw i != 0 && !qFalt i && rmOk (qRm i) &&
      ewBits (qEw i) == max d.bits f.bits && immZero i 0 15
  | _, _ => false

/-- QCVT (R199). -/
def execQcvt (w : WellId) (i : W64) (s : State) : Out :=
  qFloatIssue "QCVT" 0x020 0x020 qcvtLegal (fun i => [wS1 i])
    (fun i c =>
      let d := (Fmt.ofCode (qDf i)).getD .fp64
      let f := (Fmt.ofCode (qSf i)).getD .fp64
      let rs := (List.range (ewCount (qEw i))).map (fun k =>
        convertF f d (resolveRm (qRm i) c.eff.frm) (qSat i) (qElem c.q[qReg (wS1 i)] f.bits k))
      (qJoin d.bits (rs.map (·.1)), rs.foldl (fun a r => a ||| r.2) 0)) w i s

/-- QPERM (R199). -/
def execQperm (w : WellId) (i : W64) (s : State) : Out :=
  qIssue2 "QPERM" 0x021 0x021 (fun i => immZero i 0 30)
    (fun _ a b => qJoin 8 ((List.range 16).map (fun k =>
      let x := qElem b 8 k
      if x / 128 % 2 = 1 then 0 else qElem a 8 (x % 16)))) w i s

/-- QSPLAT (R199). -/
def execQsplat (w : WellId) (i : W64) (s : State) : Out :=
  issue w i { mnemonic := "QSPLAT", cls := 4, lo := 0x022, hi := 0x022,
              legal := fun i => qOk (wDest i) && noS2 i && noS3 i && immZero i 0 28 }
    (fun c => { reads := gRefs c [wS1 i], writes := [.q (qReg (wDest i))], opens := false })
    (fun s => let n := ewBits (qEw i)
      .done (setQ w (qReg (wDest i)) (qJoin n (List.replicate (ewCount (qEw i)) ((s.cpu w).rd (wS1 i)).toNat)) s)) s

/-- Encoding of `qput` and `qget`: LANE below the element count (R199). -/
def laneOk (i : W64) : Bool := decide (qSh i < ewCount (qEw i)) && noS2 i && noS3 i && immZero i 6 22

/-- QPUT (R199). -/
def execQput (w : WellId) (i : W64) (s : State) : Out :=
  issue w i { mnemonic := "QPUT", cls := 4, lo := 0x023, hi := 0x023, legal := fun i => qOk (wDest i) && laneOk i }
    (fun c => { reads := .q (qReg (wDest i)) :: gRefs c [wS1 i], writes := [.q (qReg (wDest i))], opens := false })
    (fun s => let c := s.cpu w
      let n := ewBits (qEw i)
      .done (setQ w (qReg (wDest i)) (qJoin n ((List.range (ewCount (qEw i))).map (fun k =>
        if k = qSh i then (c.rd (wS1 i)).toNat else qElem c.q[qReg (wDest i)] n k))) s)) s

/-- QGET (R199). -/
def execQget (w : WellId) (i : W64) (s : State) : Out :=
  issue w i { mnemonic := "QGET", cls := 4, lo := 0x024, hi := 0x024, legal := fun i => qOk (wS1 i) && laneOk i }
    (fun c => { reads := [.q (qReg (wS1 i))], writes := gRefs c [wDest i], opens := false })
    (fun s => .done (setG w (wDest i) (w64 (qElem (s.cpu w).q[qReg (wS1 i)] (ewBits (qEw i)) (qSh i))) s)) s

/-- QMOV (R199). -/
def execQmov (w : WellId) (i : W64) (s : State) : Out :=
  issue w i { mnemonic := "QMOV", cls := 4, lo := 0x025, hi := 0x025, legal := fun i => q2 i && immZero i 0 30 }
    (qUses i [wS1 i])
    (fun s => .done (setQ w (qReg (wDest i)) (s.cpu w).q[qReg (wS1 i)] s)) s

/-- DJQ_COMPLETION (R200): the oldest issued DJ-Q floating instruction completes and its flags are ORed into FFLAGS. -/
def execDjqCompletion (w : WellId) (s : State) : Out :=
  .next (s.modCpu w (fun c => match c.djq with
    | [] => c
    | fl :: r => { c with flags := c.flags ||| fl, djq := r }))

end Sys2Proof.Machine
end

