-- ==== Sys2Proof/Machine/FlumeOps.lean ====
section
/-! DEFINITION. The Flume's registers, issue rules, element checks and memory access (R125-R157). -/

namespace Sys2Proof.Machine

/-- Element i of a vector register at a width in bits (R125). -/
def vElem (v : BitVec 16384) (width i : Nat) : Nat := v.toNat / 2 ^ (width * i) % 2 ^ width

/-- A vector register with the elements that f answers replaced (R131). -/
def vPut (v : BitVec 16384) (width : Nat) (f : Nat → Option Nat) : BitVec 16384 :=
  BitVec.ofNat 16384 ((List.range (16384 / width)).foldr
    (fun i acc => (match f i with | some x => x % 2 ^ width | none => vElem v width i) + 2 ^ width * acc) 0)

/-- A mask register with the bits that f answers replaced. -/
def mPut (m : BitVec 2048) (f : Nat → Option Bool) : BitVec 2048 :=
  BitVec.ofNat 2048 ((List.range 2048).foldr
    (fun i acc => (if (match f i with | some b => b | none => m.getLsbD i) then 1 else 0) + 2 * acc) 0)

/-- Bits [34:30], the mask selector (R132). -/
def maskSel (i : W64) : Nat := fieldN i 30 5
/-- A selector that R132 permits. -/
def selOk (i : W64) : Bool := maskSel i == 0 || decide (16 ≤ maskSel i)
/-- Whether the selector admits element k. -/
def admits (f : Flume) (i : W64) (k : Nat) : Bool :=
  if maskSel i = 0 then true
  else
    let m := f.m.getD (maskSel i % 8) 0
    if maskSel i < 24 then m.getLsbD k else !m.getLsbD k

/-- A mask register named by a 5-bit field (R132). -/
def mOk (n : Fin 32) : Bool := decide (n.val < 8)
def mReg (n : Fin 32) : Fin 8 := Fin.ofNat 8 n.val

/-- SEW in bits, and VLMAX (R126, R128). -/
def sewOf (t : VType) : Nat := 8 * t.ebytes.toNat
def vlmax (t : VType) : Nat := 2048 / t.ebytes.toNat

/-- The floating format of VTYPE (R128). -/
def vFmt (t : VType) : Fmt :=
  match t.ebytes.toNat with
  | 8 => .fp64
  | 4 => .fp32
  | 2 => if t.falt then .bf16 else .fp16
  | _ => if t.falt then .e5m2 else .e4m3

/-- CLASS 0x5 immediate fields (R132). -/
def vVs (i : W64) : Bool := bitB i 29
def vRm (i : W64) : Nat := immN i 26 3
def vSat (i : W64) : Bool := bitB i 25
def vDf (i : W64) : Nat := immN i 21 4
def vSf (i : W64) : Nat := immN i 17 4
def vScl (i : W64) : Fin 32 := reg5 i 12
def vIdx (i : W64) : Nat := immN i 0 11

/-- What a Flume instruction requires of VTYPE and VSTART at issue: whether it is floating (R133) or a memory
instruction, and any condition of its own. -/
structure VNeed where
  fp  : Bool
  mem : Bool
  ok  : VType → Bool

/-- The at-issue fault of a Flume instruction (R126, R130, R133, R153, R156), with its EINFO where the spec gives one: a stopped Flume
raises its fault again. -/
def vIssueFault (c : Windlass) (f : Flume) (need : VNeed) : Option (BitVec 8 × Option W64) :=
  let t := c.eff.vtype
  match f.stopped with
  | some x => some (x.1, some x.2)
  | none =>
    if !t.tset || (need.fp && !decide (2 ≤ t.ebytes.toNat)) || !need.ok t || decide (vlmax t < f.vl.toNat) then some (0x20, none)
    else if !need.mem && f.vstart != 0 then some (0x26, none)
    else none

/-- An at-issue Flume fault. R153 states no EINFO for V_VTYPE and V_VSTART: a free value. -/
def vFault (code : BitVec 8) (info : Option W64) (s : State) : CpuRes :=
  match info with
  | some x => .fault code x s
  | none => .fault code s.takeFree.1 s.takeFree.2

/-- Vector and mask registers that the instruction reads: its sources and the register of its mask selector, which mask logic and `vget`
do not apply (R133). -/
def vReads (i : W64) (regs : List RegRef) : List RegRef :=
  let unused : Bool := wClass i == 5 && (wOp i == 0x082 || decide (0x060 ≤ wOp i ∧ wOp i ≤ 0x064))
  regs ++ if maskSel i = 0 ∨ unused = true then [] else [RegRef.m (Fin.ofNat 8 (maskSel i))]

/-- The first register read that has bad parity (R125, R156). -/
def vParity (c : Windlass) (i : W64) (regs : List RegRef) : Option RegRef := (vReads i regs).find? (fun r => c.badRegs.contains r)

/-- The function unit of an instruction (R133, R134, R138). -/
def vUnit (i : W64) : FUnit :=
  let op := wOp i
  if wClass i = 5 then
    (if op < 0x030 then .fma else if op < 0x040 then .convert else if op < 0x070 then .integer else .permute)
  else if op ≤ 3 ∨ op = 8 then .load else if op ≤ 9 then .store else .permute

/-- Instructions that wait for their vector sources to be complete: reductions, summaries, `vqmx`, `vshift.down`, `vpick`, `vpack`
(R139). -/
def vWhole (i : W64) : Bool :=
  let op := wOp i
  if wClass i = 5 then op == 0x031 || decide (0x070 ≤ op) else op == 0x013 || op == 0x014 || op == 0x015

/-- Vector and mask registers that an instruction writes (R133, R134). -/
def vWrites (i : W64) : List RegRef :=
  let op := wOp i
  let v := RegRef.v (wDest i)
  let m := RegRef.m (mReg (wDest i))
  if wClass i = 5 then
    (if (0x020 ≤ op ∧ op ≤ 0x022) ∨ (0x050 ≤ op ∧ op ≤ 0x064) then [m] else if op = 0x031 then [v, .v (vScl i)] else if 0x070 ≤ op then []
     else [v])
  else if op ≤ 3 ∨ 0x010 ≤ op then [v] else if op = 8 then [m] else []

/-- The window entry of the instruction at the pc (R139): regs are its vector and mask sources. -/
def vEntry (i : W64) (regs : List RegRef) (u : Well) : FlumeEntry :=
  { addr := u.cpu.pc, flags := 0, gdest := none, span := none, err := none, unit := vUnit i, reads := vReads i regs, writes := vWrites i,
    whole := vWhole i, bytes := u.flume.vl.toNat * u.cpu.eff.vtype.ebytes.toNat, seq := u.flume.issued }

/-- An issued Flume instruction enters the window (R139). Its g result is at a later point in program order than one still to come
(R175). -/
def vEnter (w : WellId) (e : FlumeEntry) (s : State) : State :=
  s.modWell w (fun u =>
    let u := match e.gdest with | some d => u.dropLate d.1 d.2.1 | none => u
    { u with flume := { u.flume with window := u.flume.window ++ [e], issued := u.flume.issued + 1 } })

/-- An issued instruction one of whose sources has bad parity (R156): it has no effect but the fault at its completion. -/
def vEnterBad (w : WellId) (i : W64) (regs : List RegRef) (r : RegRef) (s : State) : State :=
  vEnter w { vEntry i regs s.wells[w] with err := some (0x25, w64 r.number) } s

/-- What a Flume instruction computes: new vector and mask registers, flags, and a g result. -/
structure VRes where
  v : Vector (BitVec 16384) 32
  m : Vector (BitVec 2048) 8
  flags : BitVec 6
  g : Option W64

/-- A Flume instruction that is not a memory instruction: at-issue faults, the window, then its results. A parity error in
a source discards them and stops the Flume at completion (R156). -/
def vIssue (mn : String) (cls lo hi : Nat) (legal : W64 → Bool) (gs : W64 → List (Fin 32)) (gd : Bool) (vs : W64 → List RegRef)
    (need : W64 → VNeed) (f : W64 → Windlass → Flume → VRes) (w : WellId) (i : W64) (s : State) : Out :=
  issue w i { mnemonic := mn, cls := cls, lo := lo, hi := hi, legal := fun i => selOk i && legal i }
    (fun c => { reads := gRefs c (gs i), writes := if gd then gRefs c [wDest i] else [], opens := false })
    (fun s =>
      let u := s.wells[w]
      match vIssueFault u.cpu u.flume (need i) with
      | some (code, info) => vFault code info s
      | none =>
        if 8 ≤ u.flume.window.length then .wait .flumeWindow s
        else match vParity u.cpu i (vs i) with
        | some r => .done (vEnterBad w i (vs i) r s)
        | none =>
          let r := f i u.cpu u.flume
          let e : FlumeEntry := { vEntry i (vs i) u with
            flags := r.flags, gdest := if gd then (r.g.map (fun x => (u.cpu.eff.bank, wDest i, x))) else none }
          .done (vEnter w e (s.modFlume w (fun f => { f with v := r.v, m := r.m })))) s

/-- Element k of source 2: the scalar's low SEW bits under VS, else the vector's (R132). -/
def src2Elem (i : W64) (c : Windlass) (f : Flume) (width k : Nat) : Nat :=
  if vVs i then (c.rd (wS2 i)).toNat % 2 ^ width else vElem (f.v[wS2 i]) width k

/-- g sources of an instruction with VS. -/
def vsRegs (i : W64) : List (Fin 32) := if vVs i then [wS2 i] else []
/-- v sources of an instruction with VS. -/
def vsVecs (i : W64) (extra : List (Fin 32)) : List RegRef :=
  ((wS1 i :: extra) ++ if vVs i then [] else [wS2 i]).map RegRef.v

/-- An element-wise result in vd with flags of active elements below VL (R131, R141). -/
def vMap (i : W64) (f : Flume) (width : Nat) (op : Nat → Nat × BitVec 6) : VRes :=
  let n := f.vl.toNat
  let rs := (List.range n).map (fun k => if admits f i k then some (op k) else none)
  { v := f.v.set (wDest i) (vPut f.v[wDest i] width (fun k => match rs.getD k none with | some r => some r.1 | none => none))
    m := f.m
    flags := rs.foldl (fun acc r => match r with | some r => acc ||| r.2 | none => acc) 0
    g := none }

/-- An element-wise Boolean result in md. -/
def vMapMask (i : W64) (f : Flume) (op : Nat → Bool × BitVec 6) : VRes :=
  let n := f.vl.toNat
  let rs := (List.range n).map (fun k => if admits f i k then some (op k) else none)
  { v := f.v
    m := f.m.set (mReg (wDest i)) (mPut f.m[mReg (wDest i)] (fun k => match rs.getD k none with | some r => some r.1 | none => none))
    flags := rs.foldl (fun acc r => match r with | some r => acc ||| r.2 | none => acc) 0
    g := none }

/-- Registers unchanged, a g result and flags. -/
def vScalar (f : Flume) (x : W64) (fl : BitVec 6) : VRes := { v := f.v, m := f.m, flags := fl, g := some x }

/-- Values of the active elements below VL, by index. -/
def activeElems (i : W64) (f : Flume) (width : Nat) : List Nat :=
  ((List.range f.vl.toNat).filter (admits f i)).map (fun k => vElem f.v[wS1 i] width k)

/-! Memory access. -/

/-- Kind of a Flume access: unit stride, strided, indexed, mask bytes. -/
inductive VKind where
  | unit | strided | indexed | mask
  deriving DecidableEq, Repr

/-- A Flume memory instruction's shape: kind, direction, TAG. -/
structure VMem where
  kind  : VKind
  store : Bool
  tag   : Nat

/-- TAG of R148. -/
def vTag (i : W64) : Nat := immN i 28 2

/-- Element size in bytes and element count. -/
def VMem.size (m : VMem) (c : Windlass) : Nat := if m.kind = .mask then 1 else c.eff.vtype.ebytes.toNat
def VMem.count (m : VMem) (f : Flume) : Nat := if m.kind = .mask then (f.vl.toNat + 7) / 8 else f.vl.toNat

/-- Address of element k (R134), modulo 2^64. -/
def VMem.addr (m : VMem) (i : W64) (c : Windlass) (f : Flume) (k : Nat) : Nat :=
  let base := (c.rd (wS1 i)).toNat
  match m.kind with
  | .unit | .mask => (base + k * m.size c) % 2 ^ 64
  | .strided => wrapN 64 ((base : Int) + (k : Int) * (c.rd (wS2 i)).toInt)
  | .indexed => (base + vElem f.v[wS2 i] (8 * m.size c) k) % 2 ^ 64

/-- First and last-plus-one offset of the region that the base register selects (R146, R171): 0 none. -/
def flumeRegion (c : Windlass) (o : Nat) : Option (Nat × Nat) :=
  let ramEnd := if 2 ≤ c.eff.ring.toNat then min 0x71FE00 (c.drlim.toNat * 0x1000) else 0x71FE00
  if o < 0x300000 then some (0, 0x300000)
  else if o < 0x500000 then some (0x300000, 0x500000)
  else if o < 0x700000 then some (0x500000, 0x700000)
  else if o < ramEnd then some (0x700000, ramEnd)
  else none

/-- Check of one element in the order of R147 and R212: the first fault, none when it passes. -/
def vCheck (m : VMem) (i : W64) (u : Well) (k : Nat) : Option (BitVec 8) :=
  let c := u.cpu
  let a := m.addr i c u.flume k
  let n := m.size c
  let tag := if u.st.scoreboard then 0 else m.tag
  match flumeRegion c (c.rd (wS1 i)).toNat with
  | none => some 0x22
  | some r =>
    if decide (a < r.1 ∨ r.2 < a + n) || (tag != 0 && decide (0x700000 ≤ r.1)) then some 0x22
    else if a % n != 0 || (m.kind == .strided && wrapN 64 (c.rd (wS2 i)).toInt % n != 0) then some 0x21
    else if !bankOpenAt u.st a then some 0x23
    else if hitsBusy u.mr a n then some 0x2E
    else none

/-- Slot of a store element. -/
def vSlots (m : VMem) (i : W64) (u : Well) (k : Nat) : List SlotId := slotsOf (m.addr i u.cpu u.flume k) (m.size u.cpu)

/-- The tag use of an access (R148); none when tags are ignored. -/
def VMem.use (m : VMem) (st : Stores) : Option TagUse :=
  if st.scoreboard ∨ m.tag = 0 then none
  else if m.store then some .produce else if m.tag = 1 then some .leaveFull else some .consume

/-- Span that the instruction holds (R148, R151): the byte hull, or the whole region for indexed access. -/
def vSpan (m : VMem) (i : W64) (u : Well) (ks : List Nat) : Option Span :=
  match m.kind with
  | .indexed => (flumeRegion u.cpu (u.cpu.rd (wS1 i)).toNat).map (fun r => mkSpan r.1 (r.2 - r.1) m.store)
  | _ =>
    match ks with
    | [] => none
    | k :: r =>
      let a0 := m.addr i u.cpu u.flume k
      let n := m.size u.cpu
      let lo := r.foldl (fun x j => min x (m.addr i u.cpu u.flume j)) a0
      let hi := r.foldl (fun x j => max x (m.addr i u.cpu u.flume j + n)) (a0 + n)
      some (mkSpan (lo % 2 ^ 24) (hi - lo) m.store)

/-- Where the check phase stops. -/
inductive VStop where
  | pass | fault (code : BitVec 8) (k : Nat) | tag (slot : SlotId) (k : Nat)

/-- The check phase over the active elements in order (R147, R148). -/
def vPhase (m : VMem) (i : W64) (u : Well) : List Nat → VStop
  | [] => .pass
  | k :: r =>
    match vCheck m i u k with
    | some code => .fault code k
    | none =>
      match m.use u.st with
      | none => vPhase m i u r
      | some us =>
        match (vSlots m i u k).find? (fun sl => !tagReady u.st .flume us sl) with
        | some sl => .tag sl k
        | none => vPhase m i u r

/-- Data of element k of a store: the register's element, or a mask byte. -/
def vStoreBytes (m : VMem) (i : W64) (u : Well) (k : Nat) : List Byte :=
  if m.kind = .mask then [(u.flume.m[mReg (wDest i)]).extractLsb' (8 * k) 8]
  else toBytes (m.size u.cpu) (vElem u.flume.v[wDest i] (8 * m.size u.cpu) k)

/-- Elements of a store take effect in order (R149); a run of consecutive unit-stride elements is one access. -/
def vDoStore (w : WellId) (m : VMem) (i : W64) (u : Well) (ks : List Nat) (s : State) : State :=
  let run := (m.kind == .unit || m.kind == .mask) && maskSel i == 0
  if run then
    match ks with
    | [] => s
    | k :: _ => s.writeBytes (wellAddr w (m.addr i u.cpu u.flume k)) (ks.flatMap (vStoreBytes m i u))
  else ks.foldl (fun s k => s.writeBytes (wellAddr w (m.addr i u.cpu u.flume k)) (vStoreBytes m i u k)) s

/-- Elements of a load are written, all but those that meet an uncorrectable word, which keep their values (R147, R251); answers the offset
of the first of these (R156). -/
def vDoLoad (w : WellId) (m : VMem) (i : W64) (u : Well) (ks : List Nat) (s : State) : Option Nat × State :=
  let n := m.size u.cpu
  let bad (k : Nat) : Bool := ueHit s.ue (wellAddr w (m.addr i u.cpu u.flume k)) n
  let val (k : Nat) : Option Nat :=
    if ks.contains k && !bad k then some (ofBytes (s.readBytes (wellAddr w (m.addr i u.cpu u.flume k)) n)) else none
  let s := ks.foldl (fun s k => (eccRead w 1 (m.addr i u.cpu u.flume k) n s).2) s
  let s := s.modFlume w (fun f =>
    if m.kind = .mask then
      { f with m := f.m.set (mReg (wDest i)) (mPut f.m[mReg (wDest i)] (fun b => (val (b / 8)).map (fun x => x / 2 ^ (b % 8) % 2 == 1))) }
    else { f with v := f.v.set (wDest i) (vPut f.v[wDest i] (8 * n) val) })
  ((ks.find? bad).map (m.addr i u.cpu u.flume), s)

/-- The elements ks, which passed their checks, take effect; slots that no later active element touches change their tags
(R148, R154, R239). Answers a bad element's offset. -/
def vEffect (w : WellId) (m : VMem) (i : W64) (u : Well) (ks later : List Nat) (s : State) : Option Nat × State :=
  let s := if ks.isEmpty then s else s.drainAll w
  let r := if m.store then (none, vDoStore w m i u ks s) else vDoLoad w m i u ks s
  let keep := later.flatMap (vSlots m i u)
  let slots := (ks.flatMap (vSlots m i u)).filter (fun k => !keep.contains k)
  (r.1, match m.use u.st with
    | none => r.2
    | some us => r.2.modSt w (fun t => slots.foldl (fun t k => t.useSlot .flume us k) t))

/-- The Flume stops (R153, R156): the code, the address of the instruction and the register or offset concerned; the fault is due. -/
def vStopFlume (w : WellId) (code : BitVec 8) (pc : BitVec 56) (detail : W64) (s : State) : State :=
  s.modWell w (fun u => { u with
    flume := { u.flume with stopped := some (code, pc.setWidth 64), stopDetail := detail }
    cpu := { u.cpu with deferred := u.cpu.deferred ++ [{ code := code, info := pc.setWidth 64 }] } })

/-- A memory instruction stops at element j (R154): the elements of ks take effect, later ones none, and VSTART is j. An uncorrectable word
among the elements that took effect stops the Flume (R153). -/
def vStopAt (w : WellId) (m : VMem) (i : W64) (u : Well) (ks later : List Nat) (j : Nat) (s : State) : State :=
  let r := vEffect w m i u ks later s
  let s := r.2.modFlume w (fun f => { f with vstart := BitVec.ofNat 11 j })
  match r.1 with
  | some o => vStopFlume w 0x24 u.cpu.pc (w64 o) s
  | none => s

/-- Whether the span of an incomplete Flume memory instruction orders this one after it (R151): both overlap and one of them stores. -/
def vOrdered (f : Flume) (sp : Option Span) : Bool :=
  match sp with
  | none => false
  | some a => f.window.any (fun e => match e.span with | some b => spanConflict a b | none => false)

/-- The elements that a check phase goes through before a due interrupt stops it: those of one group of four in an indexed access (R154;
DESIGN CHOICE, log 187). -/
def vGroup (m : VMem) (c : Windlass) (f : Flume) (ks : List Nat) : List Nat :=
  if m.kind = .indexed ∧ interruptDue c = true then ks.filter (fun k => decide (k < 4 * (f.vstart.toNat / 4 + 1))) else ks

/-- Body of a Flume memory instruction (R147-R156, R245, R250). -/
def vMemBody (w : WellId) (m : VMem) (i : W64) (vs : List RegRef) (s : State) : CpuRes := holdPend w s <|
  let u := s.wells[w]
  match vIssueFault u.cpu u.flume { fp := false, mem := true, ok := fun _ => true } with
  | some (code, info) => vFault code info s
  | none =>
    if 8 ≤ u.flume.window.length then .wait .flumeWindow s
    else
      let ks := (List.range (m.count u.flume)).filter (fun k => decide (u.flume.vstart.toNat ≤ k) && (m.kind == .mask || admits u.flume i k))
      if m.count u.flume ≤ u.flume.vstart.toNat then .done (vEnter w (vEntry i vs u) (s.modFlume w (fun f => { f with vstart := 0 })))
      else match vParity u.cpu i vs with
      | some r => .done (vEnterBad w i vs r s)
      | none =>
        let span := vSpan m i u ks
        if !entriesFree s w span.toList then .wait .scoreboard s
        else if vOrdered u.flume span then .wait .flumeSpan s
        else
          let s := noteTagParity w (if (m.use u.st).isSome then ks.flatMap (vSlots m i u) else []) s
          let now := vGroup m u.cpu u.flume ks
          match vPhase m i u now with
          | .fault code j =>
            .fault code (w64 (m.addr i u.cpu u.flume j))
              ((vStopAt w m i u (ks.filter (· < j)) (ks.filter (j ≤ ·)) j s).modSt w (fun t => t.releaseAll .flume))
          | .tag sl j =>
            .wait .tagWait
              ((vStopAt w m i u (ks.filter (· < j)) (ks.filter (j ≤ ·)) j s).modSt w (fun t =>
                t.await .flume ((m.use u.st).getD .leaveFull) sl))
          | .pass =>
            if now.length < ks.length then
              (let j := 4 * (u.flume.vstart.toNat / 4 + 1)
               .wait .flumeCheck (vStopAt w m i u now (ks.filter (j ≤ ·)) j s))
            else
              let r := vEffect w m i u ks [] s
              let e : FlumeEntry := { vEntry i vs u with span := span, err := r.1.map (fun o => (0x24, w64 o)) }
              .done (notePeak w (vEnter w e (r.2.modFlume w (fun f => { f with vstart := 0 }))))

/-- A Flume memory instruction. -/
def vMemIssue (mn : String) (lo hi : Nat) (legal : W64 → Bool) (shape : W64 → VMem) (w : WellId) (i : W64) (s : State) : Out :=
  let m := shape i
  issue w i { mnemonic := mn, cls := 6, lo := lo, hi := hi, legal := legal }
    (fun c => { reads := gRefs c (wS1 i :: if m.kind = .strided then [wS2 i] else []), writes := [], opens := false })
    (vMemBody w m i ((if m.kind = .indexed then [RegRef.v (wS2 i)] else []) ++
      (if m.store then (if m.kind = .mask then [RegRef.m (mReg (wDest i))] else [RegRef.v (wDest i)]) else []))) s

end Sys2Proof.Machine
end

