-- ==== Sys2Proof/Machine/FlumeArith.lean ====
section
/-! DEFINITION. CLASS 0x5, long-vector arithmetic, conversion, reduction and mask logic (R129-R145). -/

namespace Sys2Proof.Machine

/-- SETVL (R129, R130, R156). Within an open VTYPE window it runs whatever the new VL is (DESIGN CHOICE, log 183), and VSTART does not stop
it (log 22). -/
def execSetvl (w : WellId) (i : W64) (s : State) : Out :=
  issue w i { mnemonic := "SETVL", cls := 5, lo := 0x001, hi := 0x001,
              legal := fun i => noS2 i && noS3 i && immZero i 9 21 && immZero i 4 4 &&
                (immN i 0 4 == 1 || immN i 0 4 == 2 || immN i 0 4 == 4 || immN i 0 4 == 8) && !(bitB i 8 && decide (4 ≤ immN i 0 4)) }
    (fun c => { reads := gRefs c [wS1 i], writes := gRefs c [wDest i], opens := true })
    (fun s => match s.wells[w].flume.stopped with
    | some x => .fault x.1 x.2 s
    | none =>
      let c := s.cpu w
      let t : VType := { tset := true, falt := bitB i 8, ebytes := i.extractLsb' 0 4 }
      let vl := if wS1 i = 0 then vlmax t else min (c.rd (wS1 i)).toNat (vlmax t)
      let s := (setG w (wDest i) (w64 vl) s).modFlume w (fun f => { f with vl := BitVec.ofNat 12 vl })
      .done (s.modCpu w (fun c => if c.wr.vtype = t then c else c.openMode (.vtype t)))) s

/-- Floating element-wise instructions need SEW 16, 32 or 64 (R133). -/
def fpNeed : VNeed := { fp := true, mem := false, ok := fun _ => true }
/-- No need of VTYPE beyond TSET. -/
def anyNeed : VNeed := { fp := false, mem := false, ok := fun _ => true }

/-- Rounding in force for an instruction (R44, R137). -/
def vRmOf (i : W64) (c : Windlass) : Nat := resolveRm (vRm i) c.eff.frm

/-- src2 is a v or g register; bits [25:0] zero. -/
def fpLegal (i : W64) : Bool := rmOk (vRm i) && immZero i 0 26

/-- VFADD_VFSUB_VFMUL_VFDIV_VFSQRT (R133, R81). -/
def execVfaddVfsubVfmulVfdivVfsqrt (w : WellId) (i : W64) (s : State) : Out :=
  vIssue "VFADD_VFSUB_VFMUL_VFDIV_VFSQRT" 5 0x010 0x014
    (fun i => fpLegal i && (wOp i != 0x014 || (noS2 i && !vVs i)))
    vsRegs false (fun i => if wOp i = 0x014 then [RegRef.v (wS1 i)] else vsVecs i []) (fun _ => fpNeed)
    (fun i c f => let n := sewOf c.eff.vtype
      vMap i f n (fun k => arithOp (vFmt c.eff.vtype) (vRmOf i c) (wOp i - 0x010) (vElem f.v[wS1 i] n k) (src2Elem i c f n k))) w i s

/-- vs1 x vs2 with vd as addend. -/
def vFmaRow (mn : String) (op : Nat) (negP negC : Bool) (w : WellId) (i : W64) (s : State) : Out :=
  vIssue mn 5 op op fpLegal vsRegs false (fun i => vsVecs i [wDest i]) (fun _ => fpNeed)
    (fun i c f => let n := sewOf c.eff.vtype
      vMap i f n (fun k => fmaOp (vFmt c.eff.vtype) (vRmOf i c) negP negC (vElem f.v[wS1 i] n k) (src2Elem i c f n k)
        (vElem f.v[wDest i] n k))) w i s

/-- VFMA: vs1 x vs2 + vd (R133). -/
def execVfma (w : WellId) (i : W64) (s : State) : Out := vFmaRow "VFMA" 0x015 false false w i s
/-- VFMS: vs1 x vs2 - vd (R133). -/
def execVfms (w : WellId) (i : W64) (s : State) : Out := vFmaRow "VFMS" 0x016 false true w i s
/-- VFNMA: -(vs1 x vs2) + vd (R133). -/
def execVfnma (w : WellId) (i : W64) (s : State) : Out := vFmaRow "VFNMA" 0x017 true false w i s

/-- VFMIN_VFMAX (R82). -/
def execVfminVfmax (w : WellId) (i : W64) (s : State) : Out :=
  vIssue "VFMIN_VFMAX" 5 0x018 0x019 (fun i => immZero i 0 29) vsRegs false (fun i => vsVecs i []) (fun _ => fpNeed)
    (fun i c f => let n := sewOf c.eff.vtype
      vMap i f n (fun k => minMaxOp (vFmt c.eff.vtype) (wOp i == 0x019) (vElem f.v[wS1 i] n k) (src2Elem i c f n k))) w i s

/-- VFSIGN_COPY_NEG_XOR (R133): bits are copied. -/
def execVfsignCopyNegXor (w : WellId) (i : W64) (s : State) : Out :=
  vIssue "VFSIGN_COPY_NEG_XOR" 5 0x01A 0x01C (fun i => immZero i 0 29) vsRegs false (fun i => vsVecs i []) (fun _ => fpNeed)
    (fun i c f => let n := sewOf c.eff.vtype
      vMap i f n (fun k =>
        let a := vElem f.v[wS1 i] n k
        let b := src2Elem i c f n k
        let sa := a / 2 ^ (n - 1)
        let sb := b / 2 ^ (n - 1)
        let sg := if wOp i = 0x01A then sb else if wOp i = 0x01B then 1 - sb else (sa + sb) % 2
        (a % 2 ^ (n - 1) + sg * 2 ^ (n - 1), 0))) w i s

/-- VFEQ_VFLT_VFLE (R82): writes mask md. -/
def execVfeqVfltVfle (w : WellId) (i : W64) (s : State) : Out :=
  vIssue "VFEQ_VFLT_VFLE" 5 0x020 0x022 (fun i => mOk (wDest i) && immZero i 0 29) vsRegs false (fun i => vsVecs i []) (fun _ => fpNeed)
    (fun i c f => let n := sewOf c.eff.vtype
      vMapMask i f (fun k => compareOp (vFmt c.eff.vtype) (wOp i - 0x020) (vElem f.v[wS1 i] n k) (src2Elem i c f n k))) w i s

/-- Formats of `vcvt` (R135). -/
def vcvtLegal (i : W64) : Bool :=
  match Fmt.ofCode (vDf i), Fmt.ofCode (vSf i) with
  | some d, some f => d != f && d != .mxint8 && f != .mxint8 && rmOk (vRm i) && noS2 i && !vVs i && immZero i 0 17
  | _, _ => false

/-- Format named by a code. -/
def fmtOr (k : Nat) : Fmt := (Fmt.ofCode k).getD .fp64

/-- VCVT (R135): SEW must be the width of the wider format. -/
def execVcvt (w : WellId) (i : W64) (s : State) : Out :=
  vIssue "VCVT" 5 0x030 0x030 vcvtLegal (fun _ => []) false (fun i => [RegRef.v (wS1 i)])
    (fun i => { fp := false, mem := false, ok := fun t => sewOf t == max (fmtOr (vDf i)).bits (fmtOr (vSf i)).bits })
    (fun i c f =>
      let d := fmtOr (vDf i)
      let sf := fmtOr (vSf i)
      vMap i f d.bits (fun k => convertF sf d (vRmOf i c) (vSat i) (vElem f.v[wS1 i] sf.bits k))) w i s

/-- Encoding of `vqmx` (R136): a known format code, and a scale register that is neither vd nor vs1. -/
def vqmxLegal (i : W64) : Bool :=
  (Fmt.ofCode (vDf i)).isSome && rmOk (vRm i) && noS2 i && !vVs i && !vSat i && vSf i == 0 && immZero i 0 12 &&
    vScl i != wDest i && vScl i != wS1 i

/-- `vqmx` writes E4M3, E5M2, E2M1 or MXINT8 elements; another format is not permitted and raises V_VTYPE (R136, R153). -/
def vqmxNeed (i : W64) : VNeed :=
  { fp := false, mem := false, ok := fun _ => (fmtOr (vDf i) ∈ [Fmt.e4m3, .e5m2, .e2m1, .mxint8] : Bool) }

/-- VQMX (R136, R53): blocks of 32; masked-off and tail elements take part as zeros. -/
def execVqmx (w : WellId) (i : W64) (s : State) : Out :=
  vIssue "VQMX" 5 0x031 0x031 vqmxLegal (fun _ => []) false (fun i => [RegRef.v (wS1 i)]) vqmxNeed
    (fun i c f =>
      let n := sewOf c.eff.vtype
      let src := vFmt c.eff.vtype
      let d := fmtOr (vDf i)
      let vl := f.vl.toNat
      let live (k : Nat) : Bool := decide (k < vl) && admits f i k
      let rd (k : Nat) : FVal × BitVec 6 := if live k then readF src (vElem f.v[wS1 i] n k) else (.zero false, 0)
      let blocks := (List.range ((vl + 31) / 32)).map (fun b => mxQuantise d (vRmOf i c) ((List.range 32).map (fun k => (rd (32 * b + k)).1)))
      let el (k : Nat) : Nat × BitVec 6 := ((blocks.getD (k / 32) (0, [], 0)).2.1).getD (k % 32) (0, 0)
      let v1 := f.v.set (wDest i) (vPut f.v[wDest i] d.bits (fun k => if live k then some (el k).1 else none))
      let v2 := v1.set (vScl i) (vPut v1[vScl i] 8 (fun b => if b < blocks.length then some (blocks.getD b (0, [], 0)).1.toNat else none))
      let fl := (List.range vl).foldl (fun acc k => if live k then acc ||| (rd k).2 ||| (rd k).1.nvIn ||| (el k).2 else acc) 0
      { v := v2, m := f.m, flags := blocks.foldl (fun acc b => acc ||| b.2.2) fl, g := none }) w i s

/-- An element-wise integer instruction. -/
def vIntRow (mn : String) (lo hi : Nat) (op : Nat → Nat → Nat → Nat → Nat) (w : WellId) (i : W64) (s : State) : Out :=
  vIssue mn 5 lo hi (fun i => immZero i 0 29) vsRegs false (fun i => vsVecs i []) (fun _ => anyNeed)
    (fun i c f => let n := sewOf c.eff.vtype
      vMap i f n (fun k => (op (wOp i) n (vElem f.v[wS1 i] n k) (src2Elem i c f n k), 0))) w i s

/-- VADD_VSUB_VMUL_VMULH_VMULHU (R133). -/
def execVaddVsubVmulVmulhVmulhu (w : WellId) (i : W64) (s : State) : Out :=
  vIntRow "VADD_VSUB_VMUL_VMULH_VMULHU" 0x040 0x044 (fun op n a b =>
    if op = 0x040 then (a + b) % 2 ^ n else if op = 0x041 then (a + 2 ^ n - b) % 2 ^ n else if op = 0x042 then a * b % 2 ^ n
    else if op = 0x043 then wrapN n (signedN n a * signedN n b / ((2 ^ n : Nat) : Int)) else a * b / 2 ^ n) w i s

/-- VAND_VOR_VXOR (R133). -/
def execVandVorVxor (w : WellId) (i : W64) (s : State) : Out :=
  vIntRow "VAND_VOR_VXOR" 0x045 0x047 (fun op _ a b => if op = 0x045 then a &&& b else if op = 0x046 then a ||| b else a ^^^ b) w i s

/-- VSLL_VSRL_VSRA (R133): shift by vs2 mod SEW. -/
def execVsllVsrlVsra (w : WellId) (i : W64) (s : State) : Out :=
  vIntRow "VSLL_VSRL_VSRA" 0x048 0x04A (fun op n a b => shiftN n (op - 0x048) a (b % n)) w i s

/-- VMIN_VMAX_VMINU_VMAXU (R133). -/
def execVminVmaxVminuVmaxu (w : WellId) (i : W64) (s : State) : Out :=
  vIntRow "VMIN_VMAX_VMINU_VMAXU" 0x04B 0x04E (fun op n a b => extremeN n (op - 0x04B) a b) w i s

/-- VSEQ_VSLT_VSLTU (R133): writes mask md. -/
def execVseqVsltVsltu (w : WellId) (i : W64) (s : State) : Out :=
  vIssue "VSEQ_VSLT_VSLTU" 5 0x050 0x052 (fun i => mOk (wDest i) && immZero i 0 29) vsRegs false (fun i => vsVecs i []) (fun _ => anyNeed)
    (fun i c f => let n := sewOf c.eff.vtype
      vMapMask i f (fun k =>
        let a := vElem f.v[wS1 i] n k
        let b := src2Elem i c f n k
        (if wOp i = 0x050 then a == b else if wOp i = 0x051 then decide (signedN n a < signedN n b) else decide (a < b), 0))) w i s

/-- MK_AND_OR_XOR_ANDN (R133): over all 2,048 bits, VL and the selector ignored. -/
def execMkAndOrXorAndn (w : WellId) (i : W64) (s : State) : Out :=
  vIssue "MK_AND_OR_XOR_ANDN" 5 0x060 0x063 (fun i => mOk (wDest i) && mOk (wS1 i) && mOk (wS2 i) && immZero i 0 30) (fun _ => []) false
    (fun i => [RegRef.m (mReg (wS1 i)), RegRef.m (mReg (wS2 i))]) (fun _ => anyNeed)
    (fun i _ f =>
      let a := f.m[mReg (wS1 i)]
      let b := f.m[mReg (wS2 i)]
      let r := if wOp i = 0x060 then a &&& b else if wOp i = 0x061 then a ||| b else if wOp i = 0x062 then a ^^^ b else a &&& ~~~b
      { v := f.v, m := f.m.set (mReg (wDest i)) r, flags := 0, g := none }) w i s

/-- MK_SET (R133). -/
def execMkSet (w : WellId) (i : W64) (s : State) : Out :=
  vIssue "MK_SET" 5 0x064 0x064 (fun i => mOk (wDest i) && noS1 i && noS2 i && immZero i 0 30) (fun _ => []) false (fun _ => []) (fun _ => anyNeed)
    (fun i _ f => { v := f.v, m := f.m.set (mReg (wDest i)) (~~~0), flags := 0, g := none }) w i s

/-! Reductions. -/

/-- A partial sum that is empty or holds an encoding (R142). -/
def tallyJoin (f : Fmt) (rm : Nat) (a b : Option Nat) (fl : BitVec 6) : Option Nat × BitVec 6 :=
  match a, b with
  | none, b => (b, fl)
  | a, none => (a, fl)
  | some x, some y => let r := arithOp f rm 0 x y; (some r.1, fl ||| r.2)

/-- The value of an element as read: a subnormal flushed, a NaN canonical (R142). -/
def tallyRead (f : Fmt) (b : Nat) : Nat × BitVec 6 :=
  match readF f b with
  | (.zero n, fl) => (f.zeroBits n, fl)
  | (.nan s, fl) => (f.nanBits, fl ||| flIf s flNV)
  | (_, fl) => (b, fl)

/-- The halving tree over w partial sums (R142). -/
def tallyTree (f : Fmt) (rm : Nat) : Nat → List (Option Nat) → BitVec 6 → List (Option Nat) × BitVec 6
  | 0, p, fl => (p, fl)
  | k + 1, p, fl =>
    let w := 2 ^ k
    let r := (List.range w).foldl (fun (acc : List (Option Nat) × BitVec 6) l =>
      let x := tallyJoin f rm (p.getD l none) (p.getD (l + w) none) acc.2
      (acc.1 ++ [x.1], x.2)) ([], fl)
    tallyTree f rm k r.1 r.2

/-- The lane-tree sum of R142: elements by index, none where inactive. -/
def laneTree (f : Fmt) (rm : Nat) (els : List (Option Nat)) (init : Option Nat) : Nat × BitVec 6 :=
  let lanes := 1024 / f.bits
  let rd := els.map (fun e => e.map (tallyRead f))
  let fl0 := rd.foldl (fun acc e => match e with | some x => acc ||| x.2 | none => acc) 0
  let step (acc : List (Option Nat) × BitVec 6) (l : Nat) : List (Option Nat) × BitVec 6 :=
    let r := (List.range ((els.length + lanes - 1) / lanes)).foldl (fun (q : Option Nat × BitVec 6) j =>
      tallyJoin f rm q.1 ((rd.getD (l + j * lanes) none).map (·.1)) q.2) (none, acc.2)
    (acc.1 ++ [r.1], r.2)
  let p := (List.range lanes).foldl step ([], fl0)
  let t := tallyTree f rm (Nat.log2 lanes) p.1 p.2
  let p0 := t.1.getD 0 none
  match init with
  | none => (p0.getD 0, t.2)
  | some g =>
    let x := tallyRead f g
    match p0 with
    | none => (x.1, t.2 ||| x.2)
    | some y => let r := arithOp f rm 0 x.1 y; (r.1, t.2 ||| x.2 ||| r.2)

/-- VTALLY_F (R142): with VL = 0 it sets no flag (R131). Its source 2 is a g register, and VS must be 0 (DESIGN CHOICE, log 184). -/
def execVtallyF (w : WellId) (i : W64) (s : State) : Out :=
  vIssue "VTALLY_F" 5 0x070 0x070 (fun i => rmOk (vRm i) && !vVs i && immZero i 0 26) (fun i => [wS2 i]) true (fun i => [RegRef.v (wS1 i)])
    (fun _ => fpNeed)
    (fun i c f =>
      let n := sewOf c.eff.vtype
      let els := (List.range f.vl.toNat).map (fun k => if admits f i k then some (vElem f.v[wS1 i] n k) else none)
      let r := laneTree (vFmt c.eff.vtype) (vRmOf i c) els (if wS2 i = 0 then none else some ((c.rd (wS2 i)).toNat % 2 ^ n))
      vScalar f (w64 r.1) (if f.vl = 0 then 0 else r.2)) w i s

/-- The order-free sum of R143. -/
def fxSum (f : Fmt) (rm : Nat) (els : List Nat) : Nat × BitVec 6 :=
  let rd := els.map (readF f)
  let fl := rd.foldl (fun acc x => acc ||| x.2 ||| x.1.nvIn) 0
  let vs := rd.map (·.1)
  let nan := vs.any (fun v => match v with | .nan _ => true | _ => false)
  let pinf := vs.contains (.inf false)
  let ninf := vs.contains (.inf true)
  if nan || (pinf && ninf) then (f.nanBits, fl ||| flNV)
  else if pinf then (f.infBits, fl)
  else if ninf then (f.zeroBits true + f.infBits, fl)
  else match fxExponent vs with
  | none => (0, fl)
  | some x =>
    let n := vs.foldl (fun acc v => acc + v.truncScaled (47 - x)) 0
    let r := packF f rm false (FVal.ofInt n (x - 47))
    (r.1, fl ||| r.2)

/-- VTALLY_FX (R143). -/
def execVtallyFx (w : WellId) (i : W64) (s : State) : Out :=
  vIssue "VTALLY_FX" 5 0x071 0x071 (fun i => rmOk (vRm i) && !vVs i && noS2 i && immZero i 0 26) (fun _ => []) true (fun i => [RegRef.v (wS1 i)])
    (fun _ => fpNeed)
    (fun i c f => let r := fxSum (vFmt c.eff.vtype) (vRmOf i c) (activeElems i f (sewOf c.eff.vtype))
      vScalar f (w64 r.1) r.2) w i s

/-- VTALLY_FMAX_FMIN (R144): with no active element, the canonical NaN and no flag. -/
def execVtallyFmaxFmin (w : WellId) (i : W64) (s : State) : Out :=
  vIssue "VTALLY_FMAX_FMIN" 5 0x072 0x073 (fun i => noS2 i && immZero i 0 30) (fun _ => []) true (fun i => [RegRef.v (wS1 i)])
    (fun _ => fpNeed)
    (fun i c f =>
      let fm := vFmt c.eff.vtype
      let rd := (activeElems i f (sewOf c.eff.vtype)).map (readF fm)
      match rd with
      | [] => vScalar f (w64 fm.nanBits) 0
      | x :: r =>
        let y := r.foldl (fun (acc : FVal × BitVec 6) z =>
          let q := minMaxV (wOp i == 0x072) acc.1 z.1
          (q.1, acc.2 ||| z.2 ||| q.2)) (x.1, x.2 ||| x.1.nvIn)
        vScalar f (w64 (packF fm 1 false (match y.1 with | .nan _ => .nan false | v => v)).1) y.2) w i s

/-- VTALLY_INTEGER (R144): add, max, min, maxu, minu, and, or. VS must be 0 (DESIGN CHOICE, log 184). -/
def execVtallyInteger (w : WellId) (i : W64) (s : State) : Out :=
  vIssue "VTALLY_INTEGER" 5 0x074 0x07A (fun i => (wOp i == 0x074 || noS2 i) && immZero i 0 30) (fun i => if wOp i = 0x074 then [wS2 i] else []) true
    (fun i => [RegRef.v (wS1 i)]) (fun _ => anyNeed)
    (fun i c f =>
      let n := sewOf c.eff.vtype
      let els := activeElems i f n
      let sx (v : Nat) : W64 := BitVec.ofInt 64 (signedN n v)
      let ones := 2 ^ n - 1
      let r : W64 := match wOp i with
        | 0x074 => els.foldl (fun acc v => acc + sx v) (if wS2 i = 0 then 0 else c.rd (wS2 i))
        | 0x075 => sx (els.foldl (extremeN n 1) (2 ^ (n - 1)))
        | 0x076 => sx (els.foldl (extremeN n 0) (2 ^ (n - 1) - 1))
        | 0x077 => w64 (els.foldl max 0)
        | 0x078 => w64 (els.foldl min ones)
        | 0x079 => w64 (els.foldl (· &&& ·) ones)
        | _ => w64 (els.foldl (· ||| ·) 0)
      vScalar f r 0) w i s

/-- Active indices below VL with ms1 set (R145). -/
def maskHits (i : W64) (f : Flume) : List Nat :=
  (List.range f.vl.toNat).filter (fun k => admits f i k && (f.m[mReg (wS1 i)]).getLsbD k)

/-- MCOUNT (R145). -/
def execMcount (w : WellId) (i : W64) (s : State) : Out :=
  vIssue "MCOUNT" 5 0x080 0x080 (fun i => mOk (wS1 i) && noS2 i && immZero i 0 30) (fun _ => []) true (fun i => [RegRef.m (mReg (wS1 i))])
    (fun _ => anyNeed) (fun i _ f => vScalar f (w64 (maskHits i f).length) 0) w i s

/-- MFIND (R145). -/
def execMfind (w : WellId) (i : W64) (s : State) : Out :=
  vIssue "MFIND" 5 0x081 0x081 (fun i => mOk (wS1 i) && noS2 i && immZero i 0 30) (fun _ => []) true (fun i => [RegRef.m (mReg (wS1 i))])
    (fun _ => anyNeed)
    (fun i _ f => vScalar f (match maskHits i f with | [] => ~~~0 | k :: _ => w64 k) 0) w i s

/-- VGET (R145): IDX at or above VLMAX is illegal. It reads element IDX whatever the mask selector admits (DESIGN CHOICE, log 185). -/
def execVget (w : WellId) (i : W64) (s : State) : Out :=
  issue w i { mnemonic := "VGET", cls := 5, lo := 0x082, hi := 0x082, legal := fun i => selOk i && noS2 i && immZero i 11 19 }
    (fun c => { reads := [], writes := gRefs c [wDest i], opens := false })
    (fun s =>
      let u := s.wells[w]
      if u.cpu.eff.vtype.tset && decide (vlmax u.cpu.eff.vtype ≤ vIdx i) then .fault 0x01 i s
      else match vIssueFault u.cpu u.flume anyNeed with
      | some (code, info) => vFault code info s
      | none =>
        if 8 ≤ u.flume.window.length then .wait .flumeWindow s
        else match vParity u.cpu i [.v (wS1 i)] with
        | some r => .done (vEnterBad w i [.v (wS1 i)] r s)
        | none =>
          let x := w64 (vElem u.flume.v[wS1 i] (sewOf u.cpu.eff.vtype) (vIdx i))
          .done (vEnter w { vEntry i [.v (wS1 i)] u with gdest := some (u.cpu.eff.bank, wDest i, x) } s)) s

end Sys2Proof.Machine
end

