-- ==== Sys2Proof/Machine/FlumeMem.lean ====
section
/-! DEFINITION. CLASS 0x6, long-vector memory and permute, and the completion of Flume instructions (R134, R141-R157). -/

namespace Sys2Proof.Machine

/-- Encoding of the vector loads and stores: a TAG of 0b11, or 0b10 in a store, is reserved (R148). -/
def vMemLegal (store : Bool) (i : W64) : Bool := selOk i && immZero i 0 28 && decide (vTag i < if store then 2 else 3)

/-- Kind by OPCODE order: unit, strided, indexed. -/
def vKindOf (k : Nat) : VKind := if k = 0 then .unit else if k = 1 then .strided else .indexed

/-- VLD_VLDS_VLDX (R134, R147). -/
def execVldVldsVldx (w : WellId) (i : W64) (s : State) : Out :=
  vMemIssue "VLD_VLDS_VLDX" 0x001 0x003 (fun i => vMemLegal false i && (wOp i != 0x001 || noS2 i))
    (fun i => { kind := vKindOf (wOp i - 1), store := false, tag := vTag i }) w i s

/-- VST_VSTS_VSTX (R134, R147, R149). -/
def execVstVstsVstx (w : WellId) (i : W64) (s : State) : Out :=
  vMemIssue "VST_VSTS_VSTX" 0x004 0x006 (fun i => vMemLegal true i && (wOp i != 0x004 || noS2 i))
    (fun i => { kind := vKindOf (wOp i - 4), store := true, tag := vTag i }) w i s

/-- Encoding of `mld` and `mst`: the selector is not used (R134). -/
def mMemLegal (store : Bool) (i : W64) : Bool := vMemLegal store i && noS2 i && noS3 i && mOk (wDest i)

/-- MLD (R134). -/
def execMld (w : WellId) (i : W64) (s : State) : Out :=
  vMemIssue "MLD" 0x008 0x008 (mMemLegal false) (fun i => { kind := .mask, store := false, tag := vTag i }) w i s

/-- MST (R134). -/
def execMst (w : WellId) (i : W64) (s : State) : Out :=
  vMemIssue "MST" 0x009 0x009 (mMemLegal true) (fun i => { kind := .mask, store := true, tag := vTag i }) w i s

/-- A permute instruction writing vd. -/
def vPermute (mn : String) (op : Nat) (legal : W64 → Bool) (gs : W64 → List (Fin 32)) (vs : W64 → List RegRef)
    (f : W64 → Windlass → Flume → VRes) (w : WellId) (i : W64) (s : State) : Out :=
  vIssue mn 6 op op legal gs false vs (fun _ => anyNeed) f w i s

/-- VMV (R134). -/
def execVmv (w : WellId) (i : W64) (s : State) : Out :=
  vPermute "VMV" 0x010 (fun i => noS2 i && immZero i 0 30) (fun _ => []) (fun i => [RegRef.v (wS1 i)])
    (fun i c f => let n := sewOf c.eff.vtype; vMap i f n (fun k => (vElem f.v[wS1 i] n k, 0))) w i s

/-- VBCAST (R134). -/
def execVbcast (w : WellId) (i : W64) (s : State) : Out :=
  vPermute "VBCAST" 0x011 (fun i => noS2 i && immZero i 0 30) (fun i => [wS1 i]) (fun _ => [])
    (fun i c f => let n := sewOf c.eff.vtype; vMap i f n (fun _ => ((c.rd (wS1 i)).toNat % 2 ^ n, 0))) w i s

/-- VSHIFT_UP (R134): elements below gs are unchanged; vd differs from the source. -/
def execVshiftUp (w : WellId) (i : W64) (s : State) : Out :=
  vPermute "VSHIFT_UP" 0x012 (fun i => wDest i != wS1 i && immZero i 0 30) (fun i => [wS2 i]) (fun i => [RegRef.v (wS1 i)])
    (fun i c f => let n := sewOf c.eff.vtype
      let g := (c.rd (wS2 i)).toNat
      vMap i f n (fun k => (if g ≤ k then vElem f.v[wS1 i] n (k - g) else vElem f.v[wDest i] n k, 0))) w i s

/-- VSHIFT_DOWN (R134). -/
def execVshiftDown (w : WellId) (i : W64) (s : State) : Out :=
  vPermute "VSHIFT_DOWN" 0x013 (fun i => immZero i 0 30) (fun i => [wS2 i]) (fun i => [RegRef.v (wS1 i)])
    (fun i c f => let n := sewOf c.eff.vtype
      let g := (c.rd (wS2 i)).toNat
      vMap i f n (fun k => (if k + g < vlmax c.eff.vtype then vElem f.v[wS1 i] n (k + g) else 0, 0))) w i s

/-- VPICK (R134): vd differs from both sources. -/
def execVpick (w : WellId) (i : W64) (s : State) : Out :=
  vPermute "VPICK" 0x014 (fun i => wDest i != wS1 i && wDest i != wS2 i && immZero i 0 30) (fun _ => [])
    (fun i => [RegRef.v (wS1 i), RegRef.v (wS2 i)])
    (fun i c f => let n := sewOf c.eff.vtype
      vMap i f n (fun k =>
        let j := vElem f.v[wS2 i] n k
        (if j < vlmax c.eff.vtype then vElem f.v[wS1 i] n j else 0, 0))) w i s

/-- VPACK (R134): the active elements are packed from vd[0] upward. -/
def execVpack (w : WellId) (i : W64) (s : State) : Out :=
  vPermute "VPACK" 0x015 (fun i => maskSel i != 0 && wDest i != wS1 i && noS2 i && immZero i 0 30) (fun _ => []) (fun i => [RegRef.v (wS1 i)])
    (fun i c f => let n := sewOf c.eff.vtype
      let els := activeElems i f n
      { v := f.v.set (wDest i) (vPut f.v[wDest i] n (fun k => els[k]?)), m := f.m, flags := 0, g := none }) w i s

/-- VINS (R134): vd[IDX] whatever VL; IDX at or above VLMAX is illegal. -/
def execVins (w : WellId) (i : W64) (s : State) : Out :=
  issue w i { mnemonic := "VINS", cls := 6, lo := 0x016, hi := 0x016, legal := fun i => selOk i && noS2 i && immZero i 11 19 }
    (fun c => { reads := gRefs c [wS1 i], writes := [], opens := false })
    (fun s =>
      let u := s.wells[w]
      if u.cpu.eff.vtype.tset && decide (vlmax u.cpu.eff.vtype ≤ vIdx i) then .fault 0x01 i s
      else match vIssueFault u.cpu u.flume anyNeed with
      | some (code, info) => vFault code info s
      | none =>
        if 8 ≤ u.flume.window.length then .wait .flumeWindow s
        else match vParity u.cpu i [] with
        | some r => .done (vEnterBad w i [] r s)
        | none =>
          let n := sewOf u.cpu.eff.vtype
          let x := (u.cpu.rd (wS1 i)).toNat
          let f (fl : Flume) : Flume :=
            if admits fl i (vIdx i) then
              { fl with v := fl.v.set (wDest i) (vPut fl.v[wDest i] n (fun k => if k = vIdx i then some x else none)) }
            else fl
          .done (vEnter w (vEntry i [] u) (s.modFlume w f))) s

/-- VWAIT (R134, R140): the Windlass stalls until every issued Flume instruction has completed. -/
def execVwait (w : WellId) (i : W64) (s : State) : Out :=
  issue w i { mnemonic := "VWAIT", cls := 6, lo := 0x020, hi := 0x020, legal := bareLegal' } (fun _ => Uses.none)
    (fun s =>
      let u := s.wells[w]
      match vIssueFault u.cpu u.flume anyNeed with
      | some (code, info) => vFault code info s
      | none => if u.flume.window.isEmpty then .done s else .wait .vwait s) s
where
  /-- No operand. -/
  bareLegal' (i : W64) : Bool := noDest i && noS1 i && noS2 i && noS3 i && immZero i 0 30

/-- Whether an instruction may complete while an earlier one has not (R139): not in the same unit, not one that writes the same register,
and not one whose result it reads and needs whole, or works through to the same length. -/
def mayPass (e x : FlumeEntry) : Bool :=
  e.unit != x.unit && !x.writes.any (fun r => e.writes.contains r) &&
    !(x.writes.any (fun r => e.reads.contains r) && (e.whole || decide (x.bytes ≤ e.bytes)))

/-- FLUME_COMPLETION (R139, R141, R156): the k-th issued, incomplete instruction completes, where every earlier one lets it: its flags are
ORed into FFLAGS, its g result is written, its span is released. One that met an uncorrectable element or bad parity stops the Flume and
discards its flags; the fault becomes due. -/
def execFlumeCompletion (w : WellId) (k : Fin 8) (s : State) : Out :=
  .next <|
    let f := s.wells[w].flume
    match f.window[k.val]? with
    | none => s
    | some e =>
      if !(f.window.take k.val).all (mayPass e) then s
      else
        let s := s.modFlume w (fun f => { f with window := f.window.eraseIdx k.val })
        match e.err with
        | some x => vStopFlume w x.1 e.addr x.2 s
        | none =>
          s.modCpu w (fun c =>
            let c := match e.gdest with | some d => c.gSet d.1 d.2.1 d.2.2 | none => c
            { c with flags := c.flags ||| e.flags })

end Sys2Proof.Machine
end

