-- ==== Sys2Proof/Machine/Interrupts.lean ====
section
/-! DEFINITION. Exception entry at a boundary and the interrupt lines (R176-R178, R213, R226-R231). -/

namespace Sys2Proof.Machine

/-- EXCEPTION_ENTRY (R213): the fault that is due at the boundary is taken: a deferred Millrace or Flume fault, then a load
whose data is bad at the close of its window, then a fetch fault, unless a skip suppresses the instruction (R212, R180). -/
def execExceptionEntry (w : WellId) (s : State) : Out :=
  .next (
    if !canIssue w s then s
    else
      let c := s.cpu w
      match c.deferred with
      | f :: _ => takeDeferred w f s
      | [] => match c.badDue with
        | some ea => takeException w 0x15 ea s
        | none => match c.fetchFault with
          | some f =>
            let s := s.closeDue w
            if c.skipNext then suppress w s else takeException w f.code f.info (s.modCpu w (fun c => { c with fetchFault := none }))
          | none => s)

/-- INTERRUPT_LINE_ASSERT (R226): the line's IPEND bit is set. A well whose domain is off has no lines. -/
def execInterruptLineAssert (w : WellId) (line : Fin 11) (s : State) : Out :=
  .next (if s.wellOn w then raiseLine w line.val s else s)

/-- Waits that let an interrupt in inside an open window (R177, R230, R290). -/
def Stall.admits : Stall → Bool
  | .mfence | .tagWait | .flumeCheck | .pumpQueueFull | .pumpResolve | .counterWait | .vwait | .csrWait | .wfi | .icinv | .mhalt | .invBusy
  | .heldForInterrupt => true
  | _ => false

/-- The takeable line with the lowest code (R227). -/
def takeableLine (c : Windlass) : Option (Fin 11) :=
  if c.eff.ie && (!windowOpen c || (match c.stall with | some k => k.admits | none => false)) then
    (List.range 11).findSome? (fun i => if h : i < 11 then
      (if (c.exc.ipend &&& c.exc.ienable).getLsbD i then some ⟨i, h⟩ else none) else none)
  else none

/-- INTERRUPT_TAKE (R227): a fault that is due at the boundary goes first (R212). -/
def execInterruptTake (w : WellId) (s : State) : Out :=
  .next (
    if !canIssue w s then s
    else
      let c := s.cpu w
      if !c.deferred.isEmpty || c.badDue.isSome then s
      else
        let s := s.closeDue w
        match takeableLine (s.cpu w) with
        | none => s
        | some i => takeInterrupt w i s)

/-- TIMER (R226): line 0x45 asserts while CYCLE.COUNT is at or above a TIMECMP.COMPARE that is not zero. -/
def execTimer (w : WellId) (s : State) : Out :=
  .next (
    let c := s.cpu w
    if s.wellOn w && c.exc.timecmp != 0 && decide (c.exc.timecmp.toNat ≤ c.cycle.count.toNat) then raiseLine w 5 s else s)

/-- COUNTER_OVF (R226): line 0x4A asserts when CYCLE.OVF or INSTRET.OVF became 1. -/
def execCounterOvf (w : WellId) (instret : Bool) (s : State) : Out :=
  .next (
    let c := s.cpu w
    if s.wellOn w && (if instret then c.instret.ovf else c.cycle.ovf) then raiseLine w 10 s else s)

end Sys2Proof.Machine
end

