-- ==== Sys2Proof/Machine/Wellhead.lean ====
section
/-! DEFINITION. Wellhead's mailbox: requests and their completion, keys, attestation, debug unlock, anti-rollback and the firmware banks
(R515-R532). -/

namespace Sys2Proof.Machine

def State.modWh (s : State) (f : Wellhead → Wellhead) : State := { s with wh := f s.wh }

/-- Wellhead runs: power-on reset is over and no memory error has stopped it (R455, R533). -/
def whRuns (s : State) : Bool := !s.su.porLow && s.pw.inputOn && !s.hw.coreStopped.getLsbD 4

/-- A write to WH_REQ (R532): ignored while BUSY. -/
def whRequest (req : W64) (s : State) : State :=
  if whRuns s && s.wh.req.isNone then s.modWh (fun w => { w with req := some req, param := req.truncate 32 }) else s

/-- A request row: the word's OP is the row's. -/
def whRow (op : Nat) (req : W64) (s : State) : Out := .next (if fieldN req 56 8 = op then whRequest req s else s)

/-- GET_CERTS (R524). -/
def execGetCerts (req : W64) (s : State) : Out := whRow 1 req s
/-- ATTEST (R526). -/
def execAttest (req : W64) (s : State) : Out := whRow 2 req s
/-- KEY_LOAD (R527). -/
def execKeyLoad (req : W64) (s : State) : Out := whRow 3 req s
/-- DEBUG_CHALLENGE (R530). -/
def execDebugChallenge (req : W64) (s : State) : Out := whRow 4 req s
/-- DEBUG_UNLOCK (R530). -/
def execDebugUnlock (req : W64) (s : State) : Out := whRow 5 req s
/-- DEBUG_RELOCK (R531). -/
def execDebugRelock (req : W64) (s : State) : Out := whRow 6 req s
/-- ARB_ADVANCE (R522). -/
def execArbAdvance (req : W64) (s : State) : Out := whRow 7 req s
/-- FLASH_WRITE (R520). -/
def execFlashWrite (req : W64) (s : State) : Out := whRow 8 req s
/-- FLASH_COMMIT (R520). -/
def execFlashCommit (req : W64) (s : State) : Out := whRow 9 req s

/-- What a request answers: STATUS, the bytes it leaves in WH_BUF, and the state otherwise. -/
structure WhAns where
  status : BitVec 8
  out    : List Byte
  after  : State
  /-- The request stays in progress. -/
  busy   : Bool := false

/-- Status codes of R532. -/
def whOk : BitVec 8 := 0
def whInvalid : BitVec 8 := 1
def whBadSignature : BitVec 8 := 2
def whStale : BitVec 8 := 3
def whSlotBusy : BitVec 8 := 4
def whExhausted : BitVec 8 := 5
def whFallback : BitVec 8 := 6
def whExpired : BitVec 8 := 7

/-- A request that returns no bytes. -/
def whDone (st : BitVec 8) (s : State) : WhAns := { status := st, out := [], after := s }

/-- Input bytes of the mailbox buffer. -/
def whBuf (s : State) (n : Nat) : List Byte := memReads s.wh.buf 0 n

/-- Padding with zeros to a length. -/
def padTo (n : Nat) (l : List Byte) : List Byte := (l ++ List.replicate n 0).take n

/-- A signature of the identity key as bytes, big-endian (R523). -/
def signBytes (n : Nat) (m : List Byte) : List Byte := (toBytes 512 (Config.identitySign n m).toNat).reverse

/-- Headers of the images in force; zero in recovery mode. -/
def bootedHeader (s : State) (k : Fin 4) : List Byte := match s.wh.booted with | some b => (bankOf_ s b)[k].header | none => []

/-- ATTEST (R526). Sizes within the first and the fourth part are the model's. -/
def attest (s : State) : WhAns :=
  if !Config.wrappedKeysGood then whDone whInvalid s
  else
    let w := s.wh
    let flags := (if w.recovery then 1 else 0) + (if w.unlocks = 0 then 0 else 2)
    let p0 := toBytes 2 0x0100 ++ toBytes 2 2048 ++ toBytes 4 w.rptSeq.toNat ++ wordBytes devIdent ++ wordBytes Config.fusesPrimary.serial ++
      toBytes 2 s.devId.toNat ++ toBytes 1 w.dbgScope.toNat ++ toBytes 1 flags ++ toBytes 2 w.unlocks.toNat ++ [0, 0] ++ wordBytes s.stageNumber
    let p3 := (List.finRange 4).map (fun k => BitVec.ofNat 8 (arbOf s k)) ++ (List.finRange 4).map (fun k => BitVec.ofNat 8 (hdrSvn (bootedHeader s k))) ++
      [if w.bank then 1 else 0] ++ (List.finRange 4).map (fun k => BitVec.ofNat 8 (hdrKeyidx (bootedHeader s k))) ++ toBytes 1 Config.fusesPrimary.revoke.toNat
    let body := padTo 64 p0 ++ whBuf s 64 ++ w.meas.toList.flatMap hashBytes ++ padTo 64 p3 ++ List.replicate 320 0
    { status := whOk, out := body ++ signBytes s.free body, after := { s.modWh (fun w => { w with rptSeq := w.rptSeq + 1 }) with free := s.free + 1 } }

/-- The last accepted key sequence number of a link and direction (R528). -/
def keySeqOf (w : Wellhead) (link : BitVec 8) (rx : Bool) : Nat := ((w.keySeqs.find? (fun x => x.1 == link && x.2.1 == rx)).map (fun x => x.2.2.toNat)).getD 0

/-- A key goes into a slot of a link by Wellhead's own path (R369, R527): transmit slots 0 and 1, receive slots 2 and 3. A new transmit key
has carried no flit, and the peer has not confirmed it yet. -/
def loadKey (link : Nat) (slot : Fin 4) (k : LinkKey) (s : State) : State :=
  let tx : Fin 2 := Fin.ofNat 2 slot.val
  let count (v : Vector Nat 2) : Vector Nat 2 := if slot.val < 2 then v.set tx 0 else v
  let ready (v : Vector Bool 2) : Vector Bool 2 := if slot.val < 2 then v.set tx false else v
  if h : link < 36 then s.modLink ⟨link, h⟩ (fun x => { x with keys := x.keys.set slot (some k), keyFlits := count x.keyFlits, peerReady := ready x.peerReady })
  else s.modBy (fun b => { b with keys := b.keys.set slot (some k), keyFlits := count b.keyFlits, peerReady := ready b.peerReady })

/-- Whether a transmit slot carries flits now (R528). -/
def txSlotUsed (s : State) (link : Nat) (slot : Bool) : Bool :=
  let up (st : LinkState) : Bool := st == .active || st == .retrain
  if h : link < 36 then (let x := s.far.links[(⟨link, h⟩ : LinkId)]; x.enc && up x.state && x.keyslot == slot)
  else s.by_.enc && up s.by_.state && s.by_.keyslot == slot

/-- KEY_LOAD (R527, R528). -/
def keyLoad (s : State) : WhAns :=
  if !Config.wrappedKeysGood then whDone whInvalid s
  else match Config.oaepOpen (BitVec.ofNat 4096 (beNat (whBuf s 512))) with
  | none => whDone whInvalid s
  | some x =>
    let pt := hashBytes x
    let at_ (i : Nat) : Byte := pt.getD i 0
    let link := (at_ 36).toNat
    let rx := (at_ 37).getLsbD 0
    let slot := (at_ 37).getLsbD 1
    let seq := ofBytes (hdrBytes pt 38 8)
    if (hdrBytes pt 46 18).any (· != 0) || decide (3 < (at_ 37).toNat) || !(decide (link < 36) || link == 0xFF) then whDone whInvalid s
    else if seq ≤ keySeqOf s.wh (at_ 36) rx then whDone whStale s
    else if !rx && txSlotUsed s link slot then whDone whSlotBusy s
    else
      let k : LinkKey := { key := BitVec.ofNat 256 (beNat (hdrBytes pt 0 32)), salt := BitVec.ofNat 32 (ofBytes (hdrBytes pt 32 4)) }
      let i : Fin 4 := Fin.ofNat 4 ((if rx then 2 else 0) + (if slot then 1 else 0))
      whDone whOk (loadKey link i k (s.modWh (fun w => { w with
        keySeqs := (at_ 36, rx, w64 seq) :: w.keySeqs.filter (fun y => !(y.1 == at_ 36 && y.2.1 == rx)) })))

/-- DEBUG_CHALLENGE (R530): the 128 B and their signature by the identity key. Sizes within the last 48 B are the model's. -/
def debugChallenge (arg : Nat) (s : State) : WhAns :=
  let scope := arg % 4
  if scope = 0 then whDone whInvalid s
  else
    let expiry := w64 (s.stg.t.toNat + 60000000000)
    let rnd := (List.range 8).flatMap (fun i => wordBytes (Config.freeWord (s.free + i)))
    let bs := padTo 128 (rnd ++ wordBytes devIdent ++ wordBytes Config.fusesPrimary.serial ++ [BitVec.ofNat 8 scope, BitVec.ofNat 8 (arg / 4 % 4), 0, 0, 0, 0, 0, 0] ++
      wordBytes expiry)
    let c : Challenge := { bytes := bs, scope := BitVec.ofNat 2 scope, basin := BitVec.ofNat 2 (arg / 4), expiry := expiry }
    let s := { s.modWh (fun w => { w with challenge := some c, oldChallenges := w.challenge.toList ++ w.oldChallenges }) with free := s.free + 9 }
    { status := whOk, out := bs ++ signBytes (s.free - 1) bs, after := s }

/-- Hash of the key under which a signature over a challenge verifies: a Tolxon key that is not revoked, or the owner's for scopes 1
and 2 (R530). -/
def signerOf (c : Challenge) (sig : BitVec 4096) : Option (BitVec 512) :=
  let f := Config.fusesPrimary
  let tolxon := ((List.finRange 4).filter (fun k => !f.revoke.getLsbD k.val)).map (fun (k : Fin 4) => f.rootHash[k])
  let keys := tolxon ++ (if c.scope ≠ 3 ∧ f.ownerHash ≠ 0 then [f.ownerHash] else [])
  keys.find? (fun h => let k := Config.publicKeyOf h; Config.pssVerify k.1 k.2 c.bytes sig)

/-- MEAS6 takes the scope and the signer's key hash, and the count of unlocks rises (R531). -/
def logDebug (scope : BitVec 2) (signer : BitVec 512) (s : State) : State :=
  (extendMeas 6 (toBytes 1 scope.toNat ++ hashBytes signer) s).modWh (fun w => { w with dbgScope := scope, signer := signer, unlocks := stick 16 w.unlocks })

/-- Every key slot is zeroed and the encrypted links go DOWN with reason AUTH (R531). -/
def zeroKeys (s : State) : State :=
  let s := (List.finRange 36).foldl (fun s (l : LinkId) =>
    let k := s.far.links[l]
    let s := s.modLink l (fun k => { k with keys := Vector.replicate 4 none })
    if k.enc && (k.state == .active || k.state == .retrain || k.state == .training) then linkDown l 8 s else s) s
  let b := s.by_
  let s := s.modBy (fun b => { b with keys := Vector.replicate 4 none })
  if b.enc && (b.state == .active || b.state == .retrain || b.state == .training) then
    byLost (fun b => { b with state := .down, reason := 7, width := 0, downs := b.downs + 1 }) s else s

/-- The jobs that stand in the way of a scope: scope 2 the basin's, scope 3 all (R531). -/
def scopeJobs (c : Challenge) (s : State) : List (Fin 32) :=
  slots.filter (fun k => s.jobs[k].state != .free &&
    (c.scope == 3 || c.scope == 2 && (s.basinMode == 0 || s.jobs[k].basin == c.basin)))

/-- The scope takes force once its jobs are stopped and cleared (R531); until then the request stays in progress. -/
def openScope (c : Challenge) (signer : BitVec 512) (s : State) : WhAns :=
  let s := (scopeJobs c s).foldl (fun s k => endJob k esDebug s) s
  if (scopeJobs c s).isEmpty then
    let s := if c.scope = 3 then zeroKeys s else s
    whDone whOk ((logDebug c.scope signer s).modWh (fun w => { w with opening := none }))
  else { status := s.wh.status, out := [], after := s.modWh (fun w => { w with opening := some (c, signer) }), busy := true }

/-- DEBUG_UNLOCK (R530, R531): a challenge is used once. -/
def debugUnlock (s : State) : WhAns :=
  let sig := BitVec.ofNat 4096 (beNat (whBuf s 512))
  match s.wh.opening, s.wh.challenge with
  | some o, _ => openScope o.1 o.2 s
  | none, none => whDone whExpired s
  | none, some c =>
    match signerOf c sig with
    | none => if s.wh.oldChallenges.any (fun o => (signerOf o sig).isSome) then whDone whExpired s else whDone whBadSignature s
    | some h =>
      let s := s.modWh (fun w => { w with challenge := none, oldChallenges := c :: w.oldChallenges })
      if c.expiry.toNat < s.stg.t.toNat then whDone whExpired s else openScope c h s

/-- DEBUG_RELOCK (R531). -/
def debugRelock (s : State) : WhAns := whDone whOk (logDebug 0 s.wh.signer s)

/-- ARB_ADVANCE (R522). -/
def arbAdvance (arg v : Nat) (s : State) : WhAns :=
  let k : Fin 4 := Fin.ofNat 4 arg
  let bits := BitVec.ofNat 128 (2 ^ v - 1)
  if v ≤ arbOf s k then whDone whOk s
  else if 127 < v then whDone whExhausted s
  else if arg / 128 % 2 = 0 ∧ (hdrSvn (bankOf_ s false)[k].header < v ∨ hdrSvn (bankOf_ s true)[k].header < v) then whDone whFallback s
  else whDone whOk (s.modWh (fun w => { w with arbP := w.arbP.set k (w.arbP[k] ||| bits), arbM := w.arbM.set k (w.arbM[k] ||| bits) }))

/-- FLASH_WRITE (R516, R520): 64 KiB units of the inactive bank, of which a bank has 1,024. -/
def flashWrite (n unit : Nat) (s : State) : WhAns :=
  if 1024 ≤ unit then whDone whInvalid s
  else
    let k : Fin 2 := if s.wh.bank then 0 else 1
    whDone whOk (s.modWh (fun w => { w with flashW := w.flashW.set k (w.flashW[k] ++ [(unit, whBuf s n)]) }))

/-- FLASH_COMMIT (R520). -/
def flashCommit (s : State) : WhAns :=
  match verifyBank s (!s.wh.bank) with
  | .good => whDone whOk (s.modWh (fun w => { w with bank := !w.bank }))
  | .badSignature => whDone whBadSignature s
  | .stale => whDone whStale s

/-- What a request does (R532). -/
def whServe (req : W64) (s : State) : WhAns :=
  let arg := fieldN req 48 8
  let n := if fieldN req 32 16 = 0 then 65536 else fieldN req 32 16
  let param := fieldN req 0 32
  match fieldN req 56 8 with
  | 1 => { status := whOk, out := Config.certChain, after := s }
  | 2 => attest s
  | 3 => keyLoad s
  | 4 => debugChallenge arg s
  | 5 => debugUnlock s
  | 6 => debugRelock s
  | 7 => arbAdvance arg param s
  | 8 => flashWrite n param s
  | 9 => flashCommit s
  | _ => whDone whInvalid s

/-- WELLHEAD_REQUEST_COMPLETE (R532). -/
def execWellheadRequestComplete (s : State) : Out :=
  .next (match s.wh.req with
    | none => s
    | some req =>
      if !whRuns s then s
      else
        let a := whServe req s
        if a.busy then a.after
        else a.after.modWh (fun w => { w with req := none, status := a.status, rlen := BitVec.ofNat 16 a.out.length, buf := memWrites w.buf 0 a.out }))

end Sys2Proof.Machine
end

