-- ==== Sys2Proof/Machine/StartUp.lean ====
section
/-! DEFINITION. Start-up, the four resets, and the loss of a control processor (R455, R533-R549). -/

namespace Sys2Proof.Machine

def State.modSu (s : State) (f : StartUp → StartUp) : State := { s with su := f s.su }

/-- Power-on reset (R543, R547): what the fuses, the flash and the board hold stays, and so do the model's own fields. -/
def powerOn (s : State) : State :=
  { State.reset with
    pending := s.pending
    free := s.free
    jtag := s.jtag
    bf := { Baseflow.reset with wearLog := s.bf.wearLog }
    pw := { Power.reset with inputOn := s.pw.inputOn, pwrGood := s.pw.pwrGood, hwtrip := s.pw.hwtrip }
    wh := { Wellhead.reset with arbP := s.wh.arbP, arbM := s.wh.arbM, bank := s.wh.bank, flashW := s.wh.flashW, fabricRec := s.wh.fabricRec } }

/-- POR_N_ASSERT (R533): the device is held in power-on reset. -/
def execPorNAssert (s : State) : Out := .next (powerOn s)

/-- INPUT_TURN_ON (R494, R533): stage 1 and VAON come up and PWR_GOOD asserts; the board holds POR_N low until then. -/
def execInputTurnOn (s : State) : Out :=
  .next (if s.pw.pwrGood then s else (powerOn s).modPw (fun p => { p with inputOn := true, pwrGood := true }))

/-- POR_N_RELEASE (R533, R535): step 2 begins. A hardware trip appears as THERMAL_TRIP (R507). -/
def execPorNRelease (s : State) : Out :=
  .next (
    if !s.su.porLow || !s.pw.pwrGood then s
    else
      let s' := s.modSu (fun u => { u with porLow := false, step := 2, elapsed := 0 })
      if s.pw.hwtrip then platform aonUnit 0x0003 (s'.modPw (fun p => { p with hwtrip := false })) else s')

/-- Recovery mode (R519), or Wellhead serving as in it (R536): Wellhead trains the Byvor Link itself. -/
def enterRecovery (reason : BitVec 8) (s : State) : State :=
  byTrain (domainUp 0 ((s.modWh (fun w => { w with recovery := true })).modSu (fun u => { u with st := 3, reason := reason })) 41)

/-- The next step begins. -/
def nextStep (s : State) : State := s.modSu (fun u => { u with step := u.step + 1 })

/-- Step 2 (R7, R515, R521, R525). -/
def step2 (s : State) : State :=
  let a := Config.fusesPrimary
  let b := Config.fusesMirror
  let s := s.modWh (fun w =>
    let both (k : Fin 4) : BitVec 128 := w.arbP[k] ||| w.arbM[k]
    { w with arbP := Vector.ofFn both, arbM := Vector.ofFn both })
  let s := s.modPw (fun p => { p with fuseLoaded := true })
  if a = b then nextStep (extendMeas 0 measRom s) else enterRecovery 1 s

/-- Step 3 (R518, R519, R523, R525). -/
def step3 (s : State) : State :=
  match bootFrom s with
  | none => enterRecovery 2 s
  | some b =>
    let s := s.modWh (fun w => { w with booted := some b })
    let s := (List.finRange 4).foldl (fun s (k : Fin 4) => extendMeas ⟨k.val + 1, by omega⟩ (hdrBytes (bankOf_ s b)[k].header 0 128) s) s
    let s := if Config.wrappedKeysGood then s else (let r := s.takeFree; platform 0x9000 r.1 r.2)
    nextStep s

/-- Domains that a step switches on: those whose regulators are good come up, the others show FAULT (R495, R536). -/
def raiseDomains (ds : List Nat) (good : BitVec 44) (trained : BitVec 24) (s : State) : State :=
  ds.foldl (fun s d =>
    if good.getLsbD d then domainUp trained s d
    else platform (domUnit d) 0x0007 (s.modPw (fun p => { p with fault := p.fault ||| BitVec.ofNat 44 (2 ^ d) }))) s

/-- The entries of the newer good copy of the wear log (R463). -/
def loadedWear (s : State) : List WearEntry :=
  match s.bf.wearLog[(0 : Fin 2)], s.bf.wearLog[(1 : Fin 2)] with
  | some a, some b => if a.1.toNat < b.1.toNat then b.2 else a.2
  | some a, none => a.2
  | none, some b => b.2
  | none, none => []

/-- Step 4 (R535, R536). -/
def step4 (obs : StartObs) (s : State) : State :=
  if !obs.lockstepOk then enterRecovery 3 s
  else
    let s := s.modBf (fun b => { b with wear := loadedWear s })
    let s := raiseDomains [41, 43, 32, 33, 34, 35, 36, 37, 38, 39, 40, 42] obs.regulatorOk 0 s
    nextStep (extendMeas 5 (measPolicy s) s)

/-- Step 5 (R309, R536): a stack that fails stays out of STACK_MASK. -/
def step5 (obs : StartObs) (s : State) : State :=
  let ok (n : Nat) : Bool := obs.stacksOk.getLsbD n && s.domain (36 + n / 6)
  let m : BitVec 24 := (List.range 24).foldl (fun m n => if ok n then m ||| BitVec.ofNat 24 (2 ^ n) else m) 0
  nextStep ((List.finRange 24).foldl (fun s n => s.modStack n (fun c => { c with trained := m.getLsbD n.val })) { s with stackMask := m })

/-- Every stack of a range reads zero (R540): no error and no poison is left in it. -/
def zeroStacks (a n : Nat) (s : State) : State :=
  let keep (k : Nat) : Bool := !(decide (a ≤ k * 64 ∧ k * 64 < a + n))
  { s with
    mem := memClear s.mem a (a + n)
    lines := s.lines.filter (fun l => keep (l.line.toNat * 4))
    poison := s.poison.filter keep
    cErr := s.cErr.filter (fun e => keep e.1)
    stErr := s.stErr.filter (fun e => keep e.1) }

/-- Step 6 (R536, R539, R540): the wells that fail are retired, every frame is OFF, and every stack reads zero. -/
def step6 (obs : StartObs) (s : State) : State :=
  let s := raiseDomains (List.range 32) obs.regulatorOk 0 s
  let s := (List.finRange 128).foldl (fun s (w : WellId) =>
    if !s.wellOn w then s
    else if obs.wellsOk.getLsbD w.val then (clearWell w false s).modSt w (fun t => { t with scoreboard := true })
    else retireWell w s) s
  let s := allFrames.foldl (fun s x => setFrame x .off (zeroFrame x.1 x.2 s)) s
  let s := zeroStacks 0 0x18000000000 s
  let s := if obs.slicesOk then s else s.modSu (fun u => { u with stopped := true, reason := if u.stopped then u.reason else 5 })
  nextStep s

/-- FB_FABCFG and FB_LCTL from the fabric record; every link that it does not hold disabled trains (R541). -/
def loadFabric (s : State) : State :=
  let s := s.modFar (fun x => { x with routes := [] })
  match s.wh.fabricRec with
  | none => s
  | some (cfg, ls) =>
    let s := { s.modFar (fun x => { x with fabric := cfg.extractLsb' 32 32, cfgId := cfg.extractLsb' 16 16, maxhop := cfg.extractLsb' 8 5, cfgNew := true }) with devValid := false }
    (List.finRange 36).foldl (fun s (l : LinkId) =>
      let v := ls.getD l.val 0
      let s := s.modLink l (fun k => { k with encReq := bitB v 61, retryMs := v.truncate 16 })
      if fieldN v 62 2 = 2 then s else cmdTrain l s) s

/-- Whether no link trains (R541). -/
def linksSettled (s : State) : Bool := s.far.links.toList.all (fun k => k.state == .active || k.state == .down || k.state == .disabled)

/-- Wells in service: on and not retired. -/
def wellServes (s : State) (w : WellId) : Bool := s.wellOn w && !s.hw.retired.getLsbD w.val

/-- A well group with all four wells in service, from a first group up to another (R537, R548). -/
def wholeGroup (s : State) (lo hi : Nat) : Bool :=
  (List.range (hi - lo)).any (fun g => (List.range 4).all (fun i => wellServes s (Fin.ofNat 128 (4 * (lo + g) + i))))

/-- Tag service with every tag empty (R250, R542). -/
def enterTagService (w : WellId) (s : State) : State :=
  s.modSt w (fun t => { t with scoreboard := false, pend := false, tags := 0, tagBad := [], claims := [] })

/-- Whether some unit is out of service (R537). -/
def degradedStart (s : State) : Bool :=
  s.stackMask != 0xFFFFFF || s.far.links.toList.any (fun k => k.state == .down) || s.domainOn != BitVec.ofNat 44 (2 ^ 44 - 1) ||
    !((List.finRange 128).all (fun w => wellServes s w))

/-- Step 10 (R537): READY or FAILED. An event lost over a warm reset is told first (R546). -/
def enterService (s : State) : State :=
  let s0 := s.stackMask.getLsbD 0
  let s := tellLoss s
  if s0 && wholeGroup s 0 32 then
    let s := s.modSu (fun u => { u with step := 10, st := 1, readyMs := BitVec.ofNat 32 u.elapsed })
    let s := platform 0x7000 0x0301 s
    if degradedStart s then platform 0x7000 0x0302 s else s
  else platform 0x7000 0x0303 (s.modSu (fun u => { u with step := 10, st := 2, reason := if s0 then 6 else 4 }))

/-- A start that an earlier step stopped ends after step 8 (R536). -/
def failStart (s : State) : State := platform 0x7000 0x0303 (s.modSu (fun u => { u with st := 2 }))

/-- START_UP_STEP (R535, R536): the step under way completes. Step 7 waits for the links to settle, step 8 for the Byvor Link. -/
def execStartUpStep (obs : StartObs) (s : State) : Out :=
  .next (
    if s.su.porLow || !s.pw.inputOn || s.su.st ≠ 0 then s
    else
      let t := s.modSu (fun u => { u with elapsed := u.elapsed + obs.ms.toNat })
      match s.su.step.toNat with
      | 2 => step2 t
      | 3 => step3 t
      | 4 => step4 obs t
      | 5 => step5 obs t
      | 6 => let t := step6 obs t; loadFabric t
      | 7 => if linksSettled s then nextStep (byCmdTrain t) else s
      | 8 => if s.by_.state == .active then (if s.su.stopped then failStart t else nextStep t) else s
      | 9 => enterService ((List.finRange 128).foldl (fun s w => if wellServes s w then enterTagService w s else s) t)
      | _ => s)

/-! Resets (R543-R549). -/

/-- What a warm reset leaves when step 2 begins again (R546, R547). -/
def warmState (s : State) : State :=
  let lost := s.events.length
  { powerOn s with
    far := { Far.reset with links := Vector.ofFn (fun (l : LinkId) => { Link.reset with weirs := s.far.links[l].weirs, weirRr := s.far.links[l].weirRr }) }
    basinMode := s.basinMode
    weirs := s.weirs
    weirRr := s.weirRr
    evtSeq := s.evtSeq
    evtLost := s.evtLost + BitVec.ofNat 64 lost
    evtFirstLost := if s.evtLost = 0 then (s.events.head?).map (·.seq) else s.evtFirstLost
    stg := { Stage.reset with t := s.stg.t, stageIn := s.stg.stageIn, stageOut := s.stg.stageOut }
    jobs := s.jobs.map (fun j => { Job.reset with gen := if j.state = .free then j.gen else j.gen + 1 })
    hw := { Headwater.reset with
      rings := s.hw.rings.map (fun r => { last := r.last, cmds := [] })
      basinCfg := s.hw.basinCfg
      retired := s.hw.retired
      soundSeq := s.hw.soundSeq
      wallTime := s.hw.wallTime }
    by_ := { ByLink.reset with gen := s.by_.gen, downs := s.by_.downs }
    bf := { Baseflow.reset with wearLog := s.bf.wearLog, telSeq := s.bf.telSeq, wellWear := s.bf.wellWear }
    bmc := s.bmc
    pw := { Power.reset with
      inputOn := s.pw.inputOn
      pwrGood := s.pw.pwrGood
      bmcLimit := s.pw.bmcLimit
      temps := s.pw.temps
      sensed := s.pw.sensed
      stackTemps := s.pw.stackTemps
      warn := s.pw.warn
      crit := s.pw.crit
      trip := s.pw.trip
      rising := s.pw.rising
      extreme := s.pw.extreme }
    wh := { Wellhead.reset with
      arbP := s.wh.arbP
      arbM := s.wh.arbM
      bank := s.wh.bank
      flashW := s.wh.flashW
      fabricRec := s.wh.fabricRec
      keySeqs := s.wh.keySeqs
      unlocks := s.wh.unlocks
      rptSeq := s.wh.rptSeq }
    su := { StartUp.reset with step := 2, porLow := false, last := 1, warms := stick 16 s.su.warms } }

/-- Whether every hotspot is below 70 degrees (R506). -/
def cooled (s : State) : Bool := s.pw.temps.toList.all (fun t => decide (t.toInt < 700))

/-- A warm reset (R546): baseflow writes the wear log first. After a trip it waits until the hotspots have cooled, and a hardware trip
needs a power-on reset (R506). -/
def warmReset (s : State) : State :=
  if s.su.porLow || !s.pw.inputOn || s.pw.hwtrip || (s.pw.tripped && !cooled s) then s
  else settleDuty (warmState (if 4 < s.su.step.toNat then writeWearLog true s else s))

/-- WARM_N (R533, R546). -/
def execWarmN (s : State) : Out := .next (warmReset s)
/-- WARM (R544, R546). -/
def execWarm (s : State) : Out := .next (warmReset s)

/-- ERR of WH_RESET (R544). -/
def refuseReset (e : BitVec 3) (s : State) : State := s.modWh (fun w => { w with resetErr := e })

/-- Number of basins of a layout (R16). -/
def basinCount' (mode : BitVec 2) : Nat := if mode = 1 then 2 else if mode = 2 then 4 else 1

/-- Whether every basin of a layout has its first stack and a whole well group (R548). -/
def layoutOk (s : State) (mode : BitVec 2) : Bool :=
  let n := basinCount' mode
  (List.range n).all (fun b => s.stackMask.getLsbD (24 / n * b) && wholeGroup s (32 / n * b) (32 / n * (b + 1)))

/-- The weirs at a basin reset: the host's settings, and the defaults of R321 where it gives none, as at the links, whose weirs
BASIN_CFG does not name (R363). -/
def basinWeirs (mode : BitVec 2) (ws : List (WeirAt × W64)) (s : State) : State :=
  let n := basinCount' mode
  let s := { s with weirs := Vector.replicate 64 Weir.reset, weirRr := Vector.replicate 16 0 }
  let s := ws.foldl (fun s x => writeWeir x.1.path x.1.basin x.2 s) s
  let s := s.modFar (fun x => { x with links := x.links.map (fun k => { k with weirs := Vector.ofFn (fun (b : Fin 4) =>
    if b.val < n then { Weir.reset with en := true, ceil := 0x100, floor := BitVec.ofNat 9 (0x100 / n) } else Weir.reset) }) })
  let paths : List WeirPath := (List.finRange 2).flatMap (fun h => (List.finRange 4).flatMap (fun p => (List.finRange 2).map (fun d => { half := h, point := p, dir := d })))
  paths.foldl (fun s p => (List.finRange 4).foldl (fun s (b : Fin 4) =>
    if b.val < n && !ws.any (fun x => x.1.path == p && x.1.basin == b) then
      writeWeir p b (putB 63 true ||| putN 32 0x100 ||| putN 16 (0x100 / n) ||| (weirWord s.weirs[weirIndex p b] &&& 0xFF)) s else s) s) s

/-- First bytes of the reserved pages of a layout (R413). -/
def reservedPages (mode : BitVec 2) : List Nat :=
  (List.range (basinCount' mode)).map (fun b => 24 / basinCount' mode * b * 0x1000000000 + 0xFFC000000)

/-- A basin reset (R547, R548). -/
def basinReset (s : State) : State :=
  let cfg := s.hw.basinCfg.getD (s.basinMode, [])
  if !slots.all (fun k => s.jobs[k].state == .free) then refuseReset 1 s
  else if !layoutOk s cfg.1 then refuseReset 3 s
  else
    let s := allFrames.foldl (fun s x => setFrame x .off (zeroFrame x.1 x.2 (flushFrame x.1 x.2 s))) s
    let gone := (reservedPages s.basinMode).filter (fun a => a != 0xFFC000000 && !(reservedPages cfg.1).contains a)
    let s := gone.foldl (fun s a => zeroStacks a 0x4000000 s) s
    let s := basinWeirs cfg.1 cfg.2 { s with basinMode := cfg.1, inflight := [] }
    let s := { s with counters := Vector.replicate 4096 { value := 0, sat := false, staged := false } }
    let s := s.modCf (fun c => { c with engines := c.engines.map (fun e => { e with ops := [], queues := Engine.reset.queues, snap := none }) })
    let s := cfgWrite (putN 60 s.stg.source.toNat ||| putN 58 s.stg.basin.toNat ||| putN 48 s.stg.maxrep.toNat ||| putN 32 s.stg.group.toNat) s
    let s := s.modPw (fun p => { p with active := 0, profReq := [] })
    let s := s.modWh (fun w => { w with meas := ((List.range 4).foldl (fun (v : Vector (BitVec 512) 16) i => v.set (Fin.ofNat 16 (8 + i)) 0) w.meas) })
    (extendMeas 5 (measPolicy s) s).modSu (fun u => { u with last := 2 })

/-- BASIN (R544, R548): Headwater runs it while the device is in service. -/
def execBasin (s : State) : Out := .next (if s.su.st = 1 then basinReset s else s)

/-- A well reset (R549): pass is the result of the self-test. While the stopped well's Pumps wait for outstanding data the reset goes no
further, and the command comes again. -/
def wellReset (w : WellId) (pass : Bool) (s : State) : State :=
  if s.hw.retired.getLsbD w.val || !s.wellOn w || !(s.wellJob[w].isNone || s.wells[w].cpu.wedged) then refuseReset 2 s
  else
    let s := stopWell w s
    if !wellDrained s w then s
    else
      let s := clearWell w false (enterScoreboard w s)
      let s := if pass then enterTagService w s else retireWell w s
      s.modSu (fun u => { u with last := 3 })

/-- WELL (R544, R549). -/
def execWell (w : WellId) (pass : Bool) (s : State) : Out := .next (if s.su.st = 1 then wellReset w pass s else s)

/-- CONTROL_PROCESSOR_MEMORY_ERROR (R455): a fabric core or Wellhead stops, and Headwater reports it. -/
def execControlProcessorMemoryError (core : Fin 5) (s : State) : Out :=
  .next (
    let s := s.modHw (fun h => { h with coreStopped := h.coreStopped ||| BitVec.ofNat 5 (2 ^ core.val) })
    s.report (if core = 4 then 0x9000 else BitVec.ofNat 16 (0x6010 + core.val)) 0x0C 0)

end Sys2Proof.Machine
end

