-- ==== Sys2Proof/Machine/RegMap.lean ====
section
/-! DEFINITION. The control register space as one map of reads and writes (R3, R24-R31, R292, R327-R331, R352, R353, R372-R374, R409-R411,
R468, R469, R483, R492, R493, R508, R509, R532, R538, R544), REGISTER_WRITE, and MGMT (R413). -/

namespace Sys2Proof.Machine

/-- RW1C on the OVF bit of a counter (R3, R329). -/
def clearOvf (v : W64) (c : Counter48) : Counter48 := { c with ovf := c.ovf && !bitB v 63 }

/-- RW1C on bit 63 of a register whose other bits are read-only. -/
def clearValid (v old : W64) : W64 := if bitB v 63 then old &&& ~~~(putB 63 true) else old

/-- A read without an effect. -/
def pureRead (v : W64) (s : State) : Option (W64 × State) := some (v, s)

/-! The device block (R29-R31, R279, R468, R469, R538). -/

def readDev (o : Nat) (s : State) : Option (W64 × State) :=
  match o with
  | 0x00 => pureRead devIdent s
  | 0x08 => pureRead (devConfig s) s
  | 0x10 => pureRead (deviceIdWord s) s
  | 0x20 => pureRead (devStart s) s
  | 0x100 => pureRead (s.asidBase.setWidth 64) s
  | 0x10000 => pureRead s.bf.ctl s
  | 0x10008 => pureRead s.bf.budget s
  | 0x10010 => pureRead s.bf.period s
  | 0x10018 => pureRead s.bf.phasewin s
  | 0x10020 => some (bfStat s.bf, s.modBf (fun b => { b with winmiss := 0, teldrop := 0, poisonSeen := 0, noop := 0 }))
  | 0x10028 => pureRead (putB 63 s.bf.telWrapped ||| s.bf.telHead.setWidth 64) s
  | _ => none

/-- BF_BUDGET: a field outside its range keeps its value (R469). -/
def writeBudget (old v : W64) : W64 :=
  let st := fieldN v 56 8
  let l := fieldN v 48 8
  putN 56 (if 5 ≤ st ∧ st ≤ 100 then st else fieldN old 56 8) ||| putN 48 (if 1 ≤ l ∧ l ≤ 100 then l else fieldN old 48 8)

def writeDev (src : Agent) (o : Nat) (v : W64) (s : State) : Option State :=
  match o with
  | 0x00 | 0x08 | 0x20 | 0x10028 => some s
  | 0x10 => some (if src = .fabric then { s with devValid := bitB v 63, devId := v.truncate 16 } else s)
  | 0x100 => some (if src = .headwater then { s with asidBase := v.truncate 44 &&& ~~~0x7FFFF } else s)
  | 0x10000 => some (s.modBf (fun b => { b with ctl := v &&& 0x1F }))
  | 0x10008 => some (s.modBf (fun b => { b with budget := writeBudget b.budget v }))
  | 0x10010 => some (s.modBf (fun b => { b with period := v &&& ~~~0xFFFF }))
  | 0x10018 => some (s.modBf (fun b => { b with phasewin := v &&& ~~~0xFFFFFFFF }))
  | 0x10020 => some (s.modBf (fun b => { b with scrubLate := b.scrubLate && !bitB v 63, wsaveErr := b.wsaveErr && !bitB v 62 }))
  | _ => none

/-! The memory-side dies (R292, R327-R331). -/

/-- Front end at an offset of a half's block: the two compute dies' and the bulk Pumps' (R292). -/
def frontAt (h : HalfId) (o : Nat) : FrontId :=
  if o / 0x10000 % 4 = 2 then Fin.ofNat 6 (4 + h.val) else Fin.ofNat 6 (2 * h.val + o / 0x10000 % 2)

def readFront (f : FrontId) (o : Nat) (s : State) : Option (W64 × State) :=
  if o = 0 then some (puFstat s.fronts[f], s.modFront f (fun x => { x with fullwait := 0 }))
  else if o = 8 then pureRead 0 s
  else if 0x1000 ≤ o ∧ o < 0x1800 ∧ o % 8 = 0 then pureRead (puFrec f (s.fronts[f].records[(Fin.ofNat 64 ((o - 0x1000) / 32) : Fin 64)]) (o % 32 / 8)) s
  else none

def writeFront (f : FrontId) (o : Nat) (v : W64) (s : State) : Option State :=
  if o = 0 then some (s.modFront f (fun x => { x with badresp := x.badresp && !bitB v 7 }))
  else if o = 8 then
    let k : Fin 64 := Fin.ofNat 64 (fieldN v 56 6)
    some (if fieldN v 62 2 = 1 then frespResume f k (v.extractLsb' 40 16) (v.extractLsb' 0 30) s
          else if fieldN v 62 2 = 2 then frespAbort f k (v.extractLsb' 40 16) (v.extractLsb' 0 30) s else s)
  else if 0x1000 ≤ o ∧ o < 0x1800 ∧ o % 8 = 0 then some s
  else none

/-- A stack controller's registers (R327, R330). -/
def readStack (n : StackId) (o : Nat) (s : State) : Option (W64 × State) :=
  let c := s.stks[n]
  match o with
  | 0x00 => some (scStat s n, s.modStack n (fun c => { c with retrain := 0 }))
  | 0x08 => pureRead (counterWord c.cecnt) s
  | 0x10 => pureRead c.elast s
  | 0x18 => pureRead (counterWord c.rdbytes) s
  | 0x20 => pureRead (counterWord c.wrbytes) s
  | 0x28 => pureRead (counterWord c.odecc) s
  | _ => none

def writeStack (n : StackId) (o : Nat) (v : W64) (s : State) : Option State :=
  match o with
  | 0x00 => some s
  | 0x08 => some (s.modStack n (fun c => { c with cecnt := clearOvf v c.cecnt }))
  | 0x10 => some (s.modStack n (fun c => { c with elast := clearValid v c.elast }))
  | 0x18 => some (s.modStack n (fun c => { c with rdbytes := clearOvf v c.rdbytes }))
  | 0x20 => some (s.modStack n (fun c => { c with wrbytes := clearOvf v c.wrbytes }))
  | 0x28 => some (s.modStack n (fun c => { c with odecc := clearOvf v c.odecc }))
  | _ => none

/-- The weir register at an offset from 0x30_0000 (R327): path, basin, and whether it is WEIR_CNT. -/
def weirAt (h : HalfId) (o : Nat) : Option (WeirPath × Fin 4 × Bool) :=
  let p : WeirPath := { half := h, point := Fin.ofNat 4 (o / 0x100), dir := Fin.ofNat 2 (o / 0x80) }
  if o < 0x400 ∧ o % 0x80 < 0x40 ∧ o % 8 = 0 ∧ weirExists p then some (p, Fin.ofNat 4 (o % 0x80 / 0x10), o % 16 == 8) else none

def readHalf (h : HalfId) (o : Nat) (s : State) : Option (W64 × State) :=
  let x := s.halves[h]
  match o with
  | 0x00 => pureRead (ciMode s h) s
  | 0x08 => pureRead 0 s
  | 0x10 => pureRead (ciFramest s h) s
  | 0x18 => pureRead (putB 0 x.maint.isSome) s
  | 0x20 => pureRead (counterWord x.cecnt) s
  | 0x28 => pureRead x.elast s
  | 0x100 => pureRead (counterWord x.hits) s
  | 0x108 => pureRead (counterWord x.misses) s
  | 0x110 => pureRead (counterWord x.wbacks) s
  | 0x118 => pureRead (counterWord x.lcreqs) s
  | _ =>
    if 0x100000 ≤ o ∧ o < 0x10C000 then
      let n : StackId := Fin.ofNat 24 (12 * h.val + (o - 0x100000) / 0x1000)
      if s.domain (36 + n.val / 6) then readStack n (o % 0x1000) s else none
    else if 0x200000 ≤ o ∧ o < 0x230000 then readFront (frontAt h o) (o % 0x10000) s
    else if 0x300000 ≤ o ∧ o < 0x300400 then
      (weirAt h (o - 0x300000)).map (fun x => (if x.2.2 then counterWord s.weirs[weirIndex x.1 x.2.1].cnt else weirWord s.weirs[weirIndex x.1 x.2.1], s))
    else none

/-- CI_FRAMECTL (R305, R307, R328): a reserved command is refused. -/
def writeFramectl (h : HalfId) (v : W64) (s : State) : State :=
  let m : BitVec 16 := v.truncate 16
  match fieldN v 60 4 with
  | 1 => frameCommand h .close m s
  | 2 => frameCommand h .off m s
  | 3 => frameCommand h .clear m s
  | 4 => frameCommand h .toscratch m s
  | 5 => frameCommand h .tocache m s
  | 6 => frameCommand h .open m s
  | _ => s.modHalf h (fun x => { x with err := 4 })

def writeHalf (src : Agent) (h : HalfId) (o : Nat) (v : W64) (s : State) : Option State :=
  match o with
  | 0x00 => some (s.modHalf h (fun x => { x with lcrun := v.truncate 8 }))
  | 0x08 => some (writeFramectl h v s)
  | 0x10 => some s
  | 0x18 => some (if fieldN v 60 4 = 1 then startMaint h false s else if fieldN v 60 4 = 2 then startMaint h true s else s)
  | 0x20 => some (s.modHalf h (fun x => { x with cecnt := clearOvf v x.cecnt }))
  | 0x28 => some (s.modHalf h (fun x => { x with elast := clearValid v x.elast }))
  | 0x100 => some (s.modHalf h (fun x => { x with hits := clearOvf v x.hits }))
  | 0x108 => some (s.modHalf h (fun x => { x with misses := clearOvf v x.misses }))
  | 0x110 => some (s.modHalf h (fun x => { x with wbacks := clearOvf v x.wbacks }))
  | 0x118 => some (s.modHalf h (fun x => { x with lcreqs := clearOvf v x.lcreqs }))
  | _ =>
    if 0x100000 ≤ o ∧ o < 0x10C000 then
      let n : StackId := Fin.ofNat 24 (12 * h.val + (o - 0x100000) / 0x1000)
      if s.domain (36 + n.val / 6) then writeStack n (o % 0x1000) v s else none
    else if 0x200000 ≤ o ∧ o < 0x230000 then writeFront (frontAt h o) (o % 0x10000) v s
    else if 0x300000 ≤ o ∧ o < 0x300400 then
      (weirAt h (o - 0x300000)).map (fun x =>
        if src ≠ .headwater then s
        else if x.2.2 then
          let k := weirIndex x.1 x.2.1
          let w := s.weirs[k]
          { s with weirs := s.weirs.set k { w with cnt := clearOvf v w.cnt } }
        else writeWeir x.1 x.2.1 v s)
    else none

/-! The I/O dies: links, routes and groups (R372-R374). -/

/-- Link of an I/O die's block at an offset. -/
def linkAt (io : Fin 2) (o : Nat) : LinkId := Fin.ofNat 36 (18 * io.val + (o - 0x10000) / 0x1000 % 18)

def readLink (l : LinkId) (o : Nat) (s : State) : Option (W64 × State) :=
  let k := s.far.links[l]
  match o with
  | 0x00 => pureRead (fbLctl k) s
  | 0x08 => pureRead (fbLstat k) s
  | 0x10 => pureRead (k.cred.setWidth 64) s
  | 0x18 => pureRead (fbVcarb k) s
  | 0x20 => pureRead (fbOpt k) s
  | 0x40 => pureRead (counterWord k.corr) s
  | 0x48 => pureRead (counterWord k.uncorr) s
  | 0x50 => pureRead (counterWord k.retry) s
  | 0x58 => pureRead (counterWord k.crcerr) s
  | 0x60 => pureRead (counterWord k.autherr) s
  | 0x68 => pureRead (counterWord k.drop) s
  | 0x80 => pureRead (weirWord k.weirs[(0 : Fin 4)]) s
  | 0x88 => pureRead (weirWord k.weirs[(1 : Fin 4)]) s
  | 0x90 => pureRead (weirWord k.weirs[(2 : Fin 4)]) s
  | 0x98 => pureRead (weirWord k.weirs[(3 : Fin 4)]) s
  | _ => none

/-- FB_LCTL (R374): the fields, then the command. -/
def writeLctl (l : LinkId) (v : W64) (s : State) : State :=
  let s := s.modLink l (fun k => { k with encReq := bitB v 61, retryMs := v.truncate 16 })
  match fieldN v 62 2 with
  | 1 => cmdTrain l s
  | 2 => cmdDisable l s
  | 3 => linkRetrain l s
  | _ => s

/-- FB_VCCRED: a write that totals more than 64 units is ignored (R374). -/
def writeVccred (v : W64) (k : Link) : Link :=
  if fieldN v 0 8 + fieldN v 8 8 + fieldN v 16 8 + fieldN v 24 8 + fieldN v 32 8 ≤ 64 then { k with cred := v.truncate 40 } else k

/-- FB_WEIRb (R321, R363). -/
def writeFbWeir (b : Fin 4) (v : W64) (k : Link) : Link :=
  let w : Weir := { k.weirs[b] with en := bitB v 63, ceil := v.extractLsb' 32 9, floor := v.extractLsb' 16 9, depth := v.extractLsb' 0 8 }
  let ws : Vector Weir 4 := k.weirs.set b w
  let sum : Nat := ws.toList.foldl (fun (a : Nat) (x : Weir) => a + (if x.en then x.floor.toNat else 0)) 0
  if w.floor.toNat ≤ w.ceil.toNat ∧ w.ceil.toNat ≤ 0x100 ∧ sum ≤ 0x100 then { k with weirs := ws } else k

def writeLink (l : LinkId) (o : Nat) (v : W64) (s : State) : Option State :=
  let up (f : Link → Link) : Option State := some (s.modLink l f)
  match o with
  | 0x00 => some (writeLctl l v s)
  | 0x08 => up (fun k => { k with degraded := k.degraded && !bitB v 13 })
  | 0x10 => up (writeVccred v)
  | 0x18 => up (fun k => { k with cap0 := v.extractLsb' 56 8, cap4 := v.extractLsb' 48 8, w1 := v.extractLsb' 16 8, w2 := v.extractLsb' 8 8, w3 := v.extractLsb' 0 8 })
  | 0x20 => some s
  | 0x40 => up (fun k => { k with corr := clearOvf v k.corr })
  | 0x48 => up (fun k => { k with uncorr := clearOvf v k.uncorr })
  | 0x50 => up (fun k => { k with retry := clearOvf v k.retry })
  | 0x58 => up (fun k => { k with crcerr := clearOvf v k.crcerr })
  | 0x60 => up (fun k => { k with autherr := clearOvf v k.autherr })
  | 0x68 => up (fun k => { k with drop := clearOvf v k.drop })
  | 0x80 => up (writeFbWeir 0 v)
  | 0x88 => up (writeFbWeir 1 v)
  | 0x90 => up (writeFbWeir 2 v)
  | 0x98 => up (writeFbWeir 3 v)
  | _ => none

/-- FB_FABCFG (R361, R373, R541): DEVICE_ID is no longer valid, and with no fabric record in the flash the links now train. -/
def writeFabcfg (v : W64) (s : State) : State :=
  let s := { s.modFar (fun x => { x with fabric := v.extractLsb' 32 32, cfgId := v.extractLsb' 16 16, maxhop := v.extractLsb' 8 5, cfgNew := true }) with devValid := false }
  if s.wh.fabricRec.isNone then (List.finRange 36).foldl (fun s l => cmdTrain l s) s else s

/-- A route entry, written whole; accesses whose route it makes unusable end (R364, R365). -/
def writeRoute (d : BitVec 16) (v : W64) (s : State) : State :=
  let v := v &&& 0xC00000003F3F3F3F
  loseAccesses (s.modFar (fun x => { x with routes := (if v = 0 then [] else [(d, v)]) ++ x.routes.filter (fun r => r.1 != d) }))

/-- One word of an ingress window (R373). -/
def writeIngress (k : Fin 16) (word : Nat) (v : W64) (x : Far) : Far :=
  let i := x.ingress[k]
  let i : Ingress := match word with
    | 0 => { i with base := v.truncate 44 }
    | 1 => { i with limit := v.truncate 44 }
    | 2 => { i with valid := bitB v 63, rights := v.extractLsb' 60 3, basin := v.extractLsb' 58 2, anysrc := bitB v 57, group := v.truncate 16 }
    | _ => i
  { x with ingress := x.ingress.set k i }

def readFab (io : Fin 2) (o : Nat) (s : State) : Option (W64 × State) :=
  if o % 8 ≠ 0 then none
  else if o = 0x00 then pureRead (fbFabcfg s) s
  else if o = 0x08 then pureRead (putN 48 s.far.respto.toNat) s
  else if o = 0x10 then pureRead (counterWord s.far.ingrej) s
  else if 0x10000 ≤ o ∧ o < 0x22000 then readLink (linkAt io o) (o % 0x1000) s
  else if 0x80000 ≤ o ∧ o < 0x80200 then pureRead (ingressWord s.far.ingress[(Fin.ofNat 16 ((o - 0x80000) / 32) : Fin 16)] (o % 32 / 8)) s
  else if 0x90000 ≤ o ∧ o < 0x90800 then pureRead (groupWord s.far.groups[(Fin.ofNat 64 ((o - 0x90000) / 32) : Fin 64)] (o % 32 / 8)) s
  else if 0x100000 ≤ o ∧ o < 0x180000 then pureRead (effectiveRoute s (BitVec.ofNat 16 ((o - 0x100000) / 8))) s
  else none

def writeFab (src : Agent) (io : Fin 2) (o : Nat) (v : W64) (s : State) : Option State :=
  if o % 8 ≠ 0 then none
  else if o = 0x00 then some (writeFabcfg v s)
  else if o = 0x08 then some (s.modFar (fun x => { x with respto := v.extractLsb' 48 16 }))
  else if o = 0x10 then some (s.modFar (fun x => { x with ingrej := clearOvf v x.ingrej }))
  else if 0x10000 ≤ o ∧ o < 0x22000 then writeLink (linkAt io o) (o % 0x1000) v s
  else if 0x80000 ≤ o ∧ o < 0x80200 then
    some (if src = .headwater then s.modFar (writeIngress (Fin.ofNat 16 ((o - 0x80000) / 32)) (o % 32 / 8) v) else s)
  else if 0x90000 ≤ o ∧ o < 0x90800 then some s
  else if 0x100000 ≤ o ∧ o < 0x180000 then some (writeRoute (BitVec.ofNat 16 ((o - 0x100000) / 8)) v s)
  else none

/-! Confluence (R409-R411). -/

/-- Bytes dropped toward a rank (R409). -/
def dropOf (x : Engine) (j : Fin 512) : Counter48 := ((x.drops.find? (fun d => d.1 == j)).map (·.2)).getD Counter48.reset

def readEngine (e : EngineId) (o : Nat) (s : State) : Option (W64 × State) :=
  let x := s.cf.engines[e]
  if o = 0 then some (cfEstat x, s.modEng e (fun x => { x with stray := 0 }))
  else if 0x100 ≤ o ∧ o < 0x300 then pureRead (queueWord x.queues[(Fin.ofNat 16 ((o - 0x100) / 32) : Fin 16)] (o % 32 / 8)) s
  else if 0x400 ≤ o ∧ o < 0x1400 then pureRead (counterWord (dropOf x (Fin.ofNat 512 ((o - 0x400) / 8)))) s
  else if 0x1400 ≤ o ∧ o < 0x1430 then pureRead (cfAbort x ((o - 0x1400) / 8)) s
  else none

/-- Word 0 or 1 of a post queue (R410); words 2 and 3 are not written. -/
def writeQueueWord (word : Nat) (v : W64) (q : PostQueue) : PostQueue :=
  match word with
  | 0 => { q with w0 := v &&& 0xC0FFFFFFFFFFFFFF }
  | 1 => { q with w1 := v &&& 0xFCFFFFFFFFFF1FFF }
  | _ => q

def writeEngine (e : EngineId) (o : Nat) (v : W64) (s : State) : Option State :=
  if o = 0 then some s
  else if 0x100 ≤ o ∧ o < 0x300 then
    let q : Fin 16 := Fin.ofNat 16 ((o - 0x100) / 32)
    some (s.modEng e (fun x => { x with queues := x.queues.set q (writeQueueWord (o % 32 / 8) v x.queues[q]) }))
  else if 0x400 ≤ o ∧ o < 0x1400 then
    let j : Fin 512 := Fin.ofNat 512 ((o - 0x400) / 8)
    some (s.modEng e (fun x => { x with drops := x.drops.map (fun d => if d.1 = j then (d.1, clearOvf v d.2) else d) }))
  else if 0x1400 ≤ o ∧ o < 0x1430 then some (if o = 0x1400 then s.modEng e (fun x => { x with abortV := x.abortV && !bitB v 63 }) else s)
  else none

/-- Counter, engine and coalescing registers of an I/O die. The spec gives no place of CF_RPTDROP by die: both show every link. -/
def readConf (io : Fin 2) (o : Nat) (s : State) : Option (W64 × State) :=
  if o % 8 ≠ 0 then none
  else if o < 0x204000 then pureRead (ctrWord s.counters[(Fin.ofNat 4096 (2048 * io.val + (o - 0x200000) / 8) : Fin 4096)]) s
  else if 0x240000 ≤ o ∧ o < 0x260000 then readEngine (Fin.ofNat 4 (2 * io.val + (o - 0x240000) / 0x10000)) (o % 0x10000) s
  else if 0x260000 ≤ o ∧ o < 0x260400 then pureRead (cfGrp s.far.groups[(Fin.ofNat 64 ((o - 0x260000) / 16) : Fin 64)] (o % 16 / 8)) s
  else if 0x280000 ≤ o ∧ o < 0x2A0000 ∧ io = 0 then
    pureRead (match s.cf.coal[(Fin.ofNat 4096 ((o - 0x280000) / 32) : Fin 4096)] with | some c => (coalWords c).getD (o % 32 / 8) 0 | none => 0) s
  else if o = 0x2A0000 ∧ io = 0 then pureRead (counterWord s.cf.coalOvf) s
  else if o = 0x2A0008 ∧ io = 0 then pureRead s.cf.ovfFirst s
  else if 0x2A0100 ≤ o ∧ o < 0x2A0220 then pureRead (counterWord s.far.links[(Fin.ofNat 36 ((o - 0x2A0100) / 8) : LinkId)].rptDrop) s
  else none

def writeConf (src : Agent) (io : Fin 2) (o : Nat) (v : W64) (s : State) : Option State :=
  if o % 8 ≠ 0 then none
  else if o < 0x204000 then
    let c : CtrId := Fin.ofNat 4096 (2048 * io.val + (o - 0x200000) / 8)
    some (if src = .headwater ∨ src = .fabric then { s with counters := s.counters.set c { value := v.truncate 32, sat := false, staged := bitB v 62 } } else s)
  else if 0x240000 ≤ o ∧ o < 0x260000 then writeEngine (Fin.ofNat 4 (2 * io.val + (o - 0x240000) / 0x10000)) (o % 0x10000) v s
  else if 0x260000 ≤ o ∧ o < 0x260400 then
    some (if o % 16 = 0 then s.modGroup (Fin.ofNat 64 ((o - 0x260000) / 16)) (fun g => { g with timeout := v.extractLsb' 48 16 }) else s)
  else if 0x280000 ≤ o ∧ o < 0x2A0000 ∧ io = 0 then some s
  else if o = 0x2A0000 ∧ io = 0 then some (s.modCf (fun c => { c with coalOvf := clearOvf v c.coalOvf }))
  else if o = 0x2A0008 ∧ io = 0 then some s
  else if 0x2A0100 ≤ o ∧ o < 0x2A0220 then some (s.modLink (Fin.ofNat 36 ((o - 0x2A0100) / 8)) (fun k => { k with rptDrop := clearOvf v k.rptDrop }))
  else none

/-! The Byvor Link (R483, R492, R493). -/

/-- A word of a window entry (R483). -/
def windowWord (w : Window) (k : Nat) : W64 := match k with | 0 => w.w0 | 1 => w.w1 | 2 => w.w2 | _ => 0

def readBy (o : Nat) (s : State) : Option (W64 × State) :=
  let b := s.by_
  match o with
  | 0x00 => pureRead (byLctl b) s
  | 0x08 => pureRead (byLstat b) s
  | 0x10 => pureRead b.werr s
  | 0x20 => pureRead s.hw.rings[(0 : Fin 4)].last s
  | 0x28 => pureRead s.hw.rings[(1 : Fin 4)].last s
  | 0x30 => pureRead s.hw.rings[(2 : Fin 4)].last s
  | 0x38 => pureRead s.hw.rings[(3 : Fin 4)].last s
  | 0x40 => pureRead (counterWord b.corr) s
  | 0x48 => pureRead (counterWord b.uncorr) s
  | 0x50 => pureRead (counterWord b.retry) s
  | 0x58 => pureRead (counterWord b.crcerr) s
  | 0x60 => pureRead (counterWord b.wfail) s
  | _ => if 0x1000 ≤ o ∧ o < 0x1200 ∧ o % 8 = 0 then pureRead (windowWord b.windows[(Fin.ofNat 16 ((o - 0x1000) / 32) : Fin 16)] (o % 32 / 8)) s else none

/-- A window entry after a write of one word: addresses are kept to 4 KiB, UNC is cleared by a one (R483). -/
def setWindowWord (w : Window) (k : Nat) (v : W64) : Window :=
  match k with
  | 0 => { w with w0 := v &&& 0xFFFFFFFF000 }
  | 1 => { w with w1 := (v &&& 0xFFFFFFFFFFF) ||| 0xFFF }
  | 2 => { w with w2 := (v &&& 0xFC0000FFFFFFF000) ||| (if bitB v 57 then 0 else w.w2 &&& putB 57 true) }
  | _ => w

/-- Whether every byte of a range that lies in a well window lies in one well's stores. -/
def wellRangeOk (lo hi : Nat) : Bool :=
  let a := 0x30000000000
  if hi < a ∨ a + 0x80000000 ≤ lo then true
  else decide (a ≤ lo ∧ hi < a + 0x80000000 ∧ (lo - a) / 0x1000000 = (hi - a) / 0x1000000 ∧ (hi - a) % 0x1000000 < 0x700000)

/-- Whether two inclusive ranges meet. -/
def rangesMeet (a b c d : Nat) : Bool := decide (a ≤ d ∧ c ≤ b)

/-- Whether a range reaches a resource of another basin (R17). -/
def otherBasinRange (s : State) (b lo hi : Nat) : Bool :=
  s.basinMode != 0 && (
    (List.finRange 24).any (fun n => rangesMeet lo hi (n.val * 0x1000000000) (n.val * 0x1000000000 + 0xFFFFFFFFF) && basinOfStack s.basinMode n != b) ||
    (List.range 4).any (fun q => rangesMeet lo hi (0x20000000000 + q * 0x10000000) (0x20000000000 + q * 0x10000000 + 0xFFFFFFF) && basinOfScratch s.basinMode (q * 0x10000000) != b) ||
    (List.finRange 128).any (fun w => rangesMeet lo hi (wellAddr w 0) (wellAddr w 0xFFFFFF) && basinOfWellN s.basinMode w != b))

/-- Why Headwater refuses a window entry (R483). -/
def windowRefusal (s : State) (i : Fin 16) (w : Window) : Option (BitVec 8) :=
  if !bitB w.w2 63 then none
  else
    let lo := w.w0.toNat
    let hi := w.w1.toNat
    let ap := fieldN w.w2 0 40
    let tel := decide (0xFFF000000 ≤ lo ∧ hi < 0x1000000000)
    let pages := reservedPages s.basinMode
    let overlap := (List.finRange 16).any (fun k =>
      let x := s.by_.windows[k]
      k != i && bitB x.w2 63 && rangesMeet ap (ap + (hi - lo)) (fieldN x.w2 0 40) (fieldN x.w2 0 40 + (x.w1.toNat - x.w0.toNat)))
    if decide (0xF0000000000 ≤ hi) || !wellRangeOk lo hi || (!tel && pages.any (fun p => rangesMeet lo hi p (p + 0x3FFFFFF))) then some hsInvalid
    else if (bitB w.w2 62 && rangesMeet lo hi 0xFFF000000 0xFFFFFFFFF) || overlap then some hsInvalid
    else if otherBasinRange s (fieldN w.w2 58 2) lo hi then some hsDenied
    else none

/-- Writing a word of a window entry, refused by R483 or not. -/
def writeWindow (i : Fin 16) (k : Nat) (v : W64) (s : State) : Except (BitVec 8) State :=
  let w := setWindowWord s.by_.windows[i] k v
  match windowRefusal s i w with
  | some st => .error st
  | none => .ok (s.modBy (fun b => { b with windows := b.windows.set i w }))

/-- BY_LCTL (R493). -/
def writeByLctl (v : W64) (s : State) : State :=
  let s := s.modBy (fun b => { b with encReq := bitB v 61, retryMs := v.truncate 16 })
  match fieldN v 62 2 with
  | 1 => byCmdTrain s
  | 2 => byCmdDisable s
  | 3 => byRetrain s
  | _ => s

def writeBy (o : Nat) (v : W64) (s : State) : Option State :=
  match o with
  | 0x00 => some (writeByLctl v s)
  | 0x08 | 0x20 | 0x28 | 0x30 | 0x38 => some s
  | 0x10 => some (s.modBy (fun b => { b with werr := clearValid v b.werr }))
  | 0x40 => some (s.modBy (fun b => { b with corr := clearOvf v b.corr }))
  | 0x48 => some (s.modBy (fun b => { b with uncorr := clearOvf v b.uncorr }))
  | 0x50 => some (s.modBy (fun b => { b with retry := clearOvf v b.retry }))
  | 0x58 => some (s.modBy (fun b => { b with crcerr := clearOvf v b.crcerr }))
  | 0x60 => some (s.modBy (fun b => { b with wfail := clearOvf v b.wfail }))
  | _ =>
    if 0x1000 ≤ o ∧ o < 0x1200 ∧ o % 8 = 0 then
      some (match writeWindow (Fin.ofNat 16 ((o - 0x1000) / 32)) (o % 32 / 8) v s with | .ok s => s | .error _ => s)
    else none

/-- An I/O die's block: the Byvor Link lies in IO0 alone (R24, R492), each part in its domain (R19, R21). -/
def readIo (io : Fin 2) (o : Nat) (s : State) : Option (W64 × State) :=
  if 0x300000 ≤ o ∧ io = 0 then (if s.domain 41 then readBy (o - 0x300000) s else none)
  else if !s.domain (40 + 2 * io.val) then none
  else if o < 0x200000 then readFab io o s
  else if o < 0x300000 then readConf io o s
  else none

def writeIo (src : Agent) (io : Fin 2) (o : Nat) (v : W64) (s : State) : Option State :=
  if 0x300000 ≤ o ∧ io = 0 then (if s.domain 41 then writeBy (o - 0x300000) v s else none)
  else if !s.domain (40 + 2 * io.val) then none
  else if o < 0x200000 then writeFab src io o v s
  else if o < 0x300000 then writeConf src io o v s
  else none

/-! The stage block (R352, R353). -/

def readStage (o : Nat) (s : State) : Option (W64 × State) :=
  let g := s.stg
  match o with
  | 0x000 => pureRead s.stageNumber s
  | 0x008 => pureRead (stageWord1 g) s
  | 0x010 => pureRead (stCfg g) s
  | 0x018 => pureRead (g.l.setWidth 64) s
  | 0x020 => pureRead (g.linit.setWidth 64) s
  | 0x028 => pureRead (putN 56 g.timeout.toNat ||| putN 24 g.deadline.toNat ||| g.minstep.setWidth 64) s
  | 0x030 => pureRead (putN 32 g.wirecomp.toNat ||| g.rillhop.setWidth 64) s
  | 0x038 => pureRead 0 s
  | 0x040 => some (stStat g, s.modStg (fun g => { g with stalew := 0, wiremiss := 0, repeats := 0, conflict := 0 }))
  | 0x048 => pureRead (stMaster s) s
  | 0x050 => pureRead g.tmark s
  | 0x058 => pureRead g.t s
  | 0x060 => some (stEvstat g, s.modStg (fun g => { g with latefire := 0, dropped := 0 }))
  | _ =>
    if 0x1000 ≤ o ∧ o < 0x3000 ∧ o % 8 = 0 then pureRead (slotWord g.slots[(Fin.ofNat 256 ((o - 0x1000) / 32) : Fin 256)] (o % 32 / 8)) s else none

/-! Power (R508, R509). -/

def readPw (o : Nat) (s : State) : Option (W64 × State) :=
  match o with
  | 0x000 => pureRead 0 s
  | 0x008 => pureRead (pwDomerr s.pw) s
  | 0x010 => pureRead (pwDomst s 0) s
  | 0x018 => pureRead (pwDomst s 1) s
  | 0x020 => pureRead (pwCap s.pw) s
  | 0x028 => pureRead (pwStat s.pw) s
  | 0x080 => pureRead (thStat s) s
  | _ => if 0x040 ≤ o ∧ o < 0x080 ∧ o % 8 = 0 then pureRead s.pw.profiles[(Fin.ofNat 8 ((o - 0x40) / 8) : Fin 8)] s else none

/-- PW_DOMCTL (R498, R509). -/
def writeDomctl (v : W64) (s : State) : State :=
  match fieldN v 60 4 with
  | 1 => domainCommand true (v.truncate 44) s
  | 2 => domainCommand false (v.truncate 44) s
  | _ => refuseDomain 5 ((maskDomains (v.truncate 44)).headD 0) s

/-- PW_PROFILEn: a field outside its range keeps its value (R509). -/
def writeProfile (old v : W64) : W64 :=
  let l := fieldN v 48 16
  let m := fieldN v 40 7
  putN 48 (if 400 ≤ l ∧ l ≤ 2800 then l else fieldN old 48 16) ||| putN 40 (if 1 ≤ m ∧ m ≤ 64 then m else fieldN old 40 7)

def writePw (src : Agent) (o : Nat) (v : W64) (s : State) : Option State :=
  match o with
  | 0x000 => some (if src = .headwater then writeDomctl v s else s)
  | 0x008 | 0x010 | 0x018 | 0x080 => some s
  | 0x020 => some (if src = .headwater then capWrite v s else s)
  | 0x028 => some (s.modPw (fun p => { p with fast := p.fast && !bitB v 56 }))
  | _ =>
    if 0x040 ≤ o ∧ o < 0x080 ∧ o % 8 = 0 then
      let n : Fin 8 := Fin.ofNat 8 ((o - 0x40) / 8)
      some (if src = .headwater then s.modPw (fun p => { p with profiles := p.profiles.set n (writeProfile p.profiles[n] v) }) else s)
    else none

/-! The Wellhead mailbox (R532, R544). -/

def readWh (o : Nat) (s : State) : Option (W64 × State) :=
  match o with
  | 0x00 => pureRead 0 s
  | 0x08 => pureRead (whStat s.wh) s
  | 0x10 => pureRead (whSec s) s
  | 0x18 => pureRead (putN 57 s.wh.resetErr.toNat) s
  | _ => if 0x10000 ≤ o ∧ o < 0x20000 ∧ o % 8 = 0 then pureRead (bytesWord (memReads s.wh.buf (o - 0x10000) 8)) s else none

/-- WH_RESET (R544); the outcome of a well's self-test is free where a register write starts it. Headwater runs a basin or a well reset
while the device is in service. -/
def writeReset (v : W64) (s : State) : State :=
  match fieldN v 60 4 with
  | 1 => warmReset s
  | 2 => if s.su.st = 1 then basinReset s else s
  | 3 => if s.su.st = 1 then (let r := s.takeFree; wellReset (Fin.ofNat 128 (fieldN v 0 7)) (bitB r.1 0) r.2) else s
  | _ => s

def writeWh (o : Nat) (v : W64) (s : State) : Option State :=
  match o with
  | 0x00 => some (whRequest v s)
  | 0x08 | 0x10 => some s
  | 0x18 => some (writeReset v s)
  | _ =>
    if 0x10000 ≤ o ∧ o < 0x20000 ∧ o % 8 = 0 then some (s.modWh (fun w => { w with buf := memWrites w.buf (o - 0x10000) (wordBytes v) })) else none

/-! The whole space. -/

/-- A read of the control register space (R24); none where no register answers. -/
def readControl (addr : Nat) (s : State) : Option (W64 × State) :=
  let o := (addr - 0xF0000000000) % 0x100000000
  if addr < 0xF0000000000 ∨ addr % 8 ≠ 0 then none
  else match (addr - 0xF0000000000) / 0x100000000 with
  | 0 => readDev o s
  | 1 => readHalf 0 o s
  | 2 => readHalf 1 o s
  | 3 => readIo 0 o s
  | 4 => readIo 1 o s
  | 5 => readStage o s
  | 6 => readPw o s
  | 7 => readWh o s
  | _ => none

/-- A write into the control register space (R3, R24); none where no register answers. -/
def writeControl (src : Agent) (addr : Nat) (v : W64) (s : State) : Option State :=
  let o := (addr - 0xF0000000000) % 0x100000000
  if addr < 0xF0000000000 ∨ addr % 8 ≠ 0 then none
  else match (addr - 0xF0000000000) / 0x100000000 with
  | 0 => writeDev src o v s
  | 1 => writeHalf src 0 o v s
  | 2 => writeHalf src 1 o v s
  | 3 => writeIo src 0 o v s
  | 4 => writeIo src 1 o v s
  | 5 => writeStage o v s
  | 6 => writePw src o v s
  | 7 => writeWh o v s
  | _ => none

/-- REGISTER_WRITE (R3, R25): no Windlass reaches the control register space, and a reserved address takes nothing. The control registers of
a well are written by its ring 0 and by Headwater (R111, R248, R256, R291, R419). -/
def execRegisterWrite (src : Agent) (addr : BitVec 44) (v : W64) (s : State) : Out :=
  .next (match placeOf addr.toNat with
    | .well w o =>
      if (src == .headwater || src == .windlass) && decide (0xF00000 ≤ o) && o % 8 == 0 && s.wellOn w && !mailWaits s w o then writeWellReg src w o v s
      else s
    | _ => if src = .windlass then s else (writeControl src addr.toNat v s).getD s)

/-! MGMT (R25, R413). -/

/-- The fabric record after a MGMT write (R534, R541): FB_FABCFG, and FB_LCTL of a link as written. -/
def recordFabric (link : Option LinkId) (v : W64) (s : State) : State :=
  let old := (s.wh.fabricRec.map (·.2)).getD (s.far.links.toList.map fbLctl)
  let ls := match link with | some l => old.set l.val v | none => old
  s.modWh (fun w => { w with fabricRec := some (fbFabcfg s, ls) })

/-- Whether an address is FB_FABCFG, and the link whose FB_LCTL it is. -/
def fabricAddr (a : Nat) : Bool × Option LinkId :=
  let o := a % 0x100000000
  let b := (a - 0xF0000000000) / 0x100000000
  if b = 3 ∨ b = 4 then
    (o == 0, if 0x10000 ≤ o ∧ o < 0x22000 ∧ o % 0x1000 = 0 then some (linkAt (if b = 3 then 0 else 1) o) else none)
  else (false, none)

/-- The memory window entry at an address (R492). -/
def windowAddr (a : Nat) : Option (Fin 16 × Nat) :=
  if 0xF0300301000 ≤ a ∧ a < 0xF0300301200 ∧ a % 8 = 0 then some (Fin.ofNat 16 ((a - 0xF0300301000) / 32), a % 32 / 8) else none

/-- MGMT: a read returns the register's low 56 bits in RESULT; in recovery mode only the mailbox block answers (R519). -/
def mgmtCmd (write : Bool) (a : Nat) (v : W64) (s : State) : HwAns :=
  if s.wh.recovery && (a - 0xF0000000000) / 0x100000000 != 7 then .of hsHalted s
  else if !write then
    match readControl a s with
    | none => .of hsInvalid s
    | some r => { status := hsOk, result := r.1.truncate 56, after := r.2 }
  else match windowAddr a with
  | some (i, k) =>
    if !s.domain 41 then .of hsInvalid s
    else (match writeWindow i k v s with
      | .ok s => .of hsOk s
      | .error st => .of st s)
  | none =>
    match writeControl .headwater a v s with
    | none => .of hsInvalid s
    | some t =>
      let f := fabricAddr a
      .of hsOk (if f.1 then recordFabric none 0 t else match f.2 with | some l => recordFabric (some l) v t | none => t)

/-- MGMT (R413). -/
def execMgmt (r : Fin 4) (s : State) : Out :=
  .next (runCmd r false true (fun c => match c with | .mgmt w a v => some (mgmtCmd w a.toNat v) | _ => none) s)

end Sys2Proof.Machine
end

