-- ==== Sys2Proof/Machine/Scalar.lean ====
section
/-! DEFINITION. CLASS 0x0, scalar integer instructions (R168, R169). -/

namespace Sys2Proof.Machine

/-- A CLASS 0x0 instruction with operand 2: gd := f gs1 op2. -/
def aluIssue (mn : String) (lo hi : Nat) (f : Nat → W64 → W64 → W64) (w : WellId) (i : W64) (s : State) : Out :=
  issue w i { mnemonic := mn, cls := 0, lo := lo, hi := hi, legal := aluLegal } (aluUses i)
    (fun s => .done (setG w (wDest i) (f (wOp i) ((s.cpu w).rd (wS1 i)) (aluOp2 (s.cpu w) i)) s)) s

/-- gs1 + op2 or gs1 - op2. -/
def aluAddSub (op : Nat) (a b : W64) : W64 := if op = 0x001 then a + b else a - b

/-- Bitwise and, or, xor, andn. -/
def aluLogic (op : Nat) (a b : W64) : W64 :=
  if op = 0x003 then a &&& b else if op = 0x004 then a ||| b else if op = 0x005 then a ^^^ b else a &&& ~~~b

/-- Shifts by op2 mod 64. -/
def aluShift (op : Nat) (a b : W64) : W64 :=
  let n := b.toNat % 64
  if op = 0x008 then a <<< n else if op = 0x009 then a >>> n else a.sshiftRight n

/-- slt, sltu. -/
def aluSlt (op : Nat) (a b : W64) : W64 :=
  if (if op = 0x010 then a.slt b else a.ult b) then 1 else 0

/-- min, max, minu, maxu. -/
def aluMinMax (op : Nat) (a b : W64) : W64 :=
  if op = 0x012 then (if b.slt a then b else a)
  else if op = 0x013 then (if a.slt b then b else a)
  else if op = 0x014 then (if b.ult a then b else a)
  else (if a.ult b then b else a)

/-- Leading zeros of a 64-bit value; 64 for zero. -/
def countLeading (a : W64) : Nat := ((findBelow 64 (fun k => a.getLsbD (63 - k))).getD 64)
/-- Trailing zeros; 64 for zero. -/
def countTrailing (a : W64) : Nat := ((findBelow 64 (fun k => a.getLsbD k)).getD 64)
/-- Ones. -/
def countOnes (a : W64) : Nat := ((List.range 64).filter (fun k => a.getLsbD k)).length

/-- clz, ctz, popc. -/
def aluCount (op : Nat) (a : W64) : W64 :=
  w64 (if op = 0x018 then countLeading a else if op = 0x019 then countTrailing a else countOnes a)

/-- sext, zext from the width code of R168. -/
def aluExt (op width : Nat) (a : W64) : W64 :=
  if op = 0x01B then
    (if width = 0 then (a.truncate 8).signExtend 64 else if width = 1 then (a.truncate 16).signExtend 64
      else (a.truncate 32).signExtend 64)
  else
    (if width = 0 then (a.truncate 8).setWidth 64 else if width = 1 then (a.truncate 16).setWidth 64
      else (a.truncate 32).setWidth 64)

/-- mul, mulh, mulhu. -/
def aluMul (op : Nat) (a b : W64) : W64 :=
  if op = 0x020 then a * b
  else if op = 0x021 then BitVec.ofInt 64 ((a.toInt * b.toInt) / (2 ^ 64 : Int))
  else w64 ((a.toNat * b.toNat) / 2 ^ 64)

/-- div, divu, rem, remu: a zero divisor gives all ones and gs1; -2^63 by -1 gives -2^63 and 0. -/
def aluDiv (op : Nat) (a b : W64) : W64 :=
  if b = 0 then (if op = 0x024 ∨ op = 0x025 then ~~~0 else a)
  else if op = 0x024 then BitVec.ofInt 64 (a.toInt.tdiv b.toInt)
  else if op = 0x025 then w64 (a.toNat / b.toNat)
  else if op = 0x026 then BitVec.ofInt 64 (a.toInt.tmod b.toInt)
  else w64 (a.toNat % b.toNat)

/-- ADD_SUB (R169). -/
def execAddSub (w : WellId) (i : W64) (s : State) : Out := aluIssue "ADD_SUB" 0x001 0x002 aluAddSub w i s
/-- AND_OR_XOR_ANDN (R169). -/
def execAndOrXorAndn (w : WellId) (i : W64) (s : State) : Out := aluIssue "AND_OR_XOR_ANDN" 0x003 0x006 aluLogic w i s
/-- SLL_SRL_SRA (R169). -/
def execSllSrlSra (w : WellId) (i : W64) (s : State) : Out := aluIssue "SLL_SRL_SRA" 0x008 0x00A aluShift w i s
/-- SLT_SLTU (R169). -/
def execSltSltu (w : WellId) (i : W64) (s : State) : Out := aluIssue "SLT_SLTU" 0x010 0x011 aluSlt w i s
/-- MIN_MAX_MINU_MAXU (R169). -/
def execMinMaxMinuMaxu (w : WellId) (i : W64) (s : State) : Out := aluIssue "MIN_MAX_MINU_MAXU" 0x012 0x015 aluMinMax w i s
/-- MUL_MULH_MULHU (R169). -/
def execMulMulhMulhu (w : WellId) (i : W64) (s : State) : Out := aluIssue "MUL_MULH_MULHU" 0x020 0x022 aluMul w i s
/-- DIV_DIVU_REM_REMU (R169). -/
def execDivDivuRemRemu (w : WellId) (i : W64) (s : State) : Out := aluIssue "DIV_DIVU_REM_REMU" 0x024 0x027 aluDiv w i s

/-- CLZ_CTZ_POPC (R169). -/
def execClzCtzPopc (w : WellId) (i : W64) (s : State) : Out :=
  issue w i { mnemonic := "CLZ_CTZ_POPC", cls := 0, lo := 0x018, hi := 0x01A, legal := countLegal } (unaryUses i)
    (fun s => .done (setG w (wDest i) (aluCount (wOp i) ((s.cpu w).rd (wS1 i))) s)) s

/-- SEXT_ZEXT (R169). -/
def execSextZext (w : WellId) (i : W64) (s : State) : Out :=
  issue w i { mnemonic := "SEXT_ZEXT", cls := 0, lo := 0x01B, hi := 0x01C, legal := extLegal } (unaryUses i)
    (fun s => .done (setG w (wDest i) (aluExt (wOp i) (immN i 0 2) ((s.cpu w).rd (wS1 i))) s)) s

/-- LI (R169). -/
def execLi (w : WellId) (i : W64) (s : State) : Out :=
  issue w i { mnemonic := "LI", cls := 0, lo := 0x030, hi := 0x030, legal := fun i => noS1 i && noS2 i && noS3 i }
    (fun c => { reads := [], writes := gRefs c [wDest i], opens := false })
    (fun s => .done (setG w (wDest i) (imm30 i) s)) s

/-- LSH (R169). -/
def execLsh (w : WellId) (i : W64) (s : State) : Out :=
  issue w i { mnemonic := "LSH", cls := 0, lo := 0x031, hi := 0x031, legal := fun i => noS2 i && noS3 i } (unaryUses i)
    (fun s => .done (setG w (wDest i) (((s.cpu w).rd (wS1 i) <<< 30) ||| w64 (immN i 0 30)) s)) s

end Sys2Proof.Machine
end

