-- ==== Sys2Proof/Machine/Sounding.lean ====
section
/-! DEFINITION. SOUNDING_COMPLETE: the sounding record and its delivery (R439-R442, R460, R465, R492, R519). -/

namespace Sys2Proof.Machine

/-- A section of a given size, reserved bytes zero (R440). -/
def section_ (n : Nat) (bs : List Byte) : List Byte := bs.take n ++ List.replicate (n - bs.length) 0

def wordsBytes (l : List W64) : List Byte := l.flatMap wordBytes

/-- A version entry: major and minor in bytes 0 and 1, the feature bitmap in bytes 8-15 (R33, R440; the places are the model's choice). -/
def versionEntry (features : Nat) : List Byte := [1, 0, 0, 0, 0, 0, 0, 0] ++ toBytes 8 features

/-- The versions section: the six interfaces of R33, then two free words for each firmware version, which no rule states. -/
def soundVersions (s : State) : List Byte :=
  [0xF, 0, 1, 1, 0, 0].flatMap versionEntry ++ wordsBytes ((List.range 8).map (fun i => Config.freeWord (s.free + i)))

/-- DEV_CONFIG, CI_MODE and CI_FRAMEST of both halves; then WEIR_CFG, of which the section has no room for every path: free. -/
def soundConfig (s : State) : List Byte :=
  wordsBytes ([devConfig s, ciMode s 0, ciMode s 1, ciFramest s 0, ciFramest s 1] ++
    (List.range 27).map (fun i => Config.freeWord (s.free + 8 + i)))

/-- The stage section (R440). -/
def soundStage (s : State) : List Byte :=
  let g := s.stg
  wordsBytes [s.stageNumber, stageWord1 g, stCfg g, putN 56 g.timeout.toNat ||| putN 24 g.deadline.toNat ||| g.minstep.setWidth 64, stStat g,
    stMaster s, s.hw.lastAck]

/-- A well's state code (R442). -/
def wellStateCode (s : State) (w : WellId) : Byte :=
  if s.hw.retired.getLsbD w.val then 6
  else if !s.wellOn w then 7
  else match s.wellJob[w] with
    | none => 0
    | some k =>
      if s.jobs[k].state == .clearing then 5
      else if s.wells[w].cpu.wedged then 4
      else if s.wells[w].cpu.running then 2
      else if s.jobs[k].state == .loading || s.jobs[k].state == .loaded then 1
      else 3

/-- A well entry (R442). -/
def soundWell (s : State) (w : WellId) : List Byte :=
  let v := (s.wellJob[w]).map (fun k => s.jobs[k].vmap)
  let shared : Bool := (v.map (fun l => decide (1 < l.count w))).getD false
  let virt : Nat := (v.map (fun l => l.idxOf w)).getD 0
  let reach : Nat := ((s.wellJob[w]).map (fun k => s.jobs[k].reach.toNat)).getD 0
  let recent : Nat := (s.hw.faults.filter (fun f => f.1 == w && decide (s.stg.t.toNat < f.2.2.toNat + dayNs))).length
  [wellStateCode s w, (if s.wells[w].st.scoreboard then 1 else 0) + (if shared then 2 else 0)] ++ toBytes 2 (s.jobOfWell w).toNat ++
    toBytes 2 virt ++ [s.hw.wellCause[w], BitVec.ofNat 8 (min recent 255)] ++ toBytes 4 s.hw.wellReplays[w].toNat ++ toBytes 4 reach

/-- A job entry (R442). R442 numbers neither the states nor the pause reasons: the codes are opaque. -/
def soundJob (s : State) (k : Fin 32) : List Byte :=
  let j := s.jobs[k]
  let why : BitVec 4 := if j.state == .paused then (Config.freeWord (s.free + 35)).truncate 4 else 0
  toBytes 2 (j.handle k).toNat ++
    [Config.jobStateCode (match j.state with | .free => 0 | .loading => 1 | .loaded => 2 | .running => 3 | .paused => 4 | .stopping => 5 | .clearing => 6),
     (j.basin.setWidth 8) ||| (if j.stageBound then 4 else 0) ||| (why.setWidth 8 <<< 4)] ++
    toBytes 4 j.groups.toNat ++ wordBytes j.reach ++ wordBytes j.ckpt.reach ++ wordBytes j.lastStage ++
    toBytes 2 j.reachReplays ++ toBytes 2 j.replaysAll.toNat ++ toBytes 4 (if j.state == .stopping || j.state == .clearing then j.endStatus.toNat else 0) ++
    toBytes 8 (4096 * j.captured.length) ++ wordBytes j.genG ++ List.replicate 8 0

def soundLink (s : State) (l : LinkId) : List Byte :=
  let k := s.far.links[l]
  wordsBytes [fbLstat k, fbOpt k, k.corr.count.setWidth 64, k.uncorr.count.setWidth 64]

/-- The Byvor Link state (R492). -/
def soundByvor (s : State) : List Byte :=
  let b := s.by_
  wordsBytes ([byLstat b] ++ (List.finRange 4).map (fun (r : Fin 4) => s.hw.rings[r].last) ++ [b.werr, b.downs, 0])

def soundStack (s : State) (n : StackId) : List Byte :=
  let c := s.stks[n]
  wordsBytes [scStat s n, counterWord c.cecnt, counterWord c.odecc, c.elast]

/-- The records that a sounding names: OPEN ones, then DELIVERED ones from the newest (R440). -/
def soundRecords (s : State) : List LedgerRec :=
  s.hw.ledger.filter (fun r => !r.delivered) ++ (s.hw.ledger.filter (·.delivered)).reverse

/-- The header (R441). -/
def soundHeader (q : SoundReq) (s : State) : List Byte :=
  let n := (soundRecords s).length
  let flags : W64 := putB 0 (decide (1024 < n)) ||| putB 1 (s.hw.jobHalted || s.hw.faultHalted || s.wh.recovery) ||| putB 2 s.hw.lostLink |||
    putB 3 s.evtFirstLost.isSome
  toBytes 2 0x0100 ++ [0, 0] ++ toBytes 4 65536 ++ wordBytes s.hw.soundSeq ++ toBytes 4 q.token.toNat ++ toBytes 4 flags.toNat ++
    wordsBytes [q.start, s.stg.t, s.evtSeq, (s.events.head?.map (·.seq)).getD s.evtSeq, devIdent, devConfig s, deviceIdWord s, s.hw.wallTime] ++
    toBytes 4 (s.hw.ledger.filter (fun r => !r.delivered)).length ++ toBytes 4 (if s.wh.recovery then 0 else min n 1024) ++
    wordBytes (s.evtFirstLost.getD 0)

/-- Bytes 0x0200-0xFFEF, which a sounding in recovery mode leaves out (R519). -/
def soundBody (s : State) : List Byte :=
  section_ 256 (soundConfig s) ++ section_ 256 (soundStage s) ++ section_ 2048 ((List.finRange 128).flatMap (soundWell s)) ++
    section_ 2048 (slots.flatMap (soundJob s)) ++ section_ 2048 [] ++ section_ 1152 ((List.finRange 36).flatMap (soundLink s)) ++
    section_ 64 (soundByvor s) ++ section_ 64 [] ++ section_ 768 ((List.finRange 24).flatMap (soundStack s)) ++ section_ 3072 [] ++
    section_ 4096 ((errorsSet s).flatMap (fun e => wordBytes e.1 ++ wordBytes e.2)) ++
    section_ 32768 (((soundRecords s).take 1024).flatMap (fun r => wordsBytes r.words)) ++
    section_ 8192 ((wearWords s).flatMap wordsBytes) ++ section_ 8176 []

/-- The whole record; in words, bytes 8-11 of the last 16 hold the CRC-32C (R440). -/
def soundRecord (q : SoundReq) (s : State) : List Byte :=
  let bs := section_ 256 (soundHeader q s) ++ section_ 256 (soundVersions s) ++ section_ 65008 (if s.wh.recovery then [] else soundBody s) ++
    List.replicate 8 0
  bs ++ toBytes 4 (crc32c bs).toNat ++ List.replicate 4 0

/-- SOUNDING_COMPLETE (R439, R482): the oldest outstanding sounding is written to the host ahead of its completion. -/
def execSoundingComplete (s : State) : Out :=
  .next (match s.hw.sounds with
    | [] => s
    | q :: rest =>
      if s.hw.jobHalted && s.hw.faultHalted then s
      else
        let bs := piecesOf 512 129 (soundRecord q s)
        let items : List HostItem := ((List.range bs.length).zip bs).map (fun x => HostItem.hostwr (q.buffer + w64 (512 * x.1)) x.2)
        let s := s.modBy (fun b => { b with stream := b.stream ++ items })
        let s := { s.modHw (fun h => { h with sounds := rest, soundSeq := h.soundSeq + 1, lostLink := false }) with free := s.free + 36 }
        s.complete q.ring q.cseq hsOk 0)

end Sys2Proof.Machine
end

