-- ==== Sys2Proof/Machine/Dispatch.lean ====
section
/-! DEFINITION. What each command does: one arm for each constructor of Instr. -/

namespace Sys2Proof.Machine

/-- A command's effect on everything but the queue. -/
def exec (i : Instr) (s : State) : Host.Outcome State Fault Refusal :=
  match i with
  | .headwaterLockstepDisagree a0 => Sys2Proof.Machine.execHeadwaterLockstepDisagree a0 s
  | .synchronisedEventArrival a0 => Sys2Proof.Machine.execSynchronisedEventArrival a0 s
  | .registerWrite a0 a1 a2 => Sys2Proof.Machine.execRegisterWrite a0 a1 a2 s
  | .mclr a0 a1 => Sys2Proof.Machine.execMclr a0 a1 s
  | .mmac a0 a1 => Sys2Proof.Machine.execMmac a0 a1 s
  | .mmacPass a0 a1 => Sys2Proof.Machine.execMmacPass a0 a1 s
  | .mrInstructionStart a0 => Sys2Proof.Machine.execMrInstructionStart a0 s
  | .mfin a0 a1 => Sys2Proof.Machine.execMfin a0 a1 s
  | .mcomb a0 a1 => Sys2Proof.Machine.execMcomb a0 a1 s
  | .mstat a0 a1 => Sys2Proof.Machine.execMstat a0 a1 s
  | .mtsave a0 a1 => Sys2Proof.Machine.execMtsave a0 a1 s
  | .mtload a0 a1 => Sys2Proof.Machine.execMtload a0 a1 s
  | .mfence a0 a1 => Sys2Proof.Machine.execMfence a0 a1 s
  | .mhalt a0 a1 => Sys2Proof.Machine.execMhalt a0 a1 s
  | .mresume a0 a1 => Sys2Proof.Machine.execMresume a0 a1 s
  | .mdrop a0 a1 => Sys2Proof.Machine.execMdrop a0 a1 s
  | .mqsave a0 a1 => Sys2Proof.Machine.execMqsave a0 a1 s
  | .mqload a0 a1 => Sys2Proof.Machine.execMqload a0 a1 s
  | .tileSidebandWrite a0 a1 a2 => Sys2Proof.Machine.execTileSidebandWrite a0 a1 a2 s
  | .setvl a0 a1 => Sys2Proof.Machine.execSetvl a0 a1 s
  | .vfaddVfsubVfmulVfdivVfsqrt a0 a1 => Sys2Proof.Machine.execVfaddVfsubVfmulVfdivVfsqrt a0 a1 s
  | .vfma a0 a1 => Sys2Proof.Machine.execVfma a0 a1 s
  | .vfms a0 a1 => Sys2Proof.Machine.execVfms a0 a1 s
  | .vfnma a0 a1 => Sys2Proof.Machine.execVfnma a0 a1 s
  | .vfminVfmax a0 a1 => Sys2Proof.Machine.execVfminVfmax a0 a1 s
  | .vfsignCopyNegXor a0 a1 => Sys2Proof.Machine.execVfsignCopyNegXor a0 a1 s
  | .vfeqVfltVfle a0 a1 => Sys2Proof.Machine.execVfeqVfltVfle a0 a1 s
  | .vcvt a0 a1 => Sys2Proof.Machine.execVcvt a0 a1 s
  | .vqmx a0 a1 => Sys2Proof.Machine.execVqmx a0 a1 s
  | .vaddVsubVmulVmulhVmulhu a0 a1 => Sys2Proof.Machine.execVaddVsubVmulVmulhVmulhu a0 a1 s
  | .vandVorVxor a0 a1 => Sys2Proof.Machine.execVandVorVxor a0 a1 s
  | .vsllVsrlVsra a0 a1 => Sys2Proof.Machine.execVsllVsrlVsra a0 a1 s
  | .vminVmaxVminuVmaxu a0 a1 => Sys2Proof.Machine.execVminVmaxVminuVmaxu a0 a1 s
  | .vseqVsltVsltu a0 a1 => Sys2Proof.Machine.execVseqVsltVsltu a0 a1 s
  | .mkAndOrXorAndn a0 a1 => Sys2Proof.Machine.execMkAndOrXorAndn a0 a1 s
  | .mkSet a0 a1 => Sys2Proof.Machine.execMkSet a0 a1 s
  | .vtallyF a0 a1 => Sys2Proof.Machine.execVtallyF a0 a1 s
  | .vtallyFx a0 a1 => Sys2Proof.Machine.execVtallyFx a0 a1 s
  | .vtallyFmaxFmin a0 a1 => Sys2Proof.Machine.execVtallyFmaxFmin a0 a1 s
  | .vtallyInteger a0 a1 => Sys2Proof.Machine.execVtallyInteger a0 a1 s
  | .mcount a0 a1 => Sys2Proof.Machine.execMcount a0 a1 s
  | .mfind a0 a1 => Sys2Proof.Machine.execMfind a0 a1 s
  | .vget a0 a1 => Sys2Proof.Machine.execVget a0 a1 s
  | .vldVldsVldx a0 a1 => Sys2Proof.Machine.execVldVldsVldx a0 a1 s
  | .vstVstsVstx a0 a1 => Sys2Proof.Machine.execVstVstsVstx a0 a1 s
  | .mld a0 a1 => Sys2Proof.Machine.execMld a0 a1 s
  | .mst a0 a1 => Sys2Proof.Machine.execMst a0 a1 s
  | .vmv a0 a1 => Sys2Proof.Machine.execVmv a0 a1 s
  | .vbcast a0 a1 => Sys2Proof.Machine.execVbcast a0 a1 s
  | .vshiftUp a0 a1 => Sys2Proof.Machine.execVshiftUp a0 a1 s
  | .vshiftDown a0 a1 => Sys2Proof.Machine.execVshiftDown a0 a1 s
  | .vpick a0 a1 => Sys2Proof.Machine.execVpick a0 a1 s
  | .vpack a0 a1 => Sys2Proof.Machine.execVpack a0 a1 s
  | .vins a0 a1 => Sys2Proof.Machine.execVins a0 a1 s
  | .vwait a0 a1 => Sys2Proof.Machine.execVwait a0 a1 s
  | .flumeCompletion a0 a1 => Sys2Proof.Machine.execFlumeCompletion a0 a1 s
  | .addSub a0 a1 => Sys2Proof.Machine.execAddSub a0 a1 s
  | .andOrXorAndn a0 a1 => Sys2Proof.Machine.execAndOrXorAndn a0 a1 s
  | .sllSrlSra a0 a1 => Sys2Proof.Machine.execSllSrlSra a0 a1 s
  | .sltSltu a0 a1 => Sys2Proof.Machine.execSltSltu a0 a1 s
  | .minMaxMinuMaxu a0 a1 => Sys2Proof.Machine.execMinMaxMinuMaxu a0 a1 s
  | .clzCtzPopc a0 a1 => Sys2Proof.Machine.execClzCtzPopc a0 a1 s
  | .sextZext a0 a1 => Sys2Proof.Machine.execSextZext a0 a1 s
  | .mulMulhMulhu a0 a1 => Sys2Proof.Machine.execMulMulhMulhu a0 a1 s
  | .divDivuRemRemu a0 a1 => Sys2Proof.Machine.execDivDivuRemRemu a0 a1 s
  | .li a0 a1 => Sys2Proof.Machine.execLi a0 a1 s
  | .lsh a0 a1 => Sys2Proof.Machine.execLsh a0 a1 s
  | .ld a0 a1 => Sys2Proof.Machine.execLd a0 a1 s
  | .ldq a0 a1 => Sys2Proof.Machine.execLdq a0 a1 s
  | .st a0 a1 => Sys2Proof.Machine.execSt a0 a1 s
  | .stq a0 a1 => Sys2Proof.Machine.execStq a0 a1 s
  | .loadWindowClose a0 => Sys2Proof.Machine.execLoadWindowClose a0 s
  | .storeBufferDrain a0 => Sys2Proof.Machine.execStoreBufferDrain a0 s
  | .skip a0 a1 => Sys2Proof.Machine.execSkip a0 a1 s
  | .j a0 a1 => Sys2Proof.Machine.execJ a0 a1 s
  | .jal a0 a1 => Sys2Proof.Machine.execJal a0 a1 s
  | .jr a0 a1 => Sys2Proof.Machine.execJr a0 a1 s
  | .csrr a0 a1 => Sys2Proof.Machine.execCsrr a0 a1 s
  | .csrw a0 a1 => Sys2Proof.Machine.execCsrw a0 a1 s
  | .csrs a0 a1 => Sys2Proof.Machine.execCsrs a0 a1 s
  | .csrc a0 a1 => Sys2Proof.Machine.execCsrc a0 a1 s
  | .trap a0 a1 => Sys2Proof.Machine.execTrap a0 a1 s
  | .retg a0 a1 => Sys2Proof.Machine.execRetg a0 a1 s
  | .rete a0 a1 => Sys2Proof.Machine.execRete a0 a1 s
  | .brk a0 a1 => Sys2Proof.Machine.execBrk a0 a1 s
  | .fence a0 a1 => Sys2Proof.Machine.execFence a0 a1 s
  | .wfi a0 a1 => Sys2Proof.Machine.execWfi a0 a1 s
  | .icinv a0 a1 => Sys2Proof.Machine.execIcinv a0 a1 s
  | .xget a0 a1 => Sys2Proof.Machine.execXget a0 a1 s
  | .xput a0 a1 => Sys2Proof.Machine.execXput a0 a1 s
  | .icacheLineFill a0 a1 => Sys2Proof.Machine.execIcacheLineFill a0 a1 s
  | .qaddQsubQmul a0 a1 => Sys2Proof.Machine.execQaddQsubQmul a0 a1 s
  | .qminQmaxQminuQmaxu a0 a1 => Sys2Proof.Machine.execQminQmaxQminuQmaxu a0 a1 s
  | .qandQorQxor a0 a1 => Sys2Proof.Machine.execQandQorQxor a0 a1 s
  | .qsllQsrlQsra a0 a1 => Sys2Proof.Machine.execQsllQsrlQsra a0 a1 s
  | .qfaddQfsubQfmulQfdivQfsqrt a0 a1 => Sys2Proof.Machine.execQfaddQfsubQfmulQfdivQfsqrt a0 a1 s
  | .qfma a0 a1 => Sys2Proof.Machine.execQfma a0 a1 s
  | .qfminQfmax a0 a1 => Sys2Proof.Machine.execQfminQfmax a0 a1 s
  | .qfeqQfltQfle a0 a1 => Sys2Proof.Machine.execQfeqQfltQfle a0 a1 s
  | .qcvt a0 a1 => Sys2Proof.Machine.execQcvt a0 a1 s
  | .qperm a0 a1 => Sys2Proof.Machine.execQperm a0 a1 s
  | .qsplat a0 a1 => Sys2Proof.Machine.execQsplat a0 a1 s
  | .qput a0 a1 => Sys2Proof.Machine.execQput a0 a1 s
  | .qget a0 a1 => Sys2Proof.Machine.execQget a0 a1 s
  | .qmov a0 a1 => Sys2Proof.Machine.execQmov a0 a1 s
  | .djqCompletion a0 => Sys2Proof.Machine.execDjqCompletion a0 s
  | .exceptionEntry a0 => Sys2Proof.Machine.execExceptionEntry a0 s
  | .interruptLineAssert a0 a1 => Sys2Proof.Machine.execInterruptLineAssert a0 a1 s
  | .interruptTake a0 => Sys2Proof.Machine.execInterruptTake a0 s
  | .timer a0 => Sys2Proof.Machine.execTimer a0 s
  | .counterOvf a0 a1 => Sys2Proof.Machine.execCounterOvf a0 a1 s
  | .tagFill a0 a1 => Sys2Proof.Machine.execTagFill a0 a1 s
  | .tagEmpty a0 a1 => Sys2Proof.Machine.execTagEmpty a0 a1 s
  | .tagWaitFull a0 a1 => Sys2Proof.Machine.execTagWaitFull a0 a1 s
  | .tagWaitEmpty a0 a1 => Sys2Proof.Machine.execTagWaitEmpty a0 a1 s
  | .tagTake a0 a1 => Sys2Proof.Machine.execTagTake a0 a1 s
  | .tagGet a0 a1 => Sys2Proof.Machine.execTagGet a0 a1 s
  | .tagWaitGrant a0 a1 => Sys2Proof.Machine.execTagWaitGrant a0 a1 s
  | .tagStall a0 a1 => Sys2Proof.Machine.execTagStall a0 a1 s
  | .wsModeToScoreboard a0 a1 => Sys2Proof.Machine.execWsModeToScoreboard a0 a1 s
  | .wsModeToTagService a0 a1 => Sys2Proof.Machine.execWsModeToTagService a0 a1 s
  | .wsModeWithdraw a0 a1 => Sys2Proof.Machine.execWsModeWithdraw a0 a1 s
  | .tagServiceChangeover a0 => Sys2Proof.Machine.execTagServiceChangeover a0 s
  | .scoreboardConflictRelease a0 => Sys2Proof.Machine.execScoreboardConflictRelease a0 s
  | .bankClose a0 a1 => Sys2Proof.Machine.execBankClose a0 a1 s
  | .bankOff a0 a1 => Sys2Proof.Machine.execBankOff a0 a1 s
  | .bankClear a0 a1 => Sys2Proof.Machine.execBankClear a0 a1 s
  | .bankOpen a0 a1 => Sys2Proof.Machine.execBankOpen a0 a1 s
  | .bankDrainComplete a0 => Sys2Proof.Machine.execBankDrainComplete a0 s
  | .bankCommandComplete a0 => Sys2Proof.Machine.execBankCommandComplete a0 s
  | .pumpSub a0 a1 => Sys2Proof.Machine.execPumpSub a0 a1 s
  | .czero a0 a1 => Sys2Proof.Machine.execCzero a0 a1 s
  | .invAs a0 a1 => Sys2Proof.Machine.execInvAs a0 a1 s
  | .trigWait a0 a1 => Sys2Proof.Machine.execTrigWait a0 a1 s
  | .trigGet a0 a1 => Sys2Proof.Machine.execTrigGet a0 a1 s
  | .trigAdd a0 a1 => Sys2Proof.Machine.execTrigAdd a0 a1 s
  | .pumpDescriptorStart a0 => Sys2Proof.Machine.execPumpDescriptorStart a0 s
  | .pumpAccessIssue a0 => Sys2Proof.Machine.execPumpAccessIssue a0 s
  | .pumpPageCrossing a0 => Sys2Proof.Machine.execPumpPageCrossing a0 s
  | .pumpDescriptorComplete a0 => Sys2Proof.Machine.execPumpDescriptorComplete a0 s
  | .pumpErrorComplete a0 => Sys2Proof.Machine.execPumpErrorComplete a0 s
  | .translationWalk a0 => Sys2Proof.Machine.execTranslationWalk a0 s
  | .puFrespResume a0 a1 a2 a3 => Sys2Proof.Machine.execPuFrespResume a0 a1 a2 a3 s
  | .puFrespAbort a0 a1 a2 a3 => Sys2Proof.Machine.execPuFrespAbort a0 a1 a2 a3 s
  | .puCtlDrop a0 a1 => Sys2Proof.Machine.execPuCtlDrop a0 a1 s
  | .invalidationCut => Sys2Proof.Machine.execInvalidationCut s
  | .invalidationComplete => Sys2Proof.Machine.execInvalidationComplete s
  | .cisternAccess a0 => Sys2Proof.Machine.execCisternAccess a0 s
  | .cisternMissFill a0 => Sys2Proof.Machine.execCisternMissFill a0 s
  | .frameClose a0 a1 => Sys2Proof.Machine.execFrameClose a0 a1 s
  | .frameOff a0 a1 => Sys2Proof.Machine.execFrameOff a0 a1 s
  | .frameClear a0 a1 => Sys2Proof.Machine.execFrameClear a0 a1 s
  | .toscratch a0 a1 => Sys2Proof.Machine.execToscratch a0 a1 s
  | .tocache a0 a1 => Sys2Proof.Machine.execTocache a0 a1 s
  | .frameOpen a0 a1 => Sys2Proof.Machine.execFrameOpen a0 a1 s
  | .frameDrainComplete a0 => Sys2Proof.Machine.execFrameDrainComplete a0 s
  | .frameCommandComplete a0 => Sys2Proof.Machine.execFrameCommandComplete a0 s
  | .ciMaintWriteback a0 => Sys2Proof.Machine.execCiMaintWriteback a0 s
  | .ciMaintWritebackInvalidate a0 => Sys2Proof.Machine.execCiMaintWritebackInvalidate a0 s
  | .ciMaintComplete a0 => Sys2Proof.Machine.execCiMaintComplete a0 s
  | .stackTemperatureRead a0 a1 => Sys2Proof.Machine.execStackTemperatureRead a0 a1 s
  | .weirCfgWrite a0 a1 => Sys2Proof.Machine.execWeirCfgWrite a0 a1 s
  | .stCfgWrite a0 => Sys2Proof.Machine.execStCfgWrite a0 s
  | .wireMarkFrame a0 a1 => Sys2Proof.Machine.execWireMarkFrame a0 a1 s
  | .stageMessageAdvance a0 => Sys2Proof.Machine.execStageMessageAdvance a0 s
  | .stageMessageRepeat a0 => Sys2Proof.Machine.execStageMessageRepeat a0 s
  | .stageAck a0 => Sys2Proof.Machine.execStageAck a0 s
  | .repeatReq a0 => Sys2Proof.Machine.execRepeatReq a0 s
  | .heldMarkTimeout => Sys2Proof.Machine.execHeldMarkTimeout s
  | .stageLate => Sys2Proof.Machine.execStageLate s
  | .stAckctlReady a0 a1 => Sys2Proof.Machine.execStAckctlReady a0 a1 s
  | .stAckctlReqrep a0 a1 => Sys2Proof.Machine.execStAckctlReqrep a0 a1 s
  | .masterAdvance => Sys2Proof.Machine.execMasterAdvance s
  | .masterDeadline => Sys2Proof.Machine.execMasterDeadline s
  | .memberLost a0 => Sys2Proof.Machine.execMemberLost a0 s
  | .eventSlotFire a0 => Sys2Proof.Machine.execEventSlotFire a0 s
  | .eventSlotWrite a0 a1 a2 => Sys2Proof.Machine.execEventSlotWrite a0 a1 a2 s
  | .dataFlit a0 a1 => Sys2Proof.Machine.execDataFlit a0 a1 s
  | .idleFlit a0 a1 => Sys2Proof.Machine.execIdleFlit a0 a1 s
  | .maintFlit a0 a1 a2 a3 => Sys2Proof.Machine.execMaintFlit a0 a1 a2 a3 s
  | .trainFlit a0 a1 => Sys2Proof.Machine.execTrainFlit a0 a1 s
  | .retryTimeout a0 => Sys2Proof.Machine.execRetryTimeout a0 s
  | .trainingStepComplete a0 a1 a2 a3 => Sys2Proof.Machine.execTrainingStepComplete a0 a1 a2 a3 s
  | .trainingStepTimeout a0 => Sys2Proof.Machine.execTrainingStepTimeout a0 s
  | .linkRetryTimer a0 => Sys2Proof.Machine.execLinkRetryTimer a0 s
  | .fbLctlTrain a0 => Sys2Proof.Machine.execFbLctlTrain a0 s
  | .fbLctlDisable a0 => Sys2Proof.Machine.execFbLctlDisable a0 s
  | .fbLctlRetrain a0 => Sys2Proof.Machine.execFbLctlRetrain a0 s
  | .routeRemove a0 => Sys2Proof.Machine.execRouteRemove a0 s
  | .routeRestore a0 => Sys2Proof.Machine.execRouteRestore a0 s
  | .linkHealthCheck a0 a1 a2 a3 a4 a5 => Sys2Proof.Machine.execLinkHealthCheck a0 a1 a2 a3 a4 a5 s
  | .lossOfSignal a0 => Sys2Proof.Machine.execLossOfSignal a0 s
  | .keyChangeRequest a0 => Sys2Proof.Machine.execKeyChangeRequest a0 s
  | .keyexh a0 => Sys2Proof.Machine.execKeyexh a0 s
  | .readPacket a0 => Sys2Proof.Machine.execReadPacket a0 s
  | .writePacket a0 => Sys2Proof.Machine.execWritePacket a0 s
  | .atomicPacket a0 => Sys2Proof.Machine.execAtomicPacket a0 s
  | .respPacket a0 => Sys2Proof.Machine.execRespPacket a0 s
  | .rillPacket a0 => Sys2Proof.Machine.execRillPacket a0 s
  | .stagePacket a0 => Sys2Proof.Machine.execStagePacket a0 s
  | .mgmtPacket a0 => Sys2Proof.Machine.execMgmtPacket a0 s
  | .collPacket a0 => Sys2Proof.Machine.execCollPacket a0 s
  | .unreachable a0 => Sys2Proof.Machine.execUnreachable a0 s
  | .remoteResponseTimeout a0 => Sys2Proof.Machine.execRemoteResponseTimeout a0 s
  | .epochPrep a0 a1 a2 a3 a4 a5 => Sys2Proof.Machine.execEpochPrep a0 a1 a2 a3 a4 a5 s
  | .epochOk a0 a1 a2 => Sys2Proof.Machine.execEpochOk a0 a1 a2 s
  | .epochCancel a0 => Sys2Proof.Machine.execEpochCancel a0 s
  | .triggerIncrement a0 => Sys2Proof.Machine.execTriggerIncrement a0 s
  | .cfCtrWrite a0 a1 a2 => Sys2Proof.Machine.execCfCtrWrite a0 a1 a2 s
  | .postQueueRead a0 a1 => Sys2Proof.Machine.execPostQueueRead a0 a1 s
  | .operationFire a0 => Sys2Proof.Machine.execOperationFire a0 s
  | .allreduce a0 a1 a2 => Sys2Proof.Machine.execAllreduce a0 a1 a2 s
  | .reduce a0 a1 a2 => Sys2Proof.Machine.execReduce a0 a1 a2 s
  | .reduceScatter a0 a1 a2 => Sys2Proof.Machine.execReduceScatter a0 a1 a2 s
  | .allgather a0 a1 a2 => Sys2Proof.Machine.execAllgather a0 a1 a2 s
  | .broadcast a0 a1 a2 => Sys2Proof.Machine.execBroadcast a0 a1 a2 s
  | .alltoall a0 a1 a2 a3 => Sys2Proof.Machine.execAlltoall a0 a1 a2 a3 s
  | .barrier a0 a1 => Sys2Proof.Machine.execBarrier a0 a1 s
  | .rill a0 a1 a2 => Sys2Proof.Machine.execRill a0 a1 a2 s
  | .channel a0 a1 => Sys2Proof.Machine.execChannel a0 a1 s
  | .operationComplete a0 a1 => Sys2Proof.Machine.execOperationComplete a0 a1 s
  | .groupTimeout a0 a1 a2 => Sys2Proof.Machine.execGroupTimeout a0 a1 a2 s
  | .faultReport a0 a1 => Sys2Proof.Machine.execFaultReport a0 a1 s
  | .coalesceEntryExpire a0 => Sys2Proof.Machine.execCoalesceEntryExpire a0 s
  | .jobLoad a0 => Sys2Proof.Machine.execJobLoad a0 s
  | .jobStart a0 => Sys2Proof.Machine.execJobStart a0 s
  | .jobKill a0 => Sys2Proof.Machine.execJobKill a0 s
  | .map a0 => Sys2Proof.Machine.execMap a0 s
  | .stageCfg a0 => Sys2Proof.Machine.execStageCfg a0 s
  | .basinCfg a0 => Sys2Proof.Machine.execBasinCfg a0 s
  | .retire a0 => Sys2Proof.Machine.execRetire a0 s
  | .xlateResp a0 => Sys2Proof.Machine.execXlateResp a0 s
  | .faultAck a0 => Sys2Proof.Machine.execFaultAck a0 s
  | .eventAck a0 => Sys2Proof.Machine.execEventAck a0 s
  | .eventFetch a0 => Sys2Proof.Machine.execEventFetch a0 s
  | .sound a0 => Sys2Proof.Machine.execSound a0 s
  | .mgmt a0 => Sys2Proof.Machine.execMgmt a0 s
  | .reachDone a0 => Sys2Proof.Machine.execReachDone a0 s
  | .stageDone a0 => Sys2Proof.Machine.execStageDone a0 s
  | .jobDone a0 => Sys2Proof.Machine.execJobDone a0 s
  | .fault a0 => Sys2Proof.Machine.execFault a0 s
  | .faultRecord => Sys2Proof.Machine.execFaultRecord s
  | .xlateTimeout a0 a1 => Sys2Proof.Machine.execXlateTimeout a0 a1 s
  | .faultRecordExpire a0 => Sys2Proof.Machine.execFaultRecordExpire a0 s
  | .jobClearComplete a0 => Sys2Proof.Machine.execJobClearComplete a0 s
  | .scrubPassStart a0 a1 => Sys2Proof.Machine.execScrubPassStart a0 a1 s
  | .storeScrubRead a0 a1 a2 => Sys2Proof.Machine.execStoreScrubRead a0 a1 a2 s
  | .scrubLate a0 a1 => Sys2Proof.Machine.execScrubLate a0 a1 s
  | .scrubStacks a0 => Sys2Proof.Machine.execScrubStacks a0 s
  | .scrubCistern a0 => Sys2Proof.Machine.execScrubCistern a0 s
  | .scrubStores a0 => Sys2Proof.Machine.execScrubStores a0 s
  | .linkRetrain a0 => Sys2Proof.Machine.execLinkRetrain a0 s
  | .wearUpdate a0 a1 => Sys2Proof.Machine.execWearUpdate a0 a1 s
  | .wearSave a0 a1 => Sys2Proof.Machine.execWearSave a0 a1 s
  | .laserBiasTrim a0 a1 a2 => Sys2Proof.Machine.execLaserBiasTrim a0 a1 a2 s
  | .receiverTuning a0 => Sys2Proof.Machine.execReceiverTuning a0 s
  | .phyTracking a0 a1 a2 => Sys2Proof.Machine.execPhyTracking a0 a1 a2 s
  | .marginControl a0 a1 => Sys2Proof.Machine.execMarginControl a0 a1 s
  | .wearHourlyUpdate a0 => Sys2Proof.Machine.execWearHourlyUpdate a0 s
  | .wearDailySample => Sys2Proof.Machine.execWearDailySample s
  | .wearLogWrite a0 => Sys2Proof.Machine.execWearLogWrite a0 s
  | .baseflowRestart a0 => Sys2Proof.Machine.execBaseflowRestart a0 s
  | .telemetryRecordWrite => Sys2Proof.Machine.execTelemetryRecordWrite s
  | .byvorDataFlit a0 => Sys2Proof.Machine.execByvorDataFlit a0 s
  | .byvorIdleFlit a0 => Sys2Proof.Machine.execByvorIdleFlit a0 s
  | .byvorMaintFlit a0 a1 a2 => Sys2Proof.Machine.execByvorMaintFlit a0 a1 a2 s
  | .byvorTrainFlit a0 => Sys2Proof.Machine.execByvorTrainFlit a0 s
  | .byvorRetryTimeout => Sys2Proof.Machine.execByvorRetryTimeout s
  | .byvorTrainingStepComplete a0 => Sys2Proof.Machine.execByvorTrainingStepComplete a0 s
  | .byvorTrainingStepTimeout => Sys2Proof.Machine.execByvorTrainingStepTimeout s
  | .byvorLinkRetryTimer => Sys2Proof.Machine.execByvorLinkRetryTimer s
  | .byLctlTrain => Sys2Proof.Machine.execByLctlTrain s
  | .byLctlDisable => Sys2Proof.Machine.execByLctlDisable s
  | .byLctlRetrain => Sys2Proof.Machine.execByLctlRetrain s
  | .hostLinkDown => Sys2Proof.Machine.execHostLinkDown s
  | .cmd a0 a1 a2 => Sys2Proof.Machine.execCmd a0 a1 a2 s
  | .wwrite a0 a1 => Sys2Proof.Machine.execWwrite a0 a1 s
  | .wread a0 a1 a2 => Sys2Proof.Machine.execWread a0 a1 a2 s
  | .time a0 => Sys2Proof.Machine.execTime a0 s
  | .credit a0 a1 => Sys2Proof.Machine.execCredit a0 a1 s
  | .inputUv => Sys2Proof.Machine.execInputUv s
  | .inputTurnOff => Sys2Proof.Machine.execInputTurnOff s
  | .railFault a0 => Sys2Proof.Machine.execRailFault a0 s
  | .pwDomctlOn a0 => Sys2Proof.Machine.execPwDomctlOn a0 s
  | .pwDomctlOff a0 => Sys2Proof.Machine.execPwDomctlOff a0 s
  | .domainSwitchComplete a0 => Sys2Proof.Machine.execDomainSwitchComplete a0 s
  | .powerEvaluation a0 a1 a2 => Sys2Proof.Machine.execPowerEvaluation a0 a1 a2 s
  | .currentLimit => Sys2Proof.Machine.execCurrentLimit s
  | .capThrottle => Sys2Proof.Machine.execCapThrottle s
  | .pwCapWrite a0 => Sys2Proof.Machine.execPwCapWrite a0 s
  | .refclkALoss => Sys2Proof.Machine.execRefclkALoss s
  | .refclkBLoss => Sys2Proof.Machine.execRefclkBLoss s
  | .thermalSensorRead a0 a1 => Sys2Proof.Machine.execThermalSensorRead a0 a1 s
  | .hwtrip => Sys2Proof.Machine.execHwtrip s
  | .mctpControlMessage a0 a1 a2 => Sys2Proof.Machine.execMctpControlMessage a0 a1 a2 s
  | .i3cDynamicAddress a0 a1 a2 => Sys2Proof.Machine.execI3cDynamicAddress a0 a1 a2 s
  | .gettidSettid a0 => Sys2Proof.Machine.execGettidSettid a0 s
  | .getpldmversionTypesCommands a0 => Sys2Proof.Machine.execGetpldmversionTypesCommands a0 s
  | .getpdrrepositoryinfoGetpdr a0 => Sys2Proof.Machine.execGetpdrrepositoryinfoGetpdr a0 s
  | .getsensorreading a0 => Sys2Proof.Machine.execGetsensorreading a0 s
  | .getstatesensorreadings a0 => Sys2Proof.Machine.execGetstatesensorreadings a0 s
  | .setnumericeffectervalue a0 => Sys2Proof.Machine.execSetnumericeffectervalue a0 s
  | .getnumericeffectervalue => Sys2Proof.Machine.execGetnumericeffectervalue s
  | .seteventreceiver a0 => Sys2Proof.Machine.execSeteventreceiver a0 s
  | .pollforplatformeventmessage => Sys2Proof.Machine.execPollforplatformeventmessage s
  | .platformeventmessage => Sys2Proof.Machine.execPlatformeventmessage s
  | .bypass => Sys2Proof.Machine.execBypass s
  | .idcode => Sys2Proof.Machine.execIdcode s
  | .samplePreload a0 => Sys2Proof.Machine.execSamplePreload a0 s
  | .extest => Sys2Proof.Machine.execExtest s
  | .highz => Sys2Proof.Machine.execHighz s
  | .clamp => Sys2Proof.Machine.execClamp s
  | .trstN => Sys2Proof.Machine.execTrstN s
  | .getCerts a0 => Sys2Proof.Machine.execGetCerts a0 s
  | .attest a0 => Sys2Proof.Machine.execAttest a0 s
  | .keyLoad a0 => Sys2Proof.Machine.execKeyLoad a0 s
  | .debugChallenge a0 => Sys2Proof.Machine.execDebugChallenge a0 s
  | .debugUnlock a0 => Sys2Proof.Machine.execDebugUnlock a0 s
  | .debugRelock a0 => Sys2Proof.Machine.execDebugRelock a0 s
  | .arbAdvance a0 => Sys2Proof.Machine.execArbAdvance a0 s
  | .flashWrite a0 => Sys2Proof.Machine.execFlashWrite a0 s
  | .flashCommit a0 => Sys2Proof.Machine.execFlashCommit a0 s
  | .porNAssert => Sys2Proof.Machine.execPorNAssert s
  | .porNRelease => Sys2Proof.Machine.execPorNRelease s
  | .inputTurnOn => Sys2Proof.Machine.execInputTurnOn s
  | .startUpStep a0 => Sys2Proof.Machine.execStartUpStep a0 s
  | .warmN => Sys2Proof.Machine.execWarmN s
  | .warm => Sys2Proof.Machine.execWarm s
  | .basin => Sys2Proof.Machine.execBasin s
  | .well a0 a1 => Sys2Proof.Machine.execWell a0 a1 s
  | .phaseUpdate => Sys2Proof.Machine.execPhaseUpdate s
  | .weirRegulatorCycle a0 => Sys2Proof.Machine.execWeirRegulatorCycle a0 s
  | .flitSlot a0 => Sys2Proof.Machine.execFlitSlot a0 s
  | .byvorFlitSlot => Sys2Proof.Machine.execByvorFlitSlot s
  | .stageInTransition a0 => Sys2Proof.Machine.execStageInTransition a0 s
  | .byvorLossOfSignal => Sys2Proof.Machine.execByvorLossOfSignal s
  | .soundingComplete => Sys2Proof.Machine.execSoundingComplete s
  | .wellheadRequestComplete => Sys2Proof.Machine.execWellheadRequestComplete s
  | .trigGetRequestArrival a0 => Sys2Proof.Machine.execTrigGetRequestArrival a0 s
  | .membershipChange a0 a1 a2 a3 => Sys2Proof.Machine.execMembershipChange a0 a1 a2 a3 s
  | .controlProcessorMemoryError a0 => Sys2Proof.Machine.execControlProcessorMemoryError a0 s
  | .chunkCaptureComplete a0 => Sys2Proof.Machine.execChunkCaptureComplete a0 s

end Sys2Proof.Machine
end

