-- ==== Sys2Proof/WellFormed.lean ====
section
/-! DEFINITION. Which commands are well formed: an instruction word belongs to its row (R158, R159), a flit, packet or message has the
size and kind of its row (R297, R327, R337, R348, R356, R387, R435, R476, R479, R481, R532). -/

namespace Sys2Proof

/-- CLASS and OPCODE of a word lie in a row (R158, R159). -/
def wordIs (cls lo hi : Nat) (i : W64) : Bool :=
  (i.extractLsb' 60 4).toNat == cls && decide (lo ≤ (i.extractLsb' 50 10).toNat ∧ (i.extractLsb' 50 10).toNat ≤ hi)

/-- One access of a slice stays inside a sector of 64 B (R297) of the stacks and frames. -/
def accessFits (r : CisternReq) : Bool :=
  let o := r.addr.toNat % 64
  match r.kind with
  | .read n => decide (1 ≤ n ∧ o + n ≤ 64)
  | .write d => decide (1 ≤ d.length ∧ o + d.length ≤ 64)
  | .atomic .. => decide (o % 8 = 0)
  | .zero => true

/-- WP3 exists in half 0 only (R318, R327). -/
def pathExists (p : WeirPath) : Bool := p.half == 0 || p.point != 3

/-- A flit of a TYPE with a body of 244 B (R356). -/
def flitIs (type_ : Nat) (f : Flit) : Bool := (f.hdr.extractLsb' 60 4).toNat == type_ && f.body.length == 244

/-- A Byvor flit has a body of 248 B (R476). -/
def byFlitSized (f : ByFlit) : Bool := f.body.length == 248

/-- KIND of a stage message (R337). -/
def stageKind (k : Nat) (m : StageMsg) : Bool := (m.w0.extractLsb' 0 4).toNat == k

/-- KIND of a packet, with as many data bytes as LEN says; a READ carries none (R356). -/
def packetIs (k : Nat) (p : Packet) : Bool :=
  (p.w0.extractLsb' 60 4).toNat == k && (if k = 1 then p.data.isEmpty else p.data.length == (p.w1.extractLsb' 54 10).toNat)

/-- Operation of a Wellhead request (R532). -/
def requestIs (k : Nat) (r : W64) : Bool := (r.extractLsb' 56 8).toNat == k

/-- Well-formed commands. -/
def Instr.wellFormed : Instr → Bool
  | .mclr _ i => wordIs 7 0x001 0x001 i
  | .mmac _ i => wordIs 7 0x002 0x002 i
  | .mfin _ i => wordIs 7 0x003 0x003 i
  | .mcomb _ i => wordIs 7 0x004 0x004 i
  | .mstat _ i => wordIs 7 0x005 0x005 i
  | .mtsave _ i => wordIs 7 0x006 0x006 i
  | .mtload _ i => wordIs 7 0x007 0x007 i
  | .mfence _ i => wordIs 7 0x008 0x008 i
  | .mhalt _ i => wordIs 7 0x010 0x010 i
  | .mresume _ i => wordIs 7 0x011 0x011 i
  | .mdrop _ i => wordIs 7 0x012 0x012 i
  | .mqsave _ i => wordIs 7 0x013 0x013 i
  | .mqload _ i => wordIs 7 0x014 0x014 i
  | .tileSidebandWrite _ o _ => decide (o.toNat % 8 = 0)
  | .setvl _ i => wordIs 5 0x001 0x001 i
  | .vfaddVfsubVfmulVfdivVfsqrt _ i => wordIs 5 0x010 0x014 i
  | .vfma _ i => wordIs 5 0x015 0x015 i
  | .vfms _ i => wordIs 5 0x016 0x016 i
  | .vfnma _ i => wordIs 5 0x017 0x017 i
  | .vfminVfmax _ i => wordIs 5 0x018 0x019 i
  | .vfsignCopyNegXor _ i => wordIs 5 0x01A 0x01C i
  | .vfeqVfltVfle _ i => wordIs 5 0x020 0x022 i
  | .vcvt _ i => wordIs 5 0x030 0x030 i
  | .vqmx _ i => wordIs 5 0x031 0x031 i
  | .vaddVsubVmulVmulhVmulhu _ i => wordIs 5 0x040 0x044 i
  | .vandVorVxor _ i => wordIs 5 0x045 0x047 i
  | .vsllVsrlVsra _ i => wordIs 5 0x048 0x04A i
  | .vminVmaxVminuVmaxu _ i => wordIs 5 0x04B 0x04E i
  | .vseqVsltVsltu _ i => wordIs 5 0x050 0x052 i
  | .mkAndOrXorAndn _ i => wordIs 5 0x060 0x063 i
  | .mkSet _ i => wordIs 5 0x064 0x064 i
  | .vtallyF _ i => wordIs 5 0x070 0x070 i
  | .vtallyFx _ i => wordIs 5 0x071 0x071 i
  | .vtallyFmaxFmin _ i => wordIs 5 0x072 0x073 i
  | .vtallyInteger _ i => wordIs 5 0x074 0x07A i
  | .mcount _ i => wordIs 5 0x080 0x080 i
  | .mfind _ i => wordIs 5 0x081 0x081 i
  | .vget _ i => wordIs 5 0x082 0x082 i
  | .vldVldsVldx _ i => wordIs 6 0x001 0x003 i
  | .vstVstsVstx _ i => wordIs 6 0x004 0x006 i
  | .mld _ i => wordIs 6 0x008 0x008 i
  | .mst _ i => wordIs 6 0x009 0x009 i
  | .vmv _ i => wordIs 6 0x010 0x010 i
  | .vbcast _ i => wordIs 6 0x011 0x011 i
  | .vshiftUp _ i => wordIs 6 0x012 0x012 i
  | .vshiftDown _ i => wordIs 6 0x013 0x013 i
  | .vpick _ i => wordIs 6 0x014 0x014 i
  | .vpack _ i => wordIs 6 0x015 0x015 i
  | .vins _ i => wordIs 6 0x016 0x016 i
  | .vwait _ i => wordIs 6 0x020 0x020 i
  | .addSub _ i => wordIs 0 0x001 0x002 i
  | .andOrXorAndn _ i => wordIs 0 0x003 0x006 i
  | .sllSrlSra _ i => wordIs 0 0x008 0x00A i
  | .sltSltu _ i => wordIs 0 0x010 0x011 i
  | .minMaxMinuMaxu _ i => wordIs 0 0x012 0x015 i
  | .clzCtzPopc _ i => wordIs 0 0x018 0x01A i
  | .sextZext _ i => wordIs 0 0x01B 0x01C i
  | .mulMulhMulhu _ i => wordIs 0 0x020 0x022 i
  | .divDivuRemRemu _ i => wordIs 0 0x024 0x027 i
  | .li _ i => wordIs 0 0x030 0x030 i
  | .lsh _ i => wordIs 0 0x031 0x031 i
  | .ld _ i => wordIs 1 0x001 0x007 i
  | .ldq _ i => wordIs 1 0x008 0x008 i
  | .st _ i => wordIs 1 0x011 0x014 i
  | .stq _ i => wordIs 1 0x018 0x018 i
  | .skip _ i => wordIs 2 0x001 0x001 i
  | .j _ i => wordIs 2 0x010 0x010 i
  | .jal _ i => wordIs 2 0x011 0x011 i
  | .jr _ i => wordIs 2 0x012 0x012 i
  | .csrr _ i => wordIs 3 0x001 0x001 i
  | .csrw _ i => wordIs 3 0x002 0x002 i
  | .csrs _ i => wordIs 3 0x003 0x003 i
  | .csrc _ i => wordIs 3 0x004 0x004 i
  | .trap _ i => wordIs 3 0x008 0x008 i
  | .retg _ i => wordIs 3 0x009 0x009 i
  | .rete _ i => wordIs 3 0x00A 0x00A i
  | .brk _ i => wordIs 3 0x00B 0x00B i
  | .fence _ i => wordIs 3 0x010 0x010 i
  | .wfi _ i => wordIs 3 0x011 0x011 i
  | .icinv _ i => wordIs 3 0x012 0x012 i
  | .xget _ i => wordIs 3 0x018 0x018 i
  | .xput _ i => wordIs 3 0x019 0x019 i
  | .qaddQsubQmul _ i => wordIs 4 0x001 0x003 i
  | .qminQmaxQminuQmaxu _ i => wordIs 4 0x004 0x007 i
  | .qandQorQxor _ i => wordIs 4 0x008 0x00A i
  | .qsllQsrlQsra _ i => wordIs 4 0x00B 0x00D i
  | .qfaddQfsubQfmulQfdivQfsqrt _ i => wordIs 4 0x010 0x014 i
  | .qfma _ i => wordIs 4 0x015 0x015 i
  | .qfminQfmax _ i => wordIs 4 0x016 0x017 i
  | .qfeqQfltQfle _ i => wordIs 4 0x018 0x01A i
  | .qcvt _ i => wordIs 4 0x020 0x020 i
  | .qperm _ i => wordIs 4 0x021 0x021 i
  | .qsplat _ i => wordIs 4 0x022 0x022 i
  | .qput _ i => wordIs 4 0x023 0x023 i
  | .qget _ i => wordIs 4 0x024 0x024 i
  | .qmov _ i => wordIs 4 0x025 0x025 i
  | .tagFill _ i => wordIs 8 0x040 0x040 i
  | .tagEmpty _ i => wordIs 8 0x041 0x041 i
  | .tagWaitFull _ i => wordIs 8 0x042 0x042 i
  | .tagWaitEmpty _ i => wordIs 8 0x043 0x043 i
  | .tagTake _ i => wordIs 8 0x044 0x044 i
  | .tagGet _ i => wordIs 8 0x045 0x045 i
  | .pumpSub _ i => wordIs 8 0x001 0x001 i
  | .czero _ i => wordIs 8 0x002 0x002 i
  | .invAs _ i => wordIs 8 0x020 0x020 i
  | .trigWait _ i => wordIs 8 0x030 0x030 i
  | .trigGet _ i => wordIs 8 0x031 0x031 i
  | .trigAdd _ i => wordIs 8 0x032 0x032 i
  | .cisternAccess r => accessFits r
  | .cisternMissFill a => decide (a.toNat < 0x20000000000)
  | .weirCfgWrite a _ => pathExists a.path
  | .stageMessageAdvance m => stageKind 1 m
  | .stageMessageRepeat m => stageKind 2 m
  | .stageAck m => stageKind 3 m
  | .repeatReq m => stageKind 4 m
  | .dataFlit _ f => flitIs 1 f
  | .idleFlit _ f => flitIs 2 f
  | .maintFlit _ f _ _ => flitIs 3 f
  | .trainFlit _ f => flitIs 4 f
  | .readPacket p => packetIs 1 p
  | .writePacket p => packetIs 2 p
  | .atomicPacket p => packetIs 3 p
  | .respPacket p => packetIs 4 p
  | .rillPacket m => decide (m.lanes.length ≤ 8)
  | .stagePacket p => packetIs 6 p
  | .mgmtPacket p => packetIs 7 p
  | .faultRecordExpire k => decide (k < 16384)
  | .byvorDataFlit f => byFlitSized f
  | .byvorIdleFlit f => byFlitSized f
  | .byvorMaintFlit f _ _ => byFlitSized f
  | .byvorTrainFlit f => byFlitSized f
  | .wwrite _ d => decide (1 ≤ d.length ∧ d.length ≤ 512)
  | .credit c _ => decide (c.toNat < 7)
  | .getCerts r => requestIs 1 r
  | .attest r => requestIs 2 r
  | .keyLoad r => requestIs 3 r
  | .debugChallenge r => requestIs 4 r
  | .debugUnlock r => requestIs 5 r
  | .debugRelock r => requestIs 6 r
  | .arbAdvance r => requestIs 7 r
  | .flashWrite r => requestIs 8 r
  | .flashCommit r => requestIs 9 r
  | .weirRegulatorCycle p => pathExists p
    | .headwaterLockstepDisagree .. | .synchronisedEventArrival .. | .registerWrite .. | .mmacPass .. | .mrInstructionStart .. |
    .flumeCompletion .. | .loadWindowClose .. | .storeBufferDrain .. | .icacheLineFill .. | .djqCompletion .. | .exceptionEntry .. |
    .interruptLineAssert .. | .interruptTake .. | .timer .. | .counterOvf .. | .tagWaitGrant .. | .tagStall .. | .wsModeToScoreboard .. |
    .wsModeToTagService .. | .wsModeWithdraw .. | .tagServiceChangeover .. | .scoreboardConflictRelease .. | .bankClose .. | .bankOff .. |
    .bankClear .. | .bankOpen .. | .bankDrainComplete .. | .bankCommandComplete .. | .pumpDescriptorStart .. | .pumpAccessIssue .. |
    .pumpPageCrossing .. | .pumpDescriptorComplete .. | .pumpErrorComplete .. | .translationWalk .. | .puFrespResume .. | .puFrespAbort .. |
    .puCtlDrop .. | .invalidationCut | .invalidationComplete | .frameClose .. | .frameOff .. | .frameClear .. | .toscratch .. | .tocache ..
    | .frameOpen .. | .frameDrainComplete .. | .frameCommandComplete .. | .ciMaintWriteback .. | .ciMaintWritebackInvalidate .. |
    .ciMaintComplete .. | .stackTemperatureRead .. | .stCfgWrite .. | .wireMarkFrame .. | .heldMarkTimeout | .stageLate | .stAckctlReady ..
    | .stAckctlReqrep .. | .masterAdvance | .masterDeadline | .memberLost .. | .eventSlotFire .. | .eventSlotWrite .. | .retryTimeout .. |
    .trainingStepComplete .. | .trainingStepTimeout .. | .linkRetryTimer .. | .fbLctlTrain .. | .fbLctlDisable .. | .fbLctlRetrain .. |
    .routeRemove .. | .routeRestore .. | .linkHealthCheck .. | .lossOfSignal .. | .keyChangeRequest .. | .keyexh .. | .collPacket .. |
    .unreachable .. | .remoteResponseTimeout .. | .epochPrep .. | .epochOk .. | .epochCancel .. | .triggerIncrement .. | .cfCtrWrite .. |
    .postQueueRead .. | .operationFire .. | .allreduce .. | .reduce .. | .reduceScatter .. | .allgather .. | .broadcast .. | .alltoall .. |
    .barrier .. | .rill .. | .channel .. | .operationComplete .. | .groupTimeout .. | .faultReport .. | .coalesceEntryExpire .. | .jobLoad
    .. | .jobStart .. | .jobKill .. | .map .. | .stageCfg .. | .basinCfg .. | .retire .. | .xlateResp .. | .faultAck .. | .eventAck .. |
    .eventFetch .. | .sound .. | .mgmt .. | .reachDone .. | .stageDone .. | .jobDone .. | .fault .. | .faultRecord | .xlateTimeout .. |
    .jobClearComplete .. | .scrubPassStart .. | .storeScrubRead .. | .scrubLate .. | .scrubStacks .. | .scrubCistern .. | .scrubStores .. |
    .linkRetrain .. | .wearUpdate .. | .wearSave .. | .laserBiasTrim .. | .receiverTuning .. | .phyTracking .. | .marginControl .. |
    .wearHourlyUpdate .. | .wearDailySample | .wearLogWrite .. | .baseflowRestart .. | .telemetryRecordWrite | .byvorRetryTimeout |
    .byvorTrainingStepComplete .. | .byvorTrainingStepTimeout | .byvorLinkRetryTimer | .byLctlTrain | .byLctlDisable | .byLctlRetrain |
    .hostLinkDown | .cmd .. | .wread .. | .time .. | .inputUv | .inputTurnOff | .railFault .. | .pwDomctlOn .. | .pwDomctlOff .. |
    .domainSwitchComplete .. | .powerEvaluation .. | .currentLimit | .capThrottle | .pwCapWrite .. | .refclkALoss | .refclkBLoss |
    .thermalSensorRead .. | .hwtrip | .mctpControlMessage .. | .i3cDynamicAddress .. | .gettidSettid .. | .getpldmversionTypesCommands .. |
    .getpdrrepositoryinfoGetpdr .. | .getsensorreading .. | .getstatesensorreadings .. | .setnumericeffectervalue .. |
    .getnumericeffectervalue | .seteventreceiver .. | .pollforplatformeventmessage | .platformeventmessage | .bypass | .idcode |
    .samplePreload .. | .extest | .highz | .clamp | .trstN | .porNAssert | .porNRelease | .inputTurnOn | .startUpStep .. | .warmN | .warm |
    .basin | .well .. | .phaseUpdate | .flitSlot .. | .byvorFlitSlot | .stageInTransition .. | .byvorLossOfSignal | .soundingComplete |
    .wellheadRequestComplete | .trigGetRequestArrival .. | .membershipChange .. | .controlProcessorMemoryError .. | .chunkCaptureComplete ..
    => true

end Sys2Proof
end

