-- ==== Sys2Proof/Safety.lean ====
section
/-! DEFINITION. The terms that the statements use: states in which an instruction issues with nothing in its way, what a retired
instruction leaves, reading device memory, and the invariant of every step. -/

namespace Sys2Proof.Machine

/-- A byte of the device memory. -/
def State.byteAt (s : State) (a : Nat) : Byte := memRead s.mem a

/-- The device memory is in canonical form. -/
def State.MemOk (s : State) : Prop := memWf s.mem = true

/-- The Windlass of a well is running in a domain that is on, no window is open, nothing is due, nothing suppresses the next
instruction, no register is late or bad and the I-cache line of the pc is good: the next instruction issues at once (R164, R174, R176,
R180, R190, R212, R224). -/
def ready (w : WellId) (s : State) : Bool :=
  canIssue w s && (s.cpu w).deferred.isEmpty && (s.cpu w).loads.isEmpty && (s.cpu w).modeWins.isEmpty && !(s.cpu w).skipNext &&
    (s.cpu w).fetchFault.isNone && (s.cpu w).badRegs.isEmpty && (s.cpu w).getPend.isEmpty && !(s.cpu w).lineBad &&
    s.wells[w].flume.window.isEmpty

/-- The Windlass after the fetch of the instruction at its pc: the line it hits in the I-cache is the most recently used (R188). -/
def fetched (c : Windlass) : Windlass := c.useLine c.fetchAsid c.pc

/-- A Windlass after an instruction that has retired: the pc goes on by 8 and INSTRET counts it (R166, R174). -/
def retired (c : Windlass) : Windlass := { fetched c with pc := c.pc + 8, stall := none, instret := countUp c.instret 1 }

/-- A Windlass after a jump: INSTRET counts it and a WASID write takes effect (R181). -/
def jumped (t : BitVec 56) (c : Windlass) : Windlass := { fetched c with pc := t, stall := none, instret := countUp c.instret 1, fetchAsid := c.wasid }

/-- A well whose exception or trap entry has gone through from the normal bank (R213): the saved registers, the shadow bank, the handler's
ring and the fetch address; the waits and claims of the Windlass and the Flume end (R240). -/
def entered (cause : W64) (epc : BitVec 56) (einfo : W64) (ring : BitVec 2) (ie : Bool) (target : BitVec 56) (u : Well) : Well :=
  let c := u.cpu
  let m : Modes := { c.eff with bank := true, ie := ie, ring := ring }
  { u with
    cpu := { c with
      exc := { c.exc with epc := epc.setWidth 64 &&& ~~~7, estatus := estatusWord c.skipNext c.eff, cause := cause, einfo := einfo }
      wr := m, eff := m, skipNext := false, fetchFault := none, stall := none, pc := target
      parityStop := c.parityStop || regParityCause cause }
    st := { u.st with
      waiters := u.st.waiters.filter (fun x => x.agent != .windlass && x.agent != .flume)
      claims := u.st.claims.filter (fun x => x.2 != .windlass && x.2 != .flume) } }

/-- An entry has nothing to finish first and nothing to save: no window is open, the store buffer is empty, no register is bad, and the
normal bank is in use (R213, R216). -/
def entryClear (w : WellId) (s : State) : Bool :=
  let c := s.cpu w
  c.loads.isEmpty && c.modeWins.isEmpty && decide (c.wr = c.eff) && c.storeBuf.isEmpty && c.badRegs.isEmpty && !c.eff.bank

/-- ENTRY.VALID of a ring. -/
def handlerSet (c : Windlass) (ring : BitVec 2) : Bool := bitB (if ring = 0 then c.exc.entry else c.exc.entryR1) 63

/-- ENTRY.ADDR of a ring. -/
def handlerAt (c : Windlass) (ring : BitVec 2) : BitVec 56 := (if ring = 0 then c.exc.entry else c.exc.entryR1).extractLsb' 0 56 &&& ~~~7

/-- The window entry of the Flume instruction at the pc, issued with nothing wrong (R139): its unit, its flags, the g register it writes
and the span it holds. -/
def issuedEntry (i : W64) (u : Well) (flags : BitVec 6) (gdest : Option (Bool × Fin 32 × W64)) (span : Option Span) (e : FlumeEntry) : Prop :=
  e.addr = u.cpu.pc ∧ e.unit = vUnit i ∧ e.seq = u.flume.issued ∧ e.flags = flags ∧ e.gdest = gdest ∧ e.span = span ∧ e.err = none

/-- The Flume after an instruction that has entered its empty window. -/
def Flume.entered (f : Flume) (e : FlumeEntry) : Flume := { f with window := [e], issued := f.issued + 1 }

/-- The tile's units hold no uncorrectable word where they are read (R91, R251). -/
def tileSound (w : WellId) (a : Nat) (s : State) : Prop :=
  let t := s.wells[w].mr.tiles[Fin.ofNat 16 a]
  t.st = .active → ueHit s.ue (wellAddr w (0x500000 + a * 0x20000)) ((tileUnits t.mode.toNat a).length * 0x20000) = false

/-- The next pass of the head `mmac` has nothing to wait for and meets no error (R107, R115, R152): nothing of it is read yet, no Flume
instruction is incomplete, and its slots are full, or tags are off. -/
def passClear (w : WellId) (e : MrEntry) (s : State) : Prop :=
  let u := s.wells[w]
  u.mr.loaded = [] ∧ u.flume.window = [] ∧ tileSound w (mrTile e.word) s ∧
    ∀ x ∈ passPieces e e.pass.toNat, (u.st.scoreboard = true ∨ tagReady u.st .millrace .leaveFull (slotOf x.off) = true) ∧
      ueHit s.ue (wellAddr w x.off) x.len = false

/-- A command that answers a next state. -/
def completes (c : Instr) (s : State) : Prop := ∃ t, exec c s = .next t

end Sys2Proof.Machine
end

