-- ==== Sys2Proof/Certificates/Slice0/Obligations.lean ====
section
/-! DEFINITION. The statements about the model: what its commands leave, where they complete, and what every step keeps. -/

open Sys2Proof Sys2Proof.Machine

/-- CLASS 0x0 (R168, R169): every scalar integer instruction, with both forms of operand 2, writes its result to gd (a write to g0 is
discarded) and changes nothing but gd, the pc and INSTRET. -/
def Obligations.ScalarResults : Prop :=
  ∀ (w : WellId) (i : W64) (s : State), ready w s = true → wClass i = 0 →
    let c := s.cpu w
    let a := c.rd (wS1 i)
    let b := if bitB i 29 then imm20 i else c.rd (wS2 i)
    let gives (v : W64) : Out := .next (s.modCpu w (fun c => retired (c.wr_ (wDest i) v)))
    (aluLegal i = true →
      (wOp i = 0x001 → exec (.addSub w i) s = gives (a + b)) ∧
      (wOp i = 0x002 → exec (.addSub w i) s = gives (a - b)) ∧
      (wOp i = 0x003 → exec (.andOrXorAndn w i) s = gives (a &&& b)) ∧
      (wOp i = 0x004 → exec (.andOrXorAndn w i) s = gives (a ||| b)) ∧
      (wOp i = 0x005 → exec (.andOrXorAndn w i) s = gives (a ^^^ b)) ∧
      (wOp i = 0x006 → exec (.andOrXorAndn w i) s = gives (a &&& ~~~b)) ∧
      (wOp i = 0x008 → exec (.sllSrlSra w i) s = gives (a <<< (b.toNat % 64))) ∧
      (wOp i = 0x009 → exec (.sllSrlSra w i) s = gives (a >>> (b.toNat % 64))) ∧
      (wOp i = 0x00A → exec (.sllSrlSra w i) s = gives (a.sshiftRight (b.toNat % 64))) ∧
      (wOp i = 0x010 → exec (.sltSltu w i) s = gives (if a.toInt < b.toInt then 1 else 0)) ∧
      (wOp i = 0x011 → exec (.sltSltu w i) s = gives (if a.toNat < b.toNat then 1 else 0)) ∧
      (wOp i = 0x012 → exec (.minMaxMinuMaxu w i) s = gives (BitVec.ofInt 64 (min a.toInt b.toInt))) ∧
      (wOp i = 0x013 → exec (.minMaxMinuMaxu w i) s = gives (BitVec.ofInt 64 (max a.toInt b.toInt))) ∧
      (wOp i = 0x014 → exec (.minMaxMinuMaxu w i) s = gives (BitVec.ofNat 64 (min a.toNat b.toNat))) ∧
      (wOp i = 0x015 → exec (.minMaxMinuMaxu w i) s = gives (BitVec.ofNat 64 (max a.toNat b.toNat))) ∧
      (wOp i = 0x020 → exec (.mulMulhMulhu w i) s = gives (a * b)) ∧
      (wOp i = 0x021 → exec (.mulMulhMulhu w i) s = gives (BitVec.ofInt 64 (a.toInt * b.toInt / 2 ^ 64))) ∧
      (wOp i = 0x022 → exec (.mulMulhMulhu w i) s = gives (BitVec.ofNat 64 (a.toNat * b.toNat / 2 ^ 64))) ∧
      (wOp i = 0x024 → exec (.divDivuRemRemu w i) s = gives (if b = 0 then ~~~0 else BitVec.ofInt 64 (a.toInt.tdiv b.toInt))) ∧
      (wOp i = 0x025 → exec (.divDivuRemRemu w i) s = gives (if b = 0 then ~~~0 else BitVec.ofNat 64 (a.toNat / b.toNat))) ∧
      (wOp i = 0x026 → exec (.divDivuRemRemu w i) s = gives (if b = 0 then a else BitVec.ofInt 64 (a.toInt.tmod b.toInt))) ∧
      (wOp i = 0x027 → exec (.divDivuRemRemu w i) s = gives (if b = 0 then a else BitVec.ofNat 64 (a.toNat % b.toNat)))) ∧
    (countLegal i = true →
      (wOp i = 0x018 → a ≠ 0 → ∃ n, n < 64 ∧ a.getLsbD (63 - n) = true ∧ (∀ m < n, a.getLsbD (63 - m) = false) ∧
        exec (.clzCtzPopc w i) s = gives (BitVec.ofNat 64 n)) ∧
      (wOp i = 0x019 → a ≠ 0 → ∃ n, n < 64 ∧ a.getLsbD n = true ∧ (∀ m < n, a.getLsbD m = false) ∧
        exec (.clzCtzPopc w i) s = gives (BitVec.ofNat 64 n)) ∧
      ((wOp i = 0x018 ∨ wOp i = 0x019) → a = 0 → exec (.clzCtzPopc w i) s = gives 64) ∧
      (wOp i = 0x01A → exec (.clzCtzPopc w i) s = gives (BitVec.ofNat 64 ((List.range 64).countP (fun k => a.getLsbD k))))) ∧
    (extLegal i = true →
      (wOp i = 0x01B → exec (.sextZext w i) s = gives
        (if immN i 0 2 = 0 then (a.truncate 8).signExtend 64 else if immN i 0 2 = 1 then (a.truncate 16).signExtend 64
          else (a.truncate 32).signExtend 64)) ∧
      (wOp i = 0x01C → exec (.sextZext w i) s = gives (BitVec.ofNat 64 (a.toNat % 2 ^ (8 * 2 ^ immN i 0 2))))) ∧
    (wOp i = 0x030 → wS1 i = 0 → wS2 i = 0 → wS3 i = 0 → exec (.li w i) s = gives (imm30 i)) ∧
    (wOp i = 0x031 → wS2 i = 0 → wS3 i = 0 → exec (.lsh w i) s = gives ((a <<< 30) ||| BitVec.ofNat 64 (immN i 0 30)))

/-- `ld` and `ldq` on data RAM or the stores (R170, R173, R195): with no fault, no hold, no error in the bytes and an empty store buffer,
the load opens a window of 2 (data RAM) or 5 instructions that holds the loaded value, extended as its OPCODE says; a load whose
destination is g0 opens none. Nothing else changes but the pc and INSTRET. -/
def Obligations.LoadOpensWindow : Prop :=
  ∀ (w : WellId) (i : W64) (s : State), ready w s = true → wClass i = 1 → noS2 i = true → noS3 i = true → immZero i 20 10 = true →
    let c := s.cpu w
    let ea := c.rd (wS1 i) + imm20 i
    let o := ea.toNat
    let clear (n : Nat) (quad : Bool) : Prop :=
      addressFault c o n quad = none ∧ o < 0xF00000 ∧ accessHold s w o n false = none ∧ checkFault s.wells[w] (halves o n quad) = none ∧
        c.storeBuf = [] ∧ (∀ k ∈ s.ue ++ s.ce, k * 8 + 8 ≤ wellAddr w o ∨ wellAddr w o + n ≤ k * 8)
    let bytes (n : Nat) : Nat := ofBytes (s.readBytes (wellAddr w o) n)
    let opens (d : LoadDest) (v : BitVec 128) : Out := .next (s.modCpu w (fun c => retired
      { c with loads := [{ dest := d, value := some v, ea := ea, left := if 0x700000 ≤ o then 2 else 5 }] }))
    (∀ n : Nat, (wOp i, n) ∈ [(1, 1), (2, 2), (3, 4), (4, 8), (5, 1), (6, 2), (7, 4)] → clear n false →
      (wDest i = 0 → exec (.ld w i) s = .next (s.modCpu w retired)) ∧
      (wDest i ≠ 0 → exec (.ld w i) s = opens (.g c.eff.bank (wDest i))
        (if wOp i ≤ 4 then (BitVec.ofInt 64 (signedN (8 * n) (bytes n))).setWidth 128 else BitVec.ofNat 128 (bytes n)))) ∧
    (wOp i = 8 → (wDest i).val < 16 → clear 16 true → exec (.ldq w i) s = opens (.q (qReg (wDest i))) (BitVec.ofNat 128 (bytes 16)))

/-- `st` and `stq` (R170, R194): with no fault and no hold, and room in the store buffer, the low bytes of gs2 (or the q register) enter
the store buffer as one entry for each aligned word; no byte of memory changes yet. -/
def Obligations.StoreEntersBuffer : Prop :=
  ∀ (w : WellId) (i : W64) (s : State), ready w s = true → wClass i = 1 → noDest i = true → noS3 i = true → immZero i 20 10 = true →
    let c := s.cpu w
    let o := (c.rd (wS1 i) + imm20 i).toNat
    let clear (n : Nat) (quad : Bool) : Prop :=
      addressFault c o n quad = none ∧ o < 0xF00000 ∧ accessHold s w o n true = none ∧ checkFault s.wells[w] (halves o n quad) = none ∧
        c.storeBuf = []
    let keeps (bs : List Byte) : Out := .next (s.modCpu w (fun c => retired { c with storeBuf := storeEntries o bs }))
    (∀ n : Nat, (wOp i, n) ∈ [(0x11, 1), (0x12, 2), (0x13, 4), (0x14, 8)] → clear n false →
      exec (.st w i) s = keeps (toBytes n (c.rd (wS2 i)).toNat)) ∧
    (wOp i = 0x18 → (wS2 i).val < 16 → clear 16 true → exec (.stq w i) s = keeps (toBytes 16 (c.q[qReg (wS2 i)]).toNat))

/-- STORE_BUFFER_DRAIN (R194) completes in every state: the oldest entry leaves the buffer; its enabled bytes, at rising addresses from its
word, are written, and every other byte of memory reads as before. With an empty buffer, or in a domain that is off, nothing changes.
LOAD_WINDOW_CLOSE (R173) completes in every state: the loads whose windows have run out write their destinations, oldest first, and leave
the list, and no other register changes; while one of them has bad data none closes (R179). -/
def Obligations.BufferedStoresDrainAndLoadsClose : Prop :=
  (
    ∀ (w : WellId) (s : State), (s.cpu w).storeBuf = [] ∨ s.wellOn w = false → exec (.storeBufferDrain w) s = .next s) ∧
  (
    ∀ (w : WellId) (s : State) (e : SbEntry) (r : List SbEntry), s.MemOk → s.wellOn w = true → (s.cpu w).storeBuf = e :: r →
      ∃ t, exec (.storeBufferDrain w) s = .next t ∧ t.cpu w = { s.cpu w with storeBuf := r } ∧
        (∀ k, k < 8 → e.be.getLsbD k = true → t.byteAt (wellAddr w (e.word.toNat + k)) = e.data.extractLsb' (8 * k) 8) ∧
        (∀ a, (∀ k, k < 8 → e.be.getLsbD k = true → a ≠ wellAddr w (e.word.toNat + k)) → t.byteAt a = s.byteAt a)) ∧
  (
    ∀ (w : WellId) (s : State),
      let due := (s.cpu w).loads.filter (fun L => decide (L.left = 0))
      ((∃ L ∈ due, L.value = none) → exec (.loadWindowClose w) s = .next s) ∧
      ((∀ L ∈ due, L.value ≠ none) → ∃ t, exec (.loadWindowClose w) s = .next t ∧
        (t.cpu w).loads = (s.cpu w).loads.filter (fun L => decide (L.left ≠ 0)) ∧ (t.cpu w).pc = (s.cpu w).pc ∧ t.mem = s.mem ∧
        (∀ sh n, (∀ L ∈ due, L.dest ≠ .g sh n) → (t.cpu w).gGet sh n = (s.cpu w).gGet sh n) ∧
        (∀ n : Fin 16, (∀ L ∈ due, L.dest ≠ .q n) → (t.cpu w).q[n] = (s.cpu w).q[n]) ∧
        (∀ a L b v, due = a ++ L :: b → (∀ M ∈ b, M.dest ≠ L.dest) → L.value = some v →
          (∀ sh n, L.dest = .g sh n → (t.cpu w).gGet sh n = if n = 0 then 0 else v.truncate 64) ∧
          (∀ n, L.dest = .q n → (t.cpu w).q[n] = v))))

/-- ICACHE_LINE_FILL (R188, R190): with a translation that gives R, no open fault record of the granule (R286) and a line that lies in a
store that may be read or in a stack, without an error, the line's 64 bytes enter the cache of the well under the fetch ASID; without a
translation the cache stays and a walk is asked for; in a domain that is off nothing changes. -/
def Obligations.ICacheFills : Prop :=
  ∀ (w : WellId) (va : BitVec 56) (s : State),
    let f := frontOfWell w
    let asid := (s.cpu w).fetchAsid
    (s.wellOn w = false → exec (.icacheLineFill w va) s = .next s) ∧
    (∀ e, s.wellOn w = true → recordFor s.fronts[f] asid va = none → tlbFind s.fronts[f] asid va = some e → rightsHold e.rights rightR = true →
      let g := e.addr va.toNat / 64 * 64
      let pa := g % 2 ^ 44
      let inStore : Prop := ∃ v o, placeOf pa = .well v o ∧ storeRefusal s v o 64 (v == w) = none ∧ ueHit s.ue (wellAddr v o) 64 = false
      let inStack : Prop := (∃ n, placeOf pa = .stack n) ∧ centralRefusal s pa = none ∧ captureHeld s pa 64 = false ∧ s.basinMode = 0 ∧
        s.stErr = [] ∧ s.cErr = [] ∧ s.cTagErr = [] ∧ s.poison = []
      g / 2 ^ 44 = s.devId.toNat → (inStore ∨ inStack) →
      ∃ t, exec (.icacheLineFill w va) s = .next t ∧ t.mem = s.mem ∧ (t.cpu w).pc = (s.cpu w).pc ∧
        ∃ l ∈ (t.cpu w).icache, l.asid = asid ∧ l.line = va.extractLsb' 6 50 ∧ l.data = s.readBytes pa 64 ∧ l.bad = false) ∧
    (s.wellOn w = true → recordFor s.fronts[f] asid va = none → tlbFind s.fronts[f] asid va = none →
      ∃ t, exec (.icacheLineFill w va) s = .next t ∧ t.mem = s.mem ∧ (t.cpu w).icache = (s.cpu w).icache ∧
        ∃ k ∈ t.fronts[f].walks, ∃ q ∈ k.reqs, q.1 = .fetch w)

/-- `j`, `jal`, `jr` (R181): the pc becomes the target, a link is written with the address after the jump, and a WASID write takes
effect; a target off 8 or above 56 bits takes FETCH_ADDR with the target in EINFO and writes no link. -/
def Obligations.JumpsGoToTarget : Prop :=
  ∀ (w : WellId) (i : W64) (s : State), ready w s = true → wClass i = 2 → noS2 i = true → noS3 i = true →
    let c := s.cpu w
    let rel : W64 := c.pc.setWidth 64 + 8 * imm30 i
    let next : W64 := c.pc.setWidth 64 + 8
    let abs : W64 := c.rd (wS1 i) + imm20 i
    let fits (t : W64) : Prop := t.toNat % 8 = 0 ∧ t.toNat < 2 ^ 56
    (wOp i = 0x010 → noDest i = true → noS1 i = true →
      (fits rel → exec (.j w i) s = .next (s.modCpu w (jumped (rel.truncate 56)))) ∧
      (¬ fits rel → exec (.j w i) s = .next (takeException w 0x04 rel s))) ∧
    (wOp i = 0x011 → noS1 i = true →
      (fits rel → exec (.jal w i) s = .next (s.modCpu w (fun c => jumped (rel.truncate 56) (c.wr_ (wDest i) next)))) ∧
      (¬ fits rel → exec (.jal w i) s = .next (takeException w 0x04 rel s))) ∧
    (wOp i = 0x012 → immZero i 20 10 = true →
      (fits abs → exec (.jr w i) s = .next (s.modCpu w (fun c => jumped (abs.truncate 56) (c.wr_ (wDest i) next)))) ∧
      (¬ fits abs → exec (.jr w i) s = .next (takeException w 0x04 abs s)))

/-- `skip` (R180): the condition of its code decides whether the next instruction is suppressed; nothing else changes but the pc and
INSTRET. A reserved code or an immediate bit or src2 that the condition does not use and is not zero takes ILLEGAL.
A completed skip suppresses the instruction after it, whatever it is (R180): the pc passes it, INSTRET does not count it, and nothing
else changes; where its word could not be fetched, no fetch fault is raised. One instruction of each kind that R180 names stands for all. -/
def Obligations.SkipDecidesAndSuppresses : Prop :=
  (
    ∀ (w : WellId) (i : W64) (s : State), ready w s = true → wClass i = 2 → wOp i = 1 →
      let c := s.cpu w
      let a := c.rd (wS1 i)
      let b := c.rd (wS2 i)
      let m := imm20 i
      let k := immN i 0 6
      let n := skipCond i
      let fits : Prop := noDest i = true ∧ noS3 i = true ∧ n ≤ 0xB ∧ (n ≤ 5 → immZero i 0 26 = true) ∧
        ((n = 6 ∨ n = 7) → immZero i 6 20 = true ∧ wS2 i = 0) ∧ (8 ≤ n → immZero i 20 6 = true ∧ wS2 i = 0)
      (¬ fits → exec (.skip w i) s = .next (takeException w 0x01 i s)) ∧
      (fits → ∃ p : Bool, exec (.skip w i) s = .next (s.modCpu w (fun c => retired { c with skipNext := p })) ∧
        (skipCond i = 0x0 → (p = true ↔ a = b)) ∧ (skipCond i = 0x1 → (p = true ↔ a ≠ b)) ∧
        (skipCond i = 0x2 → (p = true ↔ a.toInt < b.toInt)) ∧ (skipCond i = 0x3 → (p = true ↔ b.toInt ≤ a.toInt)) ∧
        (skipCond i = 0x4 → (p = true ↔ a.toNat < b.toNat)) ∧ (skipCond i = 0x5 → (p = true ↔ b.toNat ≤ a.toNat)) ∧
        (skipCond i = 0x6 → p = a.getLsbD k) ∧ (skipCond i = 0x7 → p = !a.getLsbD k) ∧
        (skipCond i = 0x8 → (p = true ↔ a = m)) ∧ (skipCond i = 0x9 → (p = true ↔ a ≠ m)) ∧
        (skipCond i = 0xA → (p = true ↔ a.toInt < m.toInt)) ∧ (skipCond i = 0xB → (p = true ↔ m.toInt ≤ a.toInt)))) ∧
  (
    ∀ (w : WellId) (i : W64) (s : State), ready w (s.modCpu w (fun c => { c with skipNext := false })) = true → (s.cpu w).skipNext = true →
      let passed : Out := .next (s.modCpu w (fun c => { c with pc := c.pc + 8, stall := none, skipNext := false }))
      (wordIs 2 0x010 0x010 i = true → exec (.j w i) s = passed) ∧ (wordIs 1 0x001 0x007 i = true → exec (.ld w i) s = passed) ∧
      (wordIs 2 0x001 0x001 i = true → exec (.skip w i) s = passed) ∧ (wordIs 0 0x001 0x002 i = true → exec (.addSub w i) s = passed) ∧
      (wordIs 1 0x011 0x014 i = true → exec (.st w i) s = passed) ∧ (wordIs 3 0x008 0x008 i = true → exec (.trap w i) s = passed) ∧
      ∀ f, exec (.exceptionEntry w) (s.modCpu w (fun c => { c with fetchFault := some f })) = passed)

/-- `csrr` (R182): gd takes what the CSR holds at the instruction's place, pending mode changes included; nothing else changes.
`csrw`, `csrs`, `csrc` in ring 0 on the plain CSRs (R166, R182, R208, R209): the register then reads as the new value in the bits that
hold its fields, and every other CSR but INSTRET reads as before. -/
def Obligations.CsrReadsAndWrites : Prop :=
  (
    ∀ (w : WellId) (i : W64) (s : State), ready w s = true → wClass i = 3 → wOp i = 1 → noS1 i = true → noS2 i = true → noS3 i = true →
      immZero i 12 18 = true → csrKnown (csrAddr i) = true → (s.cpu w).eff.ring.toNat ≤ csrReadRing (csrAddr i) →
      (csrAddr i = 0 → (s.cpu w).djq = []) →
      exec (.csrr w i) s = .next (s.modCpu w (fun c => retired (c.wr_ (wDest i) (csrRead s w (csrAddr i)))))) ∧
  (
    ∀ (w : WellId) (i : W64) (s : State) (m : W64), ready w s = true → wClass i = 3 → noDest i = true → noS2 i = true → noS3 i = true →
      immZero i 12 18 = true → (s.cpu w).eff.ring = 0 → (s.cpu w).wr.ring = 0 →
      (csrAddr i, m) ∈ [(0x003, 0x7FF), (0x012, 0xFFFF), (0x020, 0x8C0000FF000000FF), (0x021, 0x00FFFFFFFFFFFFF8), (0x022, ~~~0),
        (0x023, 0x80FFFFFFFFFFFFF8), (0x024, 0xFFFFFF), (0x025, 0xFFFFFF), (0x026, 0xFFFFFF), (0x027, 0xFFF000), (0x028, 0x7FF),
        (0x02A, 0x80FFFFFFFFFFFFF8), (0x02B, 0x1F), (0x02C, 0x0000CF4F019F01FE), (0x02D, 0x7FC), (0x02E, 0xFFFFFFFFFFFF)] →
      let old := csrRead s w (csrAddr i)
      let v := (s.cpu w).rd (wS1 i)
      let becomes (c : Instr) (n : W64) : Prop := ∃ t, exec c s = .next t ∧ csrRead t w (csrAddr i) = n &&& m ∧
        (∀ b, b ≠ csrAddr i → b ≠ 0x051 → csrRead t w b = csrRead s w b) ∧ t.mem = s.mem ∧ (t.cpu w).gN = (s.cpu w).gN ∧
        (t.cpu w).gS = (s.cpu w).gS ∧ (t.cpu w).pc = (s.cpu w).pc + 8 ∧ (∀ u : WellId, u ≠ w → t.wells[u] = s.wells[u])
      (wOp i = 2 → becomes (.csrw w i) v) ∧ (wOp i = 3 → becomes (.csrs w i) (old ||| v)) ∧ (wOp i = 4 → becomes (.csrc w i) (old &&& ~~~v)))

/-- A CSR write that changes STATUS.IE (R184): reads see the new value at once, the mode in effect stays, and a window of three
instructions opens.
The instructions of a mode-change window (R174, R184), shown on `li`: each that retires counts one, and the mode is in effect when
the third has retired. -/
def Obligations.ModeChangesWaitThreeInstructions : Prop :=
  (
    ∀ (w : WellId) (i : W64) (s : State), ready w s = true → wClass i = 3 → wOp i = 2 → noDest i = true → noS2 i = true → noS3 i = true →
      immN i 0 30 = 0x010 → (s.cpu w).eff.ring.toNat ≤ 1 → bitB ((s.cpu w).rd (wS1 i)) 0 = !(s.cpu w).wr.ie →
      ∃ t, exec (.csrw w i) s = .next t ∧ (t.cpu w).wr.ie = !(s.cpu w).wr.ie ∧ (t.cpu w).eff = (s.cpu w).eff ∧
        (t.cpu w).modeWins = [{ val := .ie (!(s.cpu w).wr.ie), left := 3 }]) ∧
  (
    ∀ (w : WellId) (i : W64) (s : State) (m : ModeVal) (n : Nat), (s.cpu w).modeWins = [{ val := m, left := n + 1 }] →
      ready w (s.modCpu w (fun c => { c with modeWins := [] })) = true → wClass i = 0 → wOp i = 0x030 → noS1 i = true → noS2 i = true → noS3 i = true →
      ∃ t, exec (.li w i) s = .next t ∧ (t.cpu w).rd (wDest i) = (if wDest i = 0 then 0 else imm30 i) ∧
        (n = 0 → (t.cpu w).modeWins = [] ∧ (t.cpu w).eff = (s.cpu w).eff.put m) ∧
        (n ≠ 0 → (t.cpu w).modeWins = [{ val := m, left := n }] ∧ (t.cpu w).eff = (s.cpu w).eff))

/-- `fence`, `wfi`, `icinv`, `xget`, `xput` (R162, R183): the store buffer empties into memory, an interrupt that is pending lets `wfi` end,
whatever IE is, `icinv` waits while it invalidates and the I-cache is empty as it completes, and the other bank is read or written; each
then retires. A ring that may not use one takes
PRIVILEGED with the word in EINFO. -/
def Obligations.SystemInstructions : Prop :=
  ∀ (w : WellId) (i : W64) (s : State), ready w s = true → wClass i = 3 → noS2 i = true → noS3 i = true → immZero i 0 30 = true →
    let c := s.cpu w
    (wOp i = 0x010 → noDest i = true → noS1 i = true → exec (.fence w i) s = .next ((s.drainAll w).modCpu w retired)) ∧
    (wOp i = 0x011 → noDest i = true → noS1 i = true → c.eff.ring.toNat ≤ 1 →
      (c.exc.ipend ≠ 0 → exec (.wfi w i) s = .next (s.modCpu w retired)) ∧
      (c.exc.ipend = 0 → exec (.wfi w i) s = .next (s.modCpu w (fun c => { c with stall := some .wfi })))) ∧
    (wOp i = 0x012 → noDest i = true → noS1 i = true → c.eff.ring.toNat ≤ 1 →
      (c.stall ≠ some .icinv → exec (.icinv w i) s = .next (s.modCpu w (fun c => { c with stall := some .icinv }))) ∧
      (c.stall = some .icinv → exec (.icinv w i) s = .next (s.modCpu w (fun c => retired { c with icache := [] })))) ∧
    (wOp i = 0x018 → c.eff.ring.toNat ≤ 2 →
      exec (.xget w i) s = .next (s.modCpu w (fun c => retired (c.wr_ (wDest i) (c.gGet (!c.eff.bank) (wS1 i)))))) ∧
    (wOp i = 0x019 → c.eff.ring.toNat ≤ 2 →
      exec (.xput w i) s = .next (s.modCpu w (fun c => retired (c.gSet (!c.eff.bank) (wDest i) (c.rd (wS1 i)))))) ∧
    (
      let privileged : Out := .next (takeException w 0x02 i s)
      (2 ≤ c.eff.ring.toNat → noDest i = true → noS1 i = true → (wOp i = 0x011 → exec (.wfi w i) s = privileged) ∧
        (wOp i = 0x012 → exec (.icinv w i) s = privileged)) ∧
      (c.eff.ring = 3 → (wOp i = 0x018 → exec (.xget w i) s = privileged) ∧ (wOp i = 0x019 → exec (.xput w i) s = privileged)))

/-- Taking an exception from the normal bank (R213, R211, R214): EPC, ESTATUS, CAUSE and EINFO are written, the shadow bank and the
handler's ring are in use with IE 0, and fetch starts at ENTRY.ADDR. `brk` takes BREAK so; EXCEPTION_ENTRY takes a deferred fault so,
and a fetch fault. -/
def Obligations.ExceptionIsTaken : Prop :=
  ∀ (w : WellId) (s : State), ready w s = true →
    let c := s.cpu w
    let takes (s : State) (code : BitVec 8) (info : W64) : State :=
      let h := handlerRing c false code
      s.modWell w (entered (causeWord false c.eff.ring 0 code) c.pc info h false (handlerAt c h))
    (∀ i, wClass i = 3 → wOp i = 0x00B → bareLegal i = true → entryClear w s = true → handlerSet c (handlerRing c false 0x06) = true →
      exec (.brk w i) s = .next (takes (s.modCpu w fetched) 0x06 0)) ∧
    (∀ f, entryClear w s = true → handlerSet c (handlerRing c false f.code) = true →
      exec (.exceptionEntry w) (s.modCpu w (fun c => { c with deferred := [f] })) = .next (takes s f.code f.info) ∧
      exec (.exceptionEntry w) (s.modCpu w (fun c => { c with fetchFault := some f })) =
        .next (takes (s.modCpu w fetched) f.code f.info))

/-- `trap n` (R219) with a sound sluice table entry: CAUSE.CODE is 0x30 with n in CAUSE.INFO, EPC is the instruction after the trap, EINFO
is 0, RING and IE come from the entry, and fetch starts at its ADDR. -/
def Obligations.TrapEntersSluice : Prop :=
  ∀ (w : WellId) (i : W64) (s : State), ready w s = true → wClass i = 3 → wOp i = 8 → noDest i = true → noS1 i = true → noS2 i = true →
    noS3 i = true → immZero i 8 22 = true → sluiceTableOk (s.cpu w) = true → entryClear w s = true →
    let c := s.cpu w
    let n := immN i 0 8
    let o := fieldN c.exc.sltbase 12 12 * 0x1000 + 16 * n
    let e0 := s.readWord (wellAddr w o)
    let e1 := s.readWord (wellAddr w (o + 8))
    (∀ k ∈ s.ue ++ s.ce, k * 8 + 8 ≤ wellAddr w o ∨ wellAddr w o + 16 ≤ k * 8) →
    bitB e0 63 = true → fieldN e0 60 3 = 0 → fieldN e0 56 2 = 0 → fieldN e0 0 3 = 0 → fieldN e1 5 59 = 0 → bitB e1 c.eff.ring.toNat = true →
    fieldN e0 58 2 ≤ c.eff.ring.toNat →
    exec (.trap w i) s = .next ((s.modWell w (entered (causeWord false c.eff.ring (BitVec.ofNat 8 n) 0x30) (c.pc + 8) 0
      (e0.extractLsb' 58 2) (bitB e1 4) (e0.extractLsb' 0 56 &&& ~~~7))).modCpu w
        (fun d => { d.useLine c.fetchAsid c.pc with instret := countUp d.instret 1 }))

/-- `rete` and `retg` (R220) with ESTATUS.BANK = 0: RING, IE, BANK and SKIPNEXT come from ESTATUS with no window, fetch resumes at EPC, and
`rete` puts a WASID write in effect; a return that R220 refuses takes RET_STATE with ESTATUS in EINFO. After REG_PARITY no return is made
(R164). -/
def Obligations.ReturnRestores : Prop :=
  ∀ (w : WellId) (i : W64) (s : State), ready w s = true → wClass i = 3 → bareLegal i = true → (s.cpu w).wr = (s.cpu w).eff →
    let c := s.cpu w
    let e := c.exc.estatus
    let back (wasid : Bool) : State := s.modCpu w (fun c =>
      let m : Modes := { c.eff with ie := bitB e 0, bank := false, ring := e.extractLsb' 2 2 }
      { fetched c with
        eff := m, wr := m, skipNext := bitB e 4, stall := none, pc := c.exc.epc.extractLsb' 0 56 &&& ~~~7
        fetchAsid := if wasid then c.wasid else c.fetchAsid, instret := countUp c.instret 1 })
    let stays : Out := .next (s.modCpu w (fun c => { c with stall := some .parity }))
    let sound : Prop := c.eff.ring.toNat ≤ fieldN e 2 2 ∧ e.toNat < 32
    (wOp i = 0x00A → c.eff.ring.toNat ≤ 1 →
      (sound → bitB e 1 = false → c.parityStop = false → exec (.rete w i) s = .next (back true)) ∧
      (sound → c.parityStop = true → exec (.rete w i) s = stays) ∧
      (¬ sound → exec (.rete w i) s = .next (takeException w 0x08 e s))) ∧
    (wOp i = 0x009 → c.eff.ring.toNat ≤ 2 →
      (sound → c.exc.cause.extractLsb' 0 8 = 0x30 → bitB e 1 = false → c.parityStop = false → exec (.retg w i) s = .next (back false)) ∧
      (¬ sound ∨ c.exc.cause.extractLsb' 0 8 ≠ 0x30 → exec (.retg w i) s = .next (takeException w 0x08 e s)))

/-- The interrupt lines (R226, R227, R550): an assertion sets the line's IPEND bit, TIMER and COUNTER_OVF assert theirs under their conditions,
and INTERRUPT_TAKE takes the lowest line that is pending and enabled, with its code in CAUSE and the first instruction not issued in
EPC. The oldest event of a well in its synchroniser (R550) asserts its line as it arrives. -/
def Obligations.InterruptLines : Prop :=
  ∀ (w : WellId) (s : State), s.wellOn w = true →
    let c := s.cpu w
    let raised (k : Nat) : Out := .next (s.modCpu w (fun c => { c with exc := { c.exc with ipend := c.exc.ipend ||| (1#11 <<< k) } }))
    (∀ line : Fin 11, exec (.interruptLineAssert w line) s = raised line.val) ∧
    (∀ a e b, s.sync = a ++ e :: b → (∀ x ∈ a, x.well ≠ w) → e.well = w → exec (.synchronisedEventArrival w) s =
      .next { s.modCpu w (fun c => { c with exc := { c.exc with ipend := c.exc.ipend ||| (1#11 <<< e.line.val) } }) with sync := a ++ b }) ∧
    ((∀ x ∈ s.sync, x.well ≠ w) → exec (.synchronisedEventArrival w) s = .next s) ∧
    (c.exc.timecmp ≠ 0 → c.exc.timecmp.toNat ≤ c.cycle.count.toNat → exec (.timer w) s = raised 5) ∧
    (c.instret.ovf = true → exec (.counterOvf w true) s = raised 10) ∧ (c.cycle.ovf = true → exec (.counterOvf w false) s = raised 10) ∧
    (∀ line : Fin 11, ready w s = true → c.eff.ie = true → (c.exc.ipend &&& c.exc.ienable).getLsbD line.val = true →
      (∀ k : Fin 11, k < line → (c.exc.ipend &&& c.exc.ienable).getLsbD k.val = false) →
      let code : BitVec 8 := BitVec.ofNat 8 (0x40 + line.val)
      let h := handlerRing c true code
      entryClear w s = true → handlerSet c h = true →
      exec (.interruptTake w) s = .next (s.modWell w (entered (causeWord true c.eff.ring 0 code)
        (if c.stall = some .wfi then c.pc + 8 else c.pc) 0 h false (handlerAt c h))))

/-- Nested entry and return (R221, R223): pushing a frame at XSP writes the 35 context words there, and popping it gives back the shadow
bank (its g0 reads as zero), the fields of EPC, CAUSE and ESTATUS, and EINFO, XSP and EDEPTH; a byte outside the 512 of the frame reads as before. -/
def Obligations.FrameRoundTrip : Prop :=
  ∀ (w : WellId) (s : State), s.MemOk → pushOk (s.cpu w).exc = true → (s.cpu w).exc.edepth ≠ 0xFFFF →
    let c := s.cpu w
    let a := wellAddr w c.exc.xsp.toNat
    let p := pushFrame w s
    let t := popFrame w p
    (p.cpu w).exc.xsp = c.exc.xsp + 512 ∧ (p.cpu w).exc.edepth = c.exc.edepth + 1 ∧
      (∀ b, b < a ∨ a + 512 ≤ b → t.byteAt b = s.byteAt b) ∧
      (∀ n : Fin 32, n ≠ 0 → (t.cpu w).gS[n] = c.gS[n]) ∧ (t.cpu w).gS[(0 : Fin 32)] = 0 ∧ (t.cpu w).gN = c.gN ∧
      (t.cpu w).exc = { c.exc with epc := c.exc.epc &&& epcMask, cause := c.exc.cause &&& causeMask, estatus := c.exc.estatus &&& estatusMask }

/-- The DJ-Q integer, bit and move instructions (R163, R199): each element of qd takes its result from the same element of the sources,
modulo 2^EW; `qget` writes gd; nothing else changes but the pc and INSTRET.
The DJ-Q floating instructions (R199, R200): every element is the rounded result of its format in the resolved rounding mode, and the
ORed flags wait for DJQ_COMPLETION, which ORs the oldest into FFLAGS. -/
def Obligations.DjqResults : Prop :=
  (
    ∀ (w : WellId) (i : W64) (s : State), ready w s = true → wClass i = 4 →
      let c := s.cpu w
      let n := ewBits (qEw i)
      let qa := c.q[qReg (wS1 i)]
      let qb := c.q[qReg (wS2 i)]
      let makes (ins : Instr) (P : BitVec 128 → Prop) : Prop :=
        ∃ r, exec ins s = .next (s.modCpu w (fun c => retired (c.qSet (qReg (wDest i)) r))) ∧ P r
      let each (f : Nat → Nat → Nat) (r : BitVec 128) : Prop := ∀ k, k < 128 / n → qElem r n k = f (qElem qa n k) (qElem qb n k)
      (q3 i = true → immZero i 0 28 = true →
        (wOp i = 0x001 → makes (.qaddQsubQmul w i) (each (fun x y => (x + y) % 2 ^ n))) ∧
        (wOp i = 0x002 → makes (.qaddQsubQmul w i) (each (fun x y => (x + (2 ^ n - y)) % 2 ^ n))) ∧
        (wOp i = 0x003 → makes (.qaddQsubQmul w i) (each (fun x y => x * y % 2 ^ n))) ∧
        (wOp i = 0x004 → makes (.qminQmaxQminuQmaxu w i) (each (fun x y => if signedN n y < signedN n x then y else x))) ∧
        (wOp i = 0x005 → makes (.qminQmaxQminuQmaxu w i) (each (fun x y => if signedN n x < signedN n y then y else x))) ∧
        (wOp i = 0x006 → makes (.qminQmaxQminuQmaxu w i) (each min)) ∧
        (wOp i = 0x007 → makes (.qminQmaxQminuQmaxu w i) (each max))) ∧
      (q3 i = true → immZero i 0 30 = true →
        (wOp i = 0x008 → makes (.qandQorQxor w i) (fun r => r = qa &&& qb)) ∧
        (wOp i = 0x009 → makes (.qandQorQxor w i) (fun r => r = qa ||| qb)) ∧
        (wOp i = 0x00A → makes (.qandQorQxor w i) (fun r => r = qa ^^^ qb)) ∧
        (wOp i = 0x021 → makes (.qperm w i) (fun r => ∀ k, k < 16 →
          qElem r 8 k = if 128 ≤ qElem qb 8 k then 0 else qElem qa 8 (qElem qb 8 k % 16)))) ∧
      (q2 i = true → immZero i 6 22 = true →
        (wOp i = 0x00B → makes (.qsllQsrlQsra w i) (each (fun x _ => x * 2 ^ (qSh i % n) % 2 ^ n))) ∧
        (wOp i = 0x00C → makes (.qsllQsrlQsra w i) (each (fun x _ => x / 2 ^ (qSh i % n)))) ∧
        (wOp i = 0x00D → makes (.qsllQsrlQsra w i) (each (fun x _ => wrapN n (signedN n x / ((2 ^ (qSh i % n) : Nat) : Int)))))) ∧
      (wOp i = 0x022 → qOk (wDest i) = true → noS2 i = true → noS3 i = true → immZero i 0 28 = true →
        makes (.qsplat w i) (fun r => ∀ k, k < 128 / n → qElem r n k = (c.rd (wS1 i)).toNat % 2 ^ n)) ∧
      (wOp i = 0x023 → qOk (wDest i) = true → laneOk i = true →
        makes (.qput w i) (fun r => ∀ k, k < 128 / n →
          qElem r n k = if k = qSh i then (c.rd (wS1 i)).toNat % 2 ^ n else qElem c.q[qReg (wDest i)] n k)) ∧
      (wOp i = 0x024 → qOk (wS1 i) = true → laneOk i = true →
        exec (.qget w i) s = .next (s.modCpu w (fun c => retired (c.wr_ (wDest i) (BitVec.ofNat 64 (qElem qa n (qSh i))))))) ∧
      (wOp i = 0x025 → q2 i = true → immZero i 0 30 = true → makes (.qmov w i) (fun r => r = qa))) ∧
  (
    ∀ (w : WellId) (i : W64) (s : State), ready w s = true → wClass i = 4 →
      let c := s.cpu w
      let n := ewBits (qEw i)
      let rm := resolveRm (qRm i) c.eff.frm
      let qa := c.q[qReg (wS1 i)]
      let qb := c.q[qReg (wS2 i)]
      let qd := c.q[qReg (wDest i)]
      let fl (N : Nat) (f : Nat → Nat × BitVec 6) : BitVec 6 := (List.range N).foldl (fun a k => a ||| (f k).2) 0
      let makes (ins : Instr) (width N : Nat) (f : Nat → Nat × BitVec 6) : Prop :=
        ∃ r, exec ins s = .next (s.modCpu w (fun c => retired { (c.qSet (qReg (wDest i)) r) with djq := c.djq ++ [fl N f] })) ∧
          ∀ k, k < N → qElem r width k = (f k).1 % 2 ^ width
      (∀ op, op < 5 → wOp i = 0x010 + op → qArithLegal i = true →
        makes (.qfaddQfsubQfmulQfdivQfsqrt w i) n (128 / n) (fun k => arithOp (qFmt i) rm op (qElem qa n k) (qElem qb n k))) ∧
      (wOp i = 0x015 → q3 i = true → qFltOk i = true → rmOk (qRm i) = true → immZero i 0 24 = true →
        makes (.qfma w i) n (128 / n) (fun k => fmaOp (qFmt i) rm false false (qElem qa n k) (qElem qb n k) (qElem qd n k))) ∧
      (∀ hi : Bool, wOp i = (if hi then 0x017 else 0x016) → q3 i = true → qFltOk i = true → immZero i 0 27 = true →
        makes (.qfminQfmax w i) n (128 / n) (fun k => minMaxOp (qFmt i) hi (qElem qa n k) (qElem qb n k))) ∧
      (∀ d f, wOp i = 0x020 → qcvtLegal i = true → Fmt.ofCode (qDf i) = some d → Fmt.ofCode (qSf i) = some f →
        makes (.qcvt w i) d.bits (ewCount (qEw i)) (fun k => convertF f d rm (qSat i) (qElem qa f.bits k))) ∧
      (∀ op, op < 3 → wOp i = 0x018 + op → qOk (wS1 i) = true → qOk (wS2 i) = true → noS3 i = true → qFltOk i = true → immZero i 0 27 = true →
        let f (k : Nat) : Bool × BitVec 6 := compareOp (qFmt i) op (qElem qa n k) (qElem qb n k)
        ∃ v : W64, exec (.qfeqQfltQfle w i) s = .next (s.modCpu w (fun c => retired { (c.wr_ (wDest i) v) with
            djq := c.djq ++ [(List.range (ewCount (qEw i))).foldl (fun a k => a ||| (f k).2) 0] })) ∧
          ∀ k, k < 64 → v.getLsbD k = (decide (k < ewCount (qEw i)) && (f k).1)) ∧
      (∀ x r, c.djq = x :: r → exec (.djqCompletion w) s = .next (s.modCpu w (fun c => { c with flags := c.flags ||| x, djq := r }))))

/-- The element-wise instructions of CLASS 0x5 and 0x6 (R131, R133-R136, R139, R141): every active element below VL takes its result and
every other element keeps its value; the flags of the active elements wait in the window until the instruction completes. Nothing else
changes but the pc and INSTRET. -/
def Obligations.FlumeElementResults : Prop :=
  ∀ (w : WellId) (i : W64) (s : State), ready w s = true → selOk i = true →
    let c := s.cpu w
    let u := s.wells[w].flume
    let n := sewOf c.eff.vtype
    let fm := vFmt c.eff.vtype
    let rm := resolveRm (vRm i) c.eff.frm
    let a (k : Nat) : Nat := vElem u.v[wS1 i] n k
    let v2 (k : Nat) : Nat := vElem u.v[wS2 i] n k
    let b (k : Nat) : Nat := if bitB i 29 then (c.rd (wS2 i)).toNat % 2 ^ n else v2 k
    let d (k : Nat) : Nat := vElem u.v[wDest i] n k
    let g1 : Nat := (c.rd (wS1 i)).toNat
    let g2 : Nat := (c.rd (wS2 i)).toNat
    let act (k : Nat) : Bool := decide (k < u.vl.toNat) && admits u i k
    let makes (ins : Instr) (need : VNeed) (width : Nat) (f : Nat → Nat × BitVec 6) : Prop :=
      vIssueFault c u need = none →
        ∃ r e, exec ins s = .next (s.modWell w (fun x => { x with
            cpu := retired x.cpu
            flume := { x.flume with v := x.flume.v.set (wDest i) r }.entered e })) ∧
          issuedEntry i s.wells[w] ((List.range u.vl.toNat).foldl (fun z k => if act k then z ||| (f k).2 else z) 0) none none e ∧
          ∀ k, k < 16384 / width → vElem r width k = if act k then (f k).1 % 2 ^ width else vElem u.v[wDest i] width k
    let quiet (f : Nat → Nat) (k : Nat) : Nat × BitVec 6 := (f k, 0)
    (wClass i = 5 →
      (∀ op, op < 5 → wOp i = 0x010 + op → rmOk (vRm i) = true → immZero i 0 26 = true → (op = 4 → noS2 i = true ∧ bitB i 29 = false) →
        makes (.vfaddVfsubVfmulVfdivVfsqrt w i) fpNeed n (fun k => arithOp fm rm op (a k) (b k))) ∧
      (rmOk (vRm i) = true → immZero i 0 26 = true →
        (wOp i = 0x015 → makes (.vfma w i) fpNeed n (fun k => fmaOp fm rm false false (a k) (b k) (d k))) ∧
        (wOp i = 0x016 → makes (.vfms w i) fpNeed n (fun k => fmaOp fm rm false true (a k) (b k) (d k))) ∧
        (wOp i = 0x017 → makes (.vfnma w i) fpNeed n (fun k => fmaOp fm rm true false (a k) (b k) (d k)))) ∧
      (immZero i 0 29 = true →
        (wOp i = 0x018 → makes (.vfminVfmax w i) fpNeed n (fun k => minMaxOp fm false (a k) (b k))) ∧
        (wOp i = 0x019 → makes (.vfminVfmax w i) fpNeed n (fun k => minMaxOp fm true (a k) (b k))) ∧
        (wOp i = 0x01A → makes (.vfsignCopyNegXor w i) fpNeed n
          (quiet (fun k => a k % 2 ^ (n - 1) + b k / 2 ^ (n - 1) * 2 ^ (n - 1)))) ∧
        (wOp i = 0x01B → makes (.vfsignCopyNegXor w i) fpNeed n
          (quiet (fun k => a k % 2 ^ (n - 1) + (1 - b k / 2 ^ (n - 1)) * 2 ^ (n - 1)))) ∧
        (wOp i = 0x01C → makes (.vfsignCopyNegXor w i) fpNeed n
          (quiet (fun k => a k % 2 ^ (n - 1) + (a k / 2 ^ (n - 1) + b k / 2 ^ (n - 1)) % 2 * 2 ^ (n - 1)))) ∧
        (wOp i = 0x040 → makes (.vaddVsubVmulVmulhVmulhu w i) anyNeed n (quiet (fun k => a k + b k))) ∧
        (wOp i = 0x041 → makes (.vaddVsubVmulVmulhVmulhu w i) anyNeed n (quiet (fun k => a k + (2 ^ n - b k)))) ∧
        (wOp i = 0x042 → makes (.vaddVsubVmulVmulhVmulhu w i) anyNeed n (quiet (fun k => a k * b k))) ∧
        (wOp i = 0x043 → makes (.vaddVsubVmulVmulhVmulhu w i) anyNeed n
          (quiet (fun k => wrapN n (signedN n (a k) * signedN n (b k) / ((2 ^ n : Nat) : Int))))) ∧
        (wOp i = 0x044 → makes (.vaddVsubVmulVmulhVmulhu w i) anyNeed n (quiet (fun k => a k * b k / 2 ^ n))) ∧
        (wOp i = 0x045 → makes (.vandVorVxor w i) anyNeed n (quiet (fun k => a k &&& b k))) ∧
        (wOp i = 0x046 → makes (.vandVorVxor w i) anyNeed n (quiet (fun k => a k ||| b k))) ∧
        (wOp i = 0x047 → makes (.vandVorVxor w i) anyNeed n (quiet (fun k => a k ^^^ b k))) ∧
        (wOp i = 0x048 → makes (.vsllVsrlVsra w i) anyNeed n (quiet (fun k => a k * 2 ^ (b k % n)))) ∧
        (wOp i = 0x049 → makes (.vsllVsrlVsra w i) anyNeed n (quiet (fun k => a k / 2 ^ (b k % n)))) ∧
        (wOp i = 0x04A → makes (.vsllVsrlVsra w i) anyNeed n (quiet (fun k => wrapN n (signedN n (a k) / ((2 ^ (b k % n) : Nat) : Int))))) ∧
        (wOp i = 0x04B → makes (.vminVmaxVminuVmaxu w i) anyNeed n
          (quiet (fun k => if signedN n (b k) < signedN n (a k) then b k else a k))) ∧
        (wOp i = 0x04C → makes (.vminVmaxVminuVmaxu w i) anyNeed n
          (quiet (fun k => if signedN n (a k) < signedN n (b k) then b k else a k))) ∧
        (wOp i = 0x04D → makes (.vminVmaxVminuVmaxu w i) anyNeed n (quiet (fun k => min (a k) (b k)))) ∧
        (wOp i = 0x04E → makes (.vminVmaxVminuVmaxu w i) anyNeed n (quiet (fun k => max (a k) (b k))))) ∧
      (∀ df sf, wOp i = 0x030 → vcvtLegal i = true → Fmt.ofCode (vDf i) = some df → Fmt.ofCode (vSf i) = some sf →
        makes (.vcvt w i) { fp := false, mem := false, ok := fun t => sewOf t == max df.bits sf.bits } df.bits
          (fun k => convertF sf df rm (vSat i) (vElem u.v[wS1 i] sf.bits k)))) ∧
    (wClass i = 6 → immZero i 0 30 = true →
      (wOp i = 0x010 → noS2 i = true → makes (.vmv w i) anyNeed n (quiet a)) ∧
      (wOp i = 0x011 → noS2 i = true → makes (.vbcast w i) anyNeed n (quiet (fun _ => g1))) ∧
      (wOp i = 0x012 → wDest i ≠ wS1 i → makes (.vshiftUp w i) anyNeed n (quiet (fun k => if g2 ≤ k then a (k - g2) else d k))) ∧
      (wOp i = 0x013 → makes (.vshiftDown w i) anyNeed n (quiet (fun k => if k + g2 < vlmax c.eff.vtype then a (k + g2) else 0))) ∧
      (wOp i = 0x014 → wDest i ≠ wS1 i → wDest i ≠ wS2 i →
        makes (.vpick w i) anyNeed n (quiet (fun k => if v2 k < vlmax c.eff.vtype then a (v2 k) else 0))))

/-- The CLASS 0x5 instructions that write a mask register (R131, R133): the compares write the active bits below VL of md; mask logic and
`mk.set` write all 2,048 bits whatever VL and the selector are. -/
def Obligations.FlumeMaskResults : Prop :=
  ∀ (w : WellId) (i : W64) (s : State), ready w s = true → wClass i = 5 → selOk i = true → (wDest i).val < 8 →
    let c := s.cpu w
    let u := s.wells[w].flume
    let n := sewOf c.eff.vtype
    let a (k : Nat) : Nat := vElem u.v[wS1 i] n k
    let b (k : Nat) : Nat := if bitB i 29 then (c.rd (wS2 i)).toNat % 2 ^ n else vElem u.v[wS2 i] n k
    let act (k : Nat) : Bool := decide (k < u.vl.toNat) && admits u i k
    let md : Fin 8 := mReg (wDest i)
    let makes (ins : Instr) (need : VNeed) (flags : BitVec 6) (P : BitVec 2048 → Prop) : Prop :=
      vIssueFault c u need = none →
        ∃ r e, exec ins s = .next (s.modWell w (fun x => { x with
            cpu := retired x.cpu
            flume := { x.flume with m := x.flume.m.set md r }.entered e })) ∧ issuedEntry i s.wells[w] flags none none e ∧ P r
    let compares (f : Nat → Bool) (r : BitVec 2048) : Prop := ∀ k, k < 2048 → r.getLsbD k = if act k then f k else (u.m[md]).getLsbD k
    (immZero i 0 29 = true →
      (∀ op, op < 3 → wOp i = 0x020 + op →
        makes (.vfeqVfltVfle w i) fpNeed
          ((List.range u.vl.toNat).foldl (fun z k => if act k then z ||| (compareOp (vFmt c.eff.vtype) op (a k) (b k)).2 else z) 0)
          (compares (fun k => (compareOp (vFmt c.eff.vtype) op (a k) (b k)).1))) ∧
      (wOp i = 0x050 → makes (.vseqVsltVsltu w i) anyNeed 0 (compares (fun k => decide (a k = b k)))) ∧
      (wOp i = 0x051 → makes (.vseqVsltVsltu w i) anyNeed 0 (compares (fun k => decide (signedN n (a k) < signedN n (b k))))) ∧
      (wOp i = 0x052 → makes (.vseqVsltVsltu w i) anyNeed 0 (compares (fun k => decide (a k < b k))))) ∧
    (immZero i 0 30 = true → (wS1 i).val < 8 → (wS2 i).val < 8 →
      let x := u.m[mReg (wS1 i)]
      let y := u.m[mReg (wS2 i)]
      (wOp i = 0x060 → makes (.mkAndOrXorAndn w i) anyNeed 0 (fun r => r = x &&& y)) ∧
      (wOp i = 0x061 → makes (.mkAndOrXorAndn w i) anyNeed 0 (fun r => r = x ||| y)) ∧
      (wOp i = 0x062 → makes (.mkAndOrXorAndn w i) anyNeed 0 (fun r => r = x ^^^ y)) ∧
      (wOp i = 0x063 → makes (.mkAndOrXorAndn w i) anyNeed 0 (fun r => r = x &&& ~~~y)) ∧
      (wOp i = 0x064 → noS1 i = true → noS2 i = true → makes (.mkSet w i) anyNeed 0 (fun r => r = BitVec.allOnes 2048)))

/-- The Flume instructions that write a g register (R142-R145): the result waits in the window for completion; no vector or mask register
changes. With no active element each reduction gives the value of R144, and with VL = 0 the lane tree sets no flag (R131). -/
def Obligations.FlumeScalarResults : Prop :=
  ∀ (w : WellId) (i : W64) (s : State), ready w s = true → wClass i = 5 → selOk i = true →
    let c := s.cpu w
    let u := s.wells[w].flume
    let n := sewOf c.eff.vtype
    let fm := vFmt c.eff.vtype
    let rm := resolveRm (vRm i) c.eff.frm
    let act (k : Nat) : Bool := decide (k < u.vl.toNat) && admits u i k
    let els : List Nat := ((List.range u.vl.toNat).filter (admits u i)).map (fun k => vElem u.v[wS1 i] n k)
    let gives (ins : Instr) (need : VNeed) (x : W64) (flags : BitVec 6) : Prop :=
      vIssueFault c u need = none →
        ∃ e, exec ins s = .next (s.modWell w (fun y => { y with cpu := retired y.cpu, flume := y.flume.entered e })) ∧
          issuedEntry i s.wells[w] flags (some (c.eff.bank, wDest i, x)) none e
    (wOp i = 0x070 → rmOk (vRm i) = true → bitB i 29 = false → immZero i 0 26 = true →
      let r := laneTree fm rm ((List.range u.vl.toNat).map (fun k => if admits u i k then some (vElem u.v[wS1 i] n k) else none))
        (if wS2 i = 0 then none else some ((c.rd (wS2 i)).toNat % 2 ^ n))
      gives (.vtallyF w i) fpNeed (BitVec.ofNat 64 r.1) (if u.vl = 0 then 0 else r.2)) ∧
    (wOp i = 0x071 → rmOk (vRm i) = true → bitB i 29 = false → noS2 i = true → immZero i 0 26 = true →
      gives (.vtallyFx w i) fpNeed (BitVec.ofNat 64 (fxSum fm rm els).1) (fxSum fm rm els).2) ∧
    (∀ hi : Bool, wOp i = (if hi then 0x072 else 0x073) → noS2 i = true → immZero i 0 30 = true →
      (els = [] → gives (.vtallyFmaxFmin w i) fpNeed (BitVec.ofNat 64 fm.nanBits) 0) ∧
      (∀ x r, els = x :: r →
        let y := r.foldl (fun q z => (minMaxV hi q (readF fm z).1).1) (readF fm x).1
        ∃ fl, gives (.vtallyFmaxFmin w i) fpNeed
          (BitVec.ofNat 64 (packF fm 1 false (match y with | .nan _ => .nan false | v => v)).1) fl)) ∧
    (immZero i 0 30 = true → (wOp i ≠ 0x074 → noS2 i = true) →
      (wOp i = 0x074 → gives (.vtallyInteger w i) anyNeed
        ((if wS2 i = 0 then 0 else c.rd (wS2 i)) + (els.map (fun x => BitVec.ofInt 64 (signedN n x))).sum) 0) ∧
      (wOp i = 0x075 → ∃ m, gives (.vtallyInteger w i) anyNeed (BitVec.ofInt 64 m) 0 ∧
        (els = [] → 0 < n → m = -(2 ^ (n - 1) : Int)) ∧ (els ≠ [] → 0 < n → m ∈ els.map (signedN n) ∧ ∀ x ∈ els, signedN n x ≤ m)) ∧
      (wOp i = 0x076 → ∃ m, gives (.vtallyInteger w i) anyNeed (BitVec.ofInt 64 m) 0 ∧
        (els = [] → 0 < n → m = (2 ^ (n - 1) : Int) - 1) ∧ (els ≠ [] → 0 < n → m ∈ els.map (signedN n) ∧ ∀ x ∈ els, m ≤ signedN n x)) ∧
      (wOp i = 0x077 → gives (.vtallyInteger w i) anyNeed (BitVec.ofNat 64 (els.foldl max 0)) 0) ∧
      (wOp i = 0x078 → gives (.vtallyInteger w i) anyNeed (BitVec.ofNat 64 (els.foldl min (2 ^ n - 1))) 0) ∧
      (wOp i = 0x079 → gives (.vtallyInteger w i) anyNeed (BitVec.ofNat 64 (els.foldl (· &&& ·) (2 ^ n - 1))) 0) ∧
      (wOp i = 0x07A → gives (.vtallyInteger w i) anyNeed (BitVec.ofNat 64 (els.foldl (· ||| ·) 0)) 0)) ∧
    (immZero i 0 30 = true → noS2 i = true → (wS1 i).val < 8 →
      let hit (k : Nat) : Bool := act k && (u.m[mReg (wS1 i)]).getLsbD k
      (wOp i = 0x080 → gives (.mcount w i) anyNeed (BitVec.ofNat 64 ((List.range u.vl.toNat).countP hit)) 0) ∧
      (wOp i = 0x081 →
        ((∀ k, hit k = false) → gives (.mfind w i) anyNeed (~~~0) 0) ∧
        (∀ k, hit k = true → (∀ j < k, hit j = false) → gives (.mfind w i) anyNeed (BitVec.ofNat 64 k) 0))) ∧
    (wOp i = 0x082 → noS2 i = true → immZero i 11 19 = true → vIdx i < vlmax c.eff.vtype →
      gives (.vget w i) anyNeed (BitVec.ofNat 64 (vElem u.v[wS1 i] n (vIdx i))) 0)

/-- The order-free sum of R143 gives one result and one set of flags for its elements in any order. -/
def Obligations.FxSumOrderFree : Prop :=
  ∀ (f : Fmt) (rm : Nat) (xs ys : List Nat), List.Perm xs ys → fxSum f rm xs = fxSum f rm ys

/-- `vpack`, `vins`, `vqmx`, `setvl`, `vwait` (R129, R134, R136): packed elements in order from element 0; one inserted element; one
exponent byte for each block of 32; VL and VTYPE; and a wait that ends at once with nothing issued. -/
def Obligations.FlumeShapeResults : Prop :=
  ∀ (w : WellId) (i : W64) (s : State), ready w s = true →
    let c := s.cpu w
    let u := s.wells[w].flume
    let n := sewOf c.eff.vtype
    let does (ins : Instr) (v : Vector (BitVec 16384) 32) (fl : BitVec 6) : Prop :=
      ∃ e, exec ins s = .next (s.modWell w (fun x => { x with cpu := retired x.cpu, flume := { x.flume with v := v }.entered e })) ∧
        issuedEntry i s.wells[w] fl none none e
    let els : List Nat := ((List.range u.vl.toNat).filter (admits u i)).map (fun k => vElem u.v[wS1 i] n k)
    (wClass i = 6 → wOp i = 0x015 → selOk i = true → maskSel i ≠ 0 → wDest i ≠ wS1 i → noS2 i = true → immZero i 0 30 = true →
      vIssueFault c u anyNeed = none →
      ∃ r, does (.vpack w i) (u.v.set (wDest i) r) 0 ∧
        ∀ k, k < 16384 / n → vElem r n k = if h : k < els.length then els[k] else vElem u.v[wDest i] n k) ∧
    (wClass i = 6 → wOp i = 0x016 → selOk i = true → noS2 i = true → immZero i 11 19 = true → vIdx i < vlmax c.eff.vtype →
      vIssueFault c u anyNeed = none →
      ∃ r, does (.vins w i) (u.v.set (wDest i) r) 0 ∧
        ∀ k, k < 16384 / n → vElem r n k =
          if k = vIdx i ∧ admits u i k = true then (c.rd (wS1 i)).toNat % 2 ^ n else vElem u.v[wDest i] n k) ∧
    (∀ df, wClass i = 5 → wOp i = 0x031 → selOk i = true → vqmxLegal i = true → Fmt.ofCode (vDf i) = some df → vIssueFault c u (vqmxNeed i) = none →
      let live (k : Nat) : Bool := decide (k < u.vl.toNat) && admits u i k
      let val (k : Nat) : FVal := if live k then (readF (vFmt c.eff.vtype) (vElem u.v[wS1 i] n k)).1 else .zero false
      let block (b : Nat) : Byte × List (Nat × BitVec 6) × BitVec 6 :=
        mxQuantise df (resolveRm (vRm i) c.eff.frm) ((List.range 32).map (fun k => val (32 * b + k)))
      ∃ r x fl, does (.vqmx w i) ((u.v.set (wDest i) r).set (vScl i) x) fl ∧
        (∀ k, k < 16384 / df.bits → vElem r df.bits k =
          if live k then ((block (k / 32)).2.1.getD (k % 32) (0, 0)).1 % 2 ^ df.bits else vElem u.v[wDest i] df.bits k) ∧
        (∀ b, b < 2048 → vElem x 8 b = if b < (u.vl.toNat + 31) / 32 then (block b).1.toNat else vElem u.v[vScl i] 8 b)) ∧
    (wClass i = 5 → wOp i = 0x001 → noS2 i = true → noS3 i = true → immZero i 9 21 = true → immZero i 4 4 = true →
      immN i 0 4 ∈ [1, 2, 4, 8] → (bitB i 8 = true → immN i 0 4 < 4) →
      let T : VType := { tset := true, falt := bitB i 8, ebytes := BitVec.ofNat 4 (immN i 0 4) }
      let vl : Nat := if wS1 i = 0 then 2048 / immN i 0 4 else min (c.rd (wS1 i)).toNat (2048 / immN i 0 4)
      exec (.setvl w i) s = .next (s.modWell w (fun x => { x with
        flume := { x.flume with vl := BitVec.ofNat 12 vl }
        cpu := retired (let y := x.cpu.wr_ (wDest i) (BitVec.ofNat 64 vl)
          if y.wr.vtype = T then y else { y with wr := { y.wr with vtype := T }, modeWins := [{ val := .vtype T, left := 3 }] }) }))) ∧
    (wClass i = 6 → wOp i = 0x020 → noDest i = true → noS1 i = true → noS2 i = true → noS3 i = true → immZero i 0 30 = true →
      vIssueFault c u anyNeed = none → exec (.vwait w i) s = .next (s.modCpu w retired))

/-- The elements that a Flume memory instruction accesses: the active ones from VSTART. -/
def flumeActive (m : VMem) (i : W64) (f : Flume) : List Nat :=
  (List.range (m.count f)).filter (fun k => decide (f.vstart.toNat ≤ k) && (m.kind == .mask || admits f i k))

/-- The rows, words and shapes of the Flume memory instructions (R134, R148). -/
def flumeMemForm (w : WellId) (i : W64) (ins : Instr) (m : VMem) : Prop :=
  (1 ≤ wOp i ∧ wOp i ≤ 3 ∧ vMemLegal false i = true ∧ (wOp i = 1 → noS2 i = true) ∧ ins = .vldVldsVldx w i ∧
    m = { kind := if wOp i = 1 then .unit else if wOp i = 2 then .strided else .indexed, store := false, tag := immN i 28 2 }) ∨
  (4 ≤ wOp i ∧ wOp i ≤ 6 ∧ vMemLegal true i = true ∧ (wOp i = 4 → noS2 i = true) ∧ ins = .vstVstsVstx w i ∧
    m = { kind := if wOp i = 4 then .unit else if wOp i = 5 then .strided else .indexed, store := true, tag := immN i 28 2 }) ∨
  (wOp i = 8 ∧ mMemLegal false i = true ∧ ins = .mld w i ∧ m = { kind := .mask, store := false, tag := immN i 28 2 }) ∨
  (wOp i = 9 ∧ mMemLegal true i = true ∧ ins = .mst w i ∧ m = { kind := .mask, store := true, tag := immN i 28 2 })

/-- Flume loads and stores (R134, R147-R149, R151, R154): when every active element from VSTART passes its check, a load writes those
elements from memory and a store writes their bytes in order; VSTART becomes 0 and the instruction holds its span. A producing store
leaves the slots it wrote full, a consuming load leaves the slots it read empty, and every other tag is unchanged. An instruction with
VSTART at or above its count only clears VSTART.
A failed check stops a Flume memory instruction (R147, R154): where the first active element fails, the fault code of that check is
taken with the element's address, VSTART is its index, and no register, byte or tag of the access changes. VTYPE.EBYTES is one of the four
values that R126 allows.
An interrupt that is due stops an indexed access between its checks (R154), after a group of four elements of which all passed, where
there are further ones: VSTART is the next group's first element and the instruction waits (log 187: after which group is the model's
choice). -/
def Obligations.FlumeMemoryAccesses : Prop :=
  (
    ∀ (w : WellId) (i : W64) (s : State) (ins : Instr) (m : VMem), ready w s = true → s.MemOk → wClass i = 6 → flumeMemForm w i ins m →
      (s.cpu w).storeBuf = [] → s.wells[w].st.pend = false →
      vIssueFault (s.cpu w) s.wells[w].flume { fp := false, mem := true, ok := fun _ => true } = none →
      let x := s.wells[w]
      let c := x.cpu
      let u := x.flume
      let z := m.size c
      let ks := flumeActive m i u
      let at_ (k : Nat) : Nat := wellAddr w (m.addr i c u k)
      let slots := ks.flatMap (vSlots m i x)
      (m.count u ≤ u.vstart.toNat →
        ∃ e, issuedEntry i x 0 none none e ∧
          exec ins s = .next (s.modWell w (fun y => { y with cpu := retired y.cpu, flume := { y.flume with vstart := 0 }.entered e }))) ∧
      (u.vstart.toNat < m.count u → (m.kind = .indexed → interruptDue c = false) → entriesFree s w (vSpan m i x ks).toList = true → (∀ k ∈ ks, vCheck m i x k = none) →
        (∀ us, m.use x.st = some us → ∀ sl ∈ slots, tagReady x.st .flume us sl = true) →
        (∀ k ∈ ks, m.store = false → ueHit s.ue (at_ k) z = false) →
        ∃ t e, exec ins s = .next t ∧ t.cpu w = retired c ∧ t.wells[w].flume.vstart = 0 ∧ t.wells[w].flume.vl = u.vl ∧
          t.wells[w].flume.window = [e] ∧ issuedEntry i x 0 none (vSpan m i x ks) e ∧
          (∀ r : Fin 32, (r = wDest i → m.store = true ∨ m.kind = .mask) → t.wells[w].flume.v[r] = u.v[r]) ∧
          (∀ r : Fin 8, (r = mReg (wDest i) → m.store = true ∨ m.kind ≠ .mask) → t.wells[w].flume.m[r] = u.m[r]) ∧
          (m.store = false → m.kind ≠ .mask → ∀ k, k < 16384 / (8 * z) →
            vElem t.wells[w].flume.v[wDest i] (8 * z) k =
              if k ∈ ks then ofBytes (s.readBytes (at_ k) z) else vElem u.v[wDest i] (8 * z) k) ∧
          (m.store = false → m.kind = .mask → ∀ b, b < 2048 →
            (t.wells[w].flume.m[mReg (wDest i)]).getLsbD b =
              if b / 8 ∈ ks then (s.byteAt (at_ (b / 8))).getLsbD (b % 8) else (u.m[mReg (wDest i)]).getLsbD b) ∧
          (∀ a, (m.store = true → ∀ k ∈ ks, a < at_ k ∨ at_ k + z ≤ a) → t.byteAt a = s.byteAt a) ∧
          (m.store = true → ∀ k ∈ ks, ∀ j, j < z → (∀ k' ∈ ks, k < k' → at_ k + j < at_ k' ∨ at_ k' + z ≤ at_ k + j) →
            t.byteAt (at_ k + j) =
              if m.kind = .mask then (u.m[mReg (wDest i)]).extractLsb' (8 * k) 8
              else BitVec.ofNat 8 (vElem u.v[wDest i] (8 * z) k / 2 ^ (8 * j))) ∧
          (∀ sl : SlotId, t.wells[w].st.full sl =
            if sl ∈ slots ∧ m.use x.st = some .produce then true
            else if sl ∈ slots ∧ m.use x.st = some .consume then false
            else x.st.full sl))) ∧
  (
    ∀ (w : WellId) (i : W64) (s : State) (ins : Instr) (m : VMem) (k : Nat) (r : List Nat) (code : BitVec 8), ready w s = true → wClass i = 6 →
      flumeMemForm w i ins m → s.wells[w].st.pend = false →
      vIssueFault (s.cpu w) s.wells[w].flume { fp := false, mem := true, ok := fun _ => true } = none →
      let x := s.wells[w]
      flumeActive m i x.flume = k :: r → vCheck m i x k = some code → m.use x.st = none → x.flume.vstart.toNat < m.count x.flume →
      entriesFree s w (vSpan m i x (k :: r)).toList = true → x.cpu.eff.vtype.ebytes.toNat ∈ [1, 2, 4, 8] →
        (m.kind = .indexed → interruptDue x.cpu = false) →
        exec ins s = .next (takeException w code (BitVec.ofNat 64 (m.addr i x.cpu x.flume k))
          ((s.modFlume w (fun f => { f with vstart := BitVec.ofNat 11 k })).modSt w (fun t => t.releaseAll .flume)))) ∧
  (
    ∀ (w : WellId) (i : W64) (s : State) (ins : Instr) (m : VMem), ready w s = true → wClass i = 6 → flumeMemForm w i ins m →
      s.wells[w].st.pend = false → vIssueFault (s.cpu w) s.wells[w].flume { fp := false, mem := true, ok := fun _ => true } = none →
      let x := s.wells[w]
      let ks := flumeActive m i x.flume
      let next := 4 * (x.flume.vstart.toNat / 4 + 1)
      m.kind = .indexed → interruptDue x.cpu = true → m.use x.st = none → x.flume.vstart.toNat < m.count x.flume →
      entriesFree s w (vSpan m i x ks).toList = true → (∃ k ∈ ks, next ≤ k) → (∀ k ∈ ks, k < next → vCheck m i x k = none) →
        ∃ t, exec ins s = .next t ∧ t.wells[w].flume.vstart = BitVec.ofNat 11 next ∧ t.wells[w].flume.window = [] ∧
          (t.cpu w).pc = x.cpu.pc ∧
          ((∀ k ∈ ks, k < next → ueHit s.ue (wellAddr w (m.addr i x.cpu x.flume k)) (m.size x.cpu) = false) →
            (t.cpu w).stall = some .flumeCheck ∧ (t.cpu w).deferred = []))

/-- FLUME_COMPLETION (R139, R141, R156): an instruction waits for an earlier one of its unit, for one that writes a register it writes, and
for one whose result it needs whole or works through to the same length. Else it leaves the window; without an error its flags are ORed
into FFLAGS and its g result is written; with one the Flume stops, the flags are discarded and the fault is due. -/
def Obligations.FlumeCompletes : Prop :=
  ∀ (w : WellId) (k : Fin 8) (s : State) (e : FlumeEntry), s.wells[w].flume.window[k.val]? = some e →
    let before (x : FlumeEntry) : Prop := x.unit = e.unit ∨ (∃ r ∈ x.writes, r ∈ e.writes) ∨
      ((∃ r ∈ x.writes, r ∈ e.reads) ∧ (e.whole = true ∨ x.bytes ≤ e.bytes))
    ((∃ x ∈ s.wells[w].flume.window.take k.val, before x) → exec (.flumeCompletion w k) s = .next s) ∧
    ((∀ x ∈ s.wells[w].flume.window.take k.val, ¬ before x) → ∃ t, exec (.flumeCompletion w k) s = .next t ∧ t.wells[w].flume.window = s.wells[w].flume.window.eraseIdx k.val ∧
      t.wells[w].flume.v = s.wells[w].flume.v ∧ t.wells[w].flume.m = s.wells[w].flume.m ∧ t.mem = s.mem ∧
      (e.err = none → t.wells[w].flume.stopped = s.wells[w].flume.stopped ∧ (t.cpu w).flags = (s.cpu w).flags ||| e.flags ∧
        (∀ b n v, e.gdest = some (b, n, v) → (n ≠ 0 → (t.cpu w).gGet b n = v) ∧ ∀ m, m ≠ n → (t.cpu w).gGet b m = (s.cpu w).gGet b m) ∧
        (e.gdest = none → t.cpu w = { s.cpu w with flags := (s.cpu w).flags ||| e.flags })) ∧
      (∀ x, e.err = some x → t.wells[w].flume.stopped = some (x.1, e.addr.setWidth 64) ∧ t.wells[w].flume.stopDetail = x.2 ∧
        t.cpu w = { s.cpu w with deferred := (s.cpu w).deferred ++ [{ code := x.1, info := e.addr.setWidth 64 }] }))

/-- The queued Millrace instructions (R95, R97, R98, R112, R116): with no at-issue fault and nothing to wait for, the instruction enters the
queue with its operands, address, rounding mode and counter as they stand; an at-issue fault is taken with nothing queued. -/
def Obligations.MillraceQueues : Prop :=
  ∀ (w : WellId) (i : W64) (s : State), ready w s = true → wClass i = 7 → (s.cpu w).storeBuf = [] → s.wells[w].st.pend = false →
    s.wells[w].mr.queue.length < 8 → bitB i 49 = false →
    let c := s.cpu w
    let m := s.wells[w].mr
    let queues (ins : Instr) (a b d : W64) (rm : Nat) : Prop :=
      let e : MrEntry := { word := i, s1 := a, s2 := b, s3 := d, addr := c.pc, rm := BitVec.ofNat 3 rm, pass := 0,
                           ctr := m.trigBase + BitVec.ofNat 12 (fieldN i 11 12), flags := 0,
                           fseq := s.wells[w].flume.issued }
      (mrIssueFault m s.wells[w].st i a b d = none → entriesFree s w (mrSpans (modeAfter m (mrTile i)) i a b d) = true →
        ∃ t, exec ins s = .next t ∧ t.cpu w = retired c ∧ t.wells[w].mr = { m with queue := m.queue ++ [e] } ∧
          t.wells[w].flume = s.wells[w].flume ∧ t.wells[w].st.tags = s.wells[w].st.tags ∧ t.mem = s.mem) ∧
      (∀ code, mrIssueFault m s.wells[w].st i a b d = some code → exec ins s = .next (takeException w code (c.pc.setWidth 64) s))
    let a := c.rd (wS1 i)
    (wOp i = 1 → noS2 i = true → noS3 i = true → immZero i 0 20 = true → queues (.mclr w i) a 0 0 0) ∧
    (wOp i = 2 → immZero i 8 3 = true → queues (.mmac w i) a (c.rd (wS2 i)) (c.rd (wS3 i)) 0) ∧
    (wOp i = 3 → noS2 i = true → noS3 i = true → immZero i 0 4 = true → immN i 24 3 ≤ 4 →
      queues (.mfin w i) a 0 0 (resolveRm (immN i 24 3) c.eff.frm)) ∧
    (wOp i = 4 → noS1 i = true → noS2 i = true → noS3 i = true → immZero i 24 6 = true → immZero i 4 7 = true →
      queues (.mcomb w i) 0 0 0 0) ∧
    (noS2 i = true → noS3 i = true → immZero i 0 30 = true →
      (wOp i = 6 → queues (.mtsave w i) a 0 0 0) ∧ (wOp i = 7 → queues (.mtload w i) a 0 0 0))

/-- The Millrace instructions that are not queued (R95, R103, R105, R119, R120): `mstat` reads a word, and for MR_QPC with no head
entry a free value of the model's (the spec states none; log 2); `mfence` ends when the queue is empty
or frozen; `mhalt` freezes a queue that is not empty, and waits while a pass or an `mfin` is under way; `mresume` unfreezes it; `mdrop`
empties it; `mqsave` writes its image and `mqload` replaces it with one and leaves it frozen. In rings 2 and 3 the last five take the privileged-instruction fault. -/
def Obligations.MillraceControl : Prop :=
  ∀ (w : WellId) (i : W64) (s : State), ready w s = true → wClass i = 7 →
    let c := s.cpu w
    let m := s.wells[w].mr
    let mrGives (m' : Millrace) : Out := .next (s.modWell w (fun u => { u with cpu := retired u.cpu, mr := m' }))
    (∀ v : W64, wOp i = 5 → noS1 i = true → noS2 i = true → noS3 i = true → immZero i 8 22 = true →
      (immN i 4 4 < 8 ∧ v = (if upperHalf m (immN i 0 4) then 0 else headerWord (m.tiles.getD (immN i 0 4) Tile.reset) (tileBusy m (immN i 0 4)) (immN i 4 4)) ∨
        immN i 4 4 = 0xE ∧ v = progressWord m ∨ immN i 4 4 = 0xF ∧ m.queue ≠ [] ∧ v = qpcWord m) →
      exec (.mstat w i) s = .next (s.modCpu w (fun c => retired (c.wr_ (wDest i) v)))) ∧
    (wOp i = 5 → noS1 i = true → noS2 i = true → noS3 i = true → immZero i 8 22 = true → immN i 4 4 = 0xF → m.queue = [] →
      exec (.mstat w i) s = .next ({ s with free := s.free + 1 }.modCpu w (fun c => retired (c.wr_ (wDest i) (Config.freeWord s.free))))) ∧
    (wOp i = 5 → 8 ≤ immN i 4 4 → immN i 4 4 < 0xE → exec (.mstat w i) s = .next (takeException w 0x01 i s)) ∧
    (noDest i = true → noS1 i = true → noS2 i = true → noS3 i = true → immZero i 0 30 = true →
      (wOp i = 8 →
        (m.queue = [] ∨ m.frozen = true → exec (.mfence w i) s = .next (s.modCpu w retired)) ∧
        (m.queue ≠ [] → m.frozen = false → exec (.mfence w i) s = .next (s.modCpu w (fun c => { c with stall := some .mfence })))) ∧
      (c.eff.ring.toNat ≤ 1 →
        (wOp i = 0x10 →
          (m.queue = [] ∨ m.frozen = true → exec (.mhalt w i) s = mrGives { m with haltReq := false }) ∧
          (m.queue ≠ [] → m.frozen = false → m.inPass = false → exec (.mhalt w i) s = mrGives
            { m with frozen := true, reason := .halted, fcode := 0, loaded := [], ahead := [], haltReq := false }) ∧
          (m.queue ≠ [] → m.frozen = false → m.inPass = true → exec (.mhalt w i) s = .next (s.modWell w (fun u =>
            { u with cpu := { u.cpu with stall := some .mhalt }, mr := { m with haltReq := true } })))) ∧
        (wOp i = 0x11 → exec (.mresume w i) s = mrGives { m with frozen := false, reason := .none, fcode := 0 }) ∧
        (wOp i = 0x12 → ∃ t, exec (.mdrop w i) s = .next t ∧
          t.wells[w].mr.queue = [] ∧ t.wells[w].mr.frozen = false ∧ t.wells[w].mr.reason = .none ∧ t.wells[w].mr.haltReq = false ∧
          (m.loaded = [] → t.mem = s.mem ∧ t.wells[w].mr = { m with
            queue := [], frozen := false, reason := .none, fcode := 0, ahead := [], inPass := false, finDone := 0, haltReq := false }) ∧
          (t.cpu w).gN = c.gN ∧ (t.cpu w).pc = c.pc + 8 ∧
          (t.cpu w).exc.ipend = if m.queue = [] then c.exc.ipend else c.exc.ipend ||| 512)) ∧
      (2 ≤ c.eff.ring.toNat →
        (wOp i = 0x10 → exec (.mhalt w i) s = .next (takeException w 0x02 i s)) ∧
        (wOp i = 0x11 → exec (.mresume w i) s = .next (takeException w 0x02 i s)) ∧
        (wOp i = 0x12 → exec (.mdrop w i) s = .next (takeException w 0x02 i s)))) ∧
    (noDest i = true → noS2 i = true → noS3 i = true → immZero i 0 30 = true →
      let v := c.rd (wS1 i)
      (2 ≤ c.eff.ring.toNat →
        (wOp i = 0x13 → exec (.mqsave w i) s = .next (takeException w 0x02 i s)) ∧
        (wOp i = 0x14 → exec (.mqload w i) s = .next (takeException w 0x02 i s))) ∧
      (c.eff.ring.toNat ≤ 1 → c.storeBuf = [] → s.MemOk →
        (wOp i = 0x13 → m.queue.length ≤ 8 → resD v = false → fieldN v 0 24 % 64 = 0 → fieldN v 0 24 + 512 ≤ 0x700000 →
          banksOpen s.wells[w].st (fieldN v 0 24) 512 = true → hitsBusy m (fieldN v 0 24) 512 = false →
          rangeHeld s w (mkSpan (fieldN v 0 24) 512 true) = false →
          ∃ t, exec (.mqsave w i) s = .next t ∧ t.cpu w = retired c ∧ t.wells[w].mr = m ∧
            (∀ j, j < 64 → t.readWord (wellAddr w (fieldN v 0 24 + 8 * j)) = (queueImage m.queue).getD j 0) ∧
            (∀ a, a < wellAddr w (fieldN v 0 24) ∨ wellAddr w (fieldN v 0 24 + 512) ≤ a → t.byteAt a = s.byteAt a)) ∧
        (∀ q, wOp i = 0x14 → resS v = false → fieldN v 0 21 % 64 = 0 → 0x300000 + fieldN v 0 21 + 512 ≤ 0x500000 →
          banksOpen s.wells[w].st (0x300000 + fieldN v 0 21) 512 = true → (m.queue = [] ∨ m.frozen = true) →
          ueHit s.ue (wellAddr w (0x300000 + fieldN v 0 21)) 512 = false →
          rangeHeld s w (mkSpan (0x300000 + fieldN v 0 21) 512 false) = false →
          queueOfImage s.wells[w].flume.issued (s.readWords (wellAddr w (0x300000 + fieldN v 0 21)) 64) = some q →
          ∃ t, exec (.mqload w i) s = .next t ∧ t.cpu w = retired c ∧
            t.wells[w].mr = { m with queue := q, frozen := true, reason := .halted, fcode := 0, loaded := [], ahead := [],
                                     inPass := false, finDone := 0, haltReq := false } ∧ t.mem = s.mem)))

/-- A saved queue image loads as the queue it was saved from (R121), for a queue of at most eight entries whose words are queued Millrace
instructions and whose fields fit the image.
A saved sideband image loads as the tile it was saved from (R104, R108-R110), whatever BUSY was, for a tile with a mode of R96 whose
planes are zero in an integer mode. -/
def Obligations.SavedImagesRoundTrip : Prop :=
  (
    ∀ (n : Nat) (q : List MrEntry), q.length ≤ 8 →
      (∀ e ∈ q, wClass e.word = 7 ∧ wOp e.word ∈ [1, 2, 3, 4, 6, 7] ∧ bitB e.word 49 = false ∧ e.addr.toNat % 8 = 0 ∧ e.rm.toNat ≤ 4 ∧
        e.flags = 0 ∧ e.fseq = n) → queueOfImage n (queueImage q) = some q) ∧
  (
    ∀ (t : Tile) (busy : Bool), t.mode.toNat < 12 → (floatMode t.mode.toNat = false → t.nan = 0 ∧ t.posInf = 0 ∧ t.negInf = 0) →
      tileOfImage ((List.range 512).map (sidebandWord t busy)) = some t)

/-- The head instruction has left the queue (R100-R105, R119, R122, R226): its flags are in FFLAGS, its trigger increment is on its way,
MR_IDLE asserts where the queue became empty, and a stop request freezes what is left. -/
def headLeaves (w : WellId) (e : MrEntry) (fl : BitVec 6) (s t : State) : Prop :=
  t.wells[w].mr.queue = s.wells[w].mr.queue.tail ∧
    t.wells[w].mr.frozen = (s.wells[w].mr.frozen || (s.wells[w].mr.haltReq && !s.wells[w].mr.queue.tail.isEmpty)) ∧
    (t.cpu w).flags = (s.cpu w).flags ||| fl ∧ (t.cpu w).pc = (s.cpu w).pc ∧ (t.cpu w).gN = (s.cpu w).gN ∧
    t.inflight = s.inflight ++ (if mrOp e.word ∈ [2, 3, 4] ∧ bitB e.word 23 = true then [.inc (.well w) e.ctr 1] else []) ∧
    (t.cpu w).exc.ipend = if s.wells[w].mr.queue.tail = [] then (s.cpu w).exc.ipend ||| 512 else (s.cpu w).exc.ipend

/-- MMAC_PASS (R73, R84, R91, R100, R107): a pass of the head `mmac` with its tile fit to run, its slots full or in scoreboard mode, and no
error. TPANELS counts its panels and the tile is ACTIVE; the last pass completes the instruction, an earlier one steps the pass. In an
integer mode under SAT every element of the rows takes its sum clamped to INT32. No memory but the tile's units changes, and no other tile.
MMAC_PASS in a floating mode (R60, R63, R64, R68, R89): in a tile whose anchor no top of the pass exceeds, every element takes the sum
of its panel sums, each shifted to the anchor and truncated toward zero, modulo 2^256, and its special bits are the OR of what its
panels meet. -/
def Obligations.MmacPasses : Prop :=
  (
    ∀ (w : WellId) (s : State) (e : MrEntry) (q : List MrEntry), s.MemOk → s.wells[w].mr.queue = e :: q → s.wells[w].mr.frozen = false →
      mrOp e.word = 2 → tileFault s.wells[w] e = none →
      passClear w e s →
      let mode := mrMode e.word
      let n := (opA mode e.s1).rows
      let a := mrTile e.word
      let x := s.wells[w].mr.tiles[Fin.ofNat 16 a]
      let d := ofBytes (passImage w e e.pass.toNat s)
      n ≤ tileHeight mode →
      ∃ t, exec (.mmacPass w none) s = .next t ∧
        (let y := t.wells[w].mr.tiles[Fin.ofNat 16 a]
        y.st = .active ∧ y.mode = x.mode ∧ y.tpanels = x.tpanels + BitVec.ofNat 34 (panelsPerPass mode) ∧
        (∀ k : Fin 16, k ≠ Fin.ofNat 16 a → t.wells[w].mr.tiles[k] = s.wells[w].mr.tiles[k]) ∧
        (e.pass.toNat + 1 = npassOf e.word → ∃ fl, fl &&& 0x1E = e.flags &&& 0x1E ∧ headLeaves w e fl s t) ∧
        (e.pass.toNat + 1 ≠ npassOf e.word →
          ∃ fl, t.wells[w].mr.queue = { e with pass := e.pass + 1, flags := fl } :: q ∧ (t.cpu w).flags = (s.cpu w).flags) ∧
        (∀ b, b < wellAddr w (0x500000 + a * 0x20000) ∨ wellAddr w (0x500000 + (a + (tileUnits mode a).length) * 0x20000) ≤ b →
          t.byteAt b = s.byteAt b) ∧
        (mode < 2 → x.ovfm = false → ∀ r, r < 256 → ∀ c, c < 128 →
          readAcc w y a r c t =
            if r < n then clampI32 (readAcc w x a r c s +
              (((passRow e d r).map (fun v => rneShift (signedN (mrFmt mode false).bits v) x.sc.toNat)).zip
                ((passCol e d c).map (fun v => signedN (mrFmt mode false).bits v))).foldl (fun z p => z + p.1 * p.2) 0)
            else readAcc w x a r c s))) ∧
  (
    ∀ (w : WellId) (s : State) (e : MrEntry) (q : List MrEntry), s.MemOk → s.wells[w].mr.queue = e :: q → s.wells[w].mr.frozen = false →
      mrOp e.word = 2 → tileFault s.wells[w] e = none → passClear w e s →
      let mode := mrMode e.word
      let n := (opA mode e.s1).rows
      let a := mrTile e.word
      let x := s.wells[w].mr.tiles[Fin.ofNat 16 a]
      let d := loadPass e (ofBytes (passImage w e e.pass.toNat s)) n
      let panelsOf (r c : Nat) : List (PanelData × PanelData) := (d.a.getD r []).zip (d.b.getD c [])
      2 ≤ mode → n ≤ 64 → x.anchored = true →
      (∀ r, r < n → ∀ c, c < 128 → ∀ p ∈ panelsOf r c, ∀ v, panelSum mode p.1 p.2 = some v → v.2.2 ≤ x.anchor.toInt + 222) →
      ∃ t, exec (.mmacPass w none) s = .next t ∧
        (let y := t.wells[w].mr.tiles[Fin.ofNat 16 a]
        y.anchor = x.anchor ∧
        ∀ r, r < n → ∀ c, c < 128 →
          readAcc w y a r c t = signedN 256 (wrapN 256 (readAcc w x a r c s +
            ((panelsOf r c).map (fun p => match panelSum mode p.1 p.2 with
              | none => 0
              | some v => if x.anchor.toInt ≤ v.2.1 then v.1 * ((2 ^ (v.2.1 - x.anchor.toInt).toNat : Nat) : Int)
                  else truncShift v.1 (x.anchor.toInt - v.2.1).toNat)).sum)) ∧
          y.nan.getLsbD (128 * r + c) = (x.nan.getLsbD (128 * r + c) || (panelsOf r c).any (fun p => (panelSpecial p.1 p.2).1)) ∧
          y.posInf.getLsbD (128 * r + c) = (x.posInf.getLsbD (128 * r + c) || (panelsOf r c).any (fun p => (panelSpecial p.1 p.2).2.1)) ∧
          y.negInf.getLsbD (128 * r + c) = (x.negInf.getLsbD (128 * r + c) || (panelsOf r c).any (fun p => (panelSpecial p.1 p.2).2.2))))

/-- MR_INSTRUCTION_START (R91, R99, R101, R102, R104): what each queued instruction other than `mmac` does at the head of the queue. `mclr`
sets its tile EMPTY with nothing else set but its mode and preset; `mfin` writes each element of its rows; `mcomb` adds the source tile;
`mtsave` writes the sideband image and `mtload` takes one. A tile in the wrong state freezes the queue with MR_TILE or MR_PANEL_LIMIT due.
TILE_SIDEBAND_WRITE (R110): a write to a special-bit plane of a floating tile that is not BUSY sets the 64 element bits of its word; a
write to the header, to the reserved bytes, to an integer tile or to a BUSY tile changes nothing. -/
def Obligations.MillraceStartsAndSidebandWrites : Prop :=
  (
    ∀ (w : WellId) (s : State) (e : MrEntry) (q : List MrEntry), s.MemOk → s.wells[w].mr.queue = e :: q → s.wells[w].mr.frozen = false →
      s.wells[w].flume.window = [] →
      let m := s.wells[w].mr
      let a := mrTile e.word
      let x := m.tiles[Fin.ofNat 16 a]
      let starts (P : State → Prop) : Prop := ∃ t, exec (.mrInstructionStart w) s = .next t ∧ P t
      let tileIs (t : State) (y : Tile) : Prop := t.wells[w].mr.tiles = m.tiles.set (Fin.ofNat 16 a) y
      (∀ code, tileFault s.wells[w] e = some code → mrOp e.word ≠ 2 → starts (fun t =>
        t.wells[w].mr = { m with frozen := true, reason := .fault, fcode := code, loaded := [], ahead := [], inPass := false, finDone := 0,
                                 haltReq := false } ∧ t.mem = s.mem ∧
          t.cpu w = { s.cpu w with deferred := (s.cpu w).deferred ++ [{ code := code, info := e.addr.setWidth 64 }] })) ∧
      (tileFault s.wells[w] e = none →
        (mrOp e.word = 1 → starts (fun t => headLeaves w e 0 s t ∧ t.mem = s.mem ∧
          tileIs t { Tile.reset with
            st := .empty, mode := e.word.extractLsb' 26 4, ea := bitB e.word 25, eb := bitB e.word 24, ovfm := bitB e.word 23,
            preset := bitB e.word 22, anchored := bitB e.word 22,
            anchor := if bitB e.word 22 then BitVec.ofInt 16 (lattice ((e.s1.extractLsb' 0 16).toInt + 7)) else 0,
            pbound := if bitB e.word 22 then e.s1.extractLsb' 0 16 else 0 })) ∧
        (mrOp e.word = 3 →
          let g := opA x.mode.toNat e.s1
          let z := (dfmtOf e.word).bits / 8
          let at_ (r c : Nat) : Nat := wellAddr w (fieldN e.s1 0 24 + r * g.stride + c * z)
          128 * z ≤ g.stride → m.finDone = 0 → tileSound w a s → g.rows ≤ tileHeight x.mode.toNat →
          (∀ r, r < g.rows → fieldN e.s1 0 24 + r * g.stride + 128 * z ≤ 0x700000) →
          (s.wells[w].st.scoreboard = true ∨
            ∀ r, r < g.rows → ∀ k ∈ slotsOf (fieldN e.s1 0 24 + r * g.stride) (128 * z), tagReady s.wells[w].st .millrace .produce k = true) →
          starts (fun t => (∃ fl, headLeaves w e fl s t) ∧
            (∀ r, r < g.rows → ∀ c, c < 128 → t.readBytes (at_ r c) z = toBytes z (finishElem w e a x s (r, c)).1) ∧
            (∀ b, (∀ r, r < g.rows → b < at_ r 0 ∨ at_ r 0 + 128 * z ≤ b) → t.byteAt b = s.byteAt b) ∧
            (s.wells[w].st.scoreboard = false →
              ∀ r, r < g.rows → ∀ k ∈ slotsOf (fieldN e.s1 0 24 + r * g.stride) (128 * z), t.wells[w].st.full k = true))) ∧
        (mrOp e.word = 4 →
          let n := fieldN e.word 0 4
          let y := m.tiles[Fin.ofNat 16 n]
          (y.st = .empty → starts (fun t => headLeaves w e 0 s t ∧ t.mem = s.mem ∧ t.wells[w].mr.tiles = m.tiles)) ∧
          (y.st = .active → tileSound w a s → tileSound w n s → floatMode x.mode.toNat = false → x.ovfm = false →
            let sc := max x.sc.toNat y.sc.toNat
            starts (fun t => headLeaves w e 0 s t ∧ t.wells[w].mr.tiles[Fin.ofNat 16 a].sc.toNat = sc ∧
              ∀ r, r < 256 → ∀ c, c < 128 → readAcc w t.wells[w].mr.tiles[Fin.ofNat 16 a] a r c t =
                clampI32 (rneShift (readAcc w x a r c s) (sc - x.sc.toNat) + rneShift (readAcc w y n r c s) (sc - y.sc.toNat)))) ∧
          (y.st = .active → tileSound w a s → tileSound w n s → floatMode x.mode.toNat = true → x.anchored = true → y.anchored = true → x.st = .active →
            a % 2 = 0 → n % 2 = 0 →
            let g := max x.anchor.toInt y.anchor.toInt
            starts (fun t => headLeaves w e 0 s t ∧ t.wells[w].mr.tiles[Fin.ofNat 16 a].anchor = BitVec.ofInt 16 g ∧
              t.wells[w].mr.tiles[Fin.ofNat 16 a].nan = x.nan ||| y.nan ∧
              t.wells[w].mr.tiles[Fin.ofNat 16 a].tpanels = x.tpanels + y.tpanels ∧
              ∀ r, r < 64 → ∀ c, c < 128 → readAcc w t.wells[w].mr.tiles[Fin.ofNat 16 a] a r c t =
                signedN 256 (wrapN 256 (truncShift (readAcc w x a r c s) (g - x.anchor.toInt).toNat +
                  truncShift (readAcc w y n r c s) (g - y.anchor.toInt).toNat))))) ∧
        (mrOp e.word = 6 → starts (fun t => headLeaves w e 0 s t ∧ t.wells[w].mr.tiles = m.tiles ∧
          (∀ k, k < 512 → t.readWord (wellAddr w (fieldN e.s1 0 24 + 8 * k)) = if upperHalf m a then 0 else sidebandWord x true k) ∧
          (∀ b, b < wellAddr w (fieldN e.s1 0 24) ∨ wellAddr w (fieldN e.s1 0 24 + 4096) ≤ b → t.byteAt b = s.byteAt b))) ∧
        (∀ y, mrOp e.word = 7 → ueHit s.ue (wellAddr w (0x300000 + fieldN e.s1 0 21)) 4096 = false →
          tileOfImage (s.readWords (wellAddr w (0x300000 + fieldN e.s1 0 21)) 512) = some y → y.st ≠ .uninit →
          (floatMode y.mode.toNat = true → a % 2 = 0) →
          starts (fun t => headLeaves w e 0 s t ∧ t.mem = s.mem ∧ tileIs t y)))) ∧
  (
    ∀ (w : WellId) (off : BitVec 24) (v : W64) (s : State), 0xF08000 ≤ off.toNat → off.toNat < 0xF18000 →
      let n := (off.toNat - 0xF08000) / 0x1000
      let k := off.toNat % 0x1000 / 8
      let m := s.wells[w].mr
      let x := m.tiles.getD n Tile.reset
      let takes : Prop := x.st ≠ .uninit ∧ floatMode x.mode.toNat = true ∧ tileBusy m n = false ∧ n % 2 = 0
      let plane (old new : BitVec 8192) (j : Nat) : Prop :=
        ∀ b, b < 8192 → new.getLsbD b = if 64 * j ≤ b ∧ b < 64 * j + 64 then v.getLsbD (b - 64 * j) else old.getLsbD b
      (¬ takes ∨ k < 8 ∨ 392 ≤ k → exec (.tileSidebandWrite w off v) s = .next s) ∧
      (takes → 8 ≤ k → k < 392 → ∃ p, exec (.tileSidebandWrite w off v) s = .next (modTile w n
          (fun t => if k < 136 then { t with nan := p } else if k < 264 then { t with posInf := p } else { t with negInf := p }) s) ∧
        (k < 136 → plane x.nan p (k - 8)) ∧ (136 ≤ k → k < 264 → plane x.posInf p (k - 136)) ∧
        (264 ≤ k → plane x.negInf p (k - 264))))

/-- The tag instructions (R242-R244, R246): on a range of OPEN banks in tag service each sets, waits for, consumes or reads the tags of its
slots and changes no other tag; in scoreboard mode it changes no tag and completes when no entry overlaps the range; a range that R243
refuses takes TAG_RANGE with its offset in EINFO. While a change to tag service is held, each of them waits (R250). -/
def Obligations.TagInstructions : Prop :=
  ∀ (w : WellId) (i : W64) (s : State), ready w s = true → wClass i = 8 → (s.cpu w).storeBuf = [] → noS3 i = true → immZero i 0 30 = true →
    let c := s.cpu w
    let st := s.wells[w].st
    let a := (c.rd (wS1 i)).toNat
    let n := (c.rd (wS2 i)).toNat
    let ks := slotsOf a n
    let good (ks : List SlotId) : Prop := ∀ k ∈ ks, bankOpenAt st (k.val * 512) = true ∧ ∀ g ∈ st.tagBad, g.1.val ≠ k.val / 64
    let leaves (ins : Instr) (f : SlotId → Bool) : Prop :=
      ∃ t, exec ins s = .next t ∧ t.cpu w = retired c ∧ t.mem = s.mem ∧ t.wells[w].flume = s.wells[w].flume ∧ ∀ k, t.wells[w].st.full k = f k
    let waits (ins : Instr) : Prop := exec ins s = .next (s.modCpu w (fun c => { c with stall := some .tagWait }))
    let passes (ins : Instr) : Prop := exec ins s = .next (s.modCpu w retired)
    let held (ins : Instr) : Prop := exec ins s = .next (s.modCpu w (fun c => { c with stall := some .wsModePend }))
    (st.pend = true →
      (noDest i = true → (wOp i = 0x040 → held (.tagFill w i)) ∧ (wOp i = 0x041 → held (.tagEmpty w i)) ∧
        (wOp i = 0x042 → held (.tagWaitFull w i)) ∧ (wOp i = 0x043 → held (.tagWaitEmpty w i)) ∧ (wOp i = 0x044 → held (.tagTake w i))) ∧
      (noS2 i = true → wOp i = 0x045 → held (.tagGet w i))) ∧
    (noDest i = true → st.pend = false → a % 512 = 0 → n % 512 = 0 → a + n ≤ 0x700000 → good ks →
      (st.scoreboard = false →
        (wOp i = 0x040 → leaves (.tagFill w i) (fun k => if k ∈ ks then true else st.full k)) ∧
        (wOp i = 0x041 → leaves (.tagEmpty w i) (fun k => if k ∈ ks then false else st.full k)) ∧
        (wOp i = 0x042 → ((∀ k ∈ ks, st.full k = true) → passes (.tagWaitFull w i)) ∧
          ((∃ k ∈ ks, st.full k = false) → waits (.tagWaitFull w i))) ∧
        (wOp i = 0x043 → ((∀ k ∈ ks, st.full k = false) → passes (.tagWaitEmpty w i)) ∧
          ((∃ k ∈ ks, st.full k = true) → waits (.tagWaitEmpty w i))) ∧
        (wOp i = 0x044 → (∀ k ∈ ks, tagReady st .windlass .consume k = true) →
          leaves (.tagTake w i) (fun k => if k ∈ ks then false else st.full k))) ∧
      (st.scoreboard = true →
        ((∀ h ∈ heldEntries s w, n = 0 ∨ spanOverlap h.2 (mkSpan a n false) = false) →
          (wOp i = 0x040 → passes (.tagFill w i)) ∧ (wOp i = 0x041 → passes (.tagEmpty w i)) ∧ (wOp i = 0x042 → passes (.tagWaitFull w i)) ∧
          (wOp i = 0x043 → passes (.tagWaitEmpty w i)) ∧ (wOp i = 0x044 → passes (.tagTake w i))) ∧
        (0 < n → (∃ h ∈ heldEntries s w, spanOverlap h.2 (mkSpan a n false) = true) →
          (wOp i = 0x040 → waits (.tagFill w i)) ∧ (wOp i = 0x041 → waits (.tagEmpty w i)) ∧ (wOp i = 0x042 → waits (.tagWaitFull w i)) ∧
          (wOp i = 0x043 → waits (.tagWaitEmpty w i)) ∧ (wOp i = 0x044 → waits (.tagTake w i))))) ∧
    (noS2 i = true → wOp i = 0x045 → st.pend = false → a % 0x8000 = 0 → a + 0x8000 ≤ 0x700000 → good (slotsOf a 0x8000) →
      ∃ v : W64, exec (.tagGet w i) s = .next (s.modCpu w (fun c => retired (c.wr_ (wDest i) v))) ∧
        ∀ k, k < 64 → v.getLsbD k = st.full (slotOf (a + 512 * k))) ∧
    (∀ e, st.pend = false → tagRefusal c st i = some e →
      let refused : Out := .next (takeException w 0x17 e (s.modSt w (fun t => t.releaseAll .windlass)))
      (noDest i = true → (wOp i = 0x040 → exec (.tagFill w i) s = refused) ∧ (wOp i = 0x041 → exec (.tagEmpty w i) s = refused) ∧
        (wOp i = 0x042 → exec (.tagWaitFull w i) s = refused) ∧ (wOp i = 0x043 → exec (.tagWaitEmpty w i) s = refused) ∧
        (wOp i = 0x044 → exec (.tagTake w i) s = refused)) ∧
      (noS2 i = true → wOp i = 0x045 → exec (.tagGet w i) s = refused))

/-- Waits on tags and the change between the two modes of a well's stores (R239, R240, R246, R248-R250, R263). -/
def Obligations.TagAndModeEvents : Prop :=
  ∀ (w : WellId) (s : State),
    let u := s.wells[w]
    let st := u.st
    let stGives (st' : Stores) : Out := .next (s.modSt w (fun _ => st'))
    (∀ k x, st.scoreboard = false → (∀ g ∈ st.tagBad, g.1.val ≠ k.val / 64) →
      st.waiters.find? (fun x => x.slot == k && x.use != .leaveFull && tagSuits st x.agent x.use k) = some x →
      exec (.tagWaitGrant w k) s = stGives { st with
        waiters := st.waiters.filter (fun y => !(y.slot == k && y.agent == x.agent))
        claims := (k, x.agent) :: st.claims.filter (fun c => c.1 != k) }) ∧
    (∀ k, st.limit ≠ 0 → st.stalled = false → (∃ x ∈ st.waiters, x.slot = k) →
      ∃ t, exec (.tagStall w k) s = .next t ∧ t.wells[w].st = { st with stalled := true, woff := BitVec.ofNat 24 (k.val * 512) } ∧
        t.reports = s.reports ++ [{ unit := wellUnit w, cls := 0x03, stage := s.stageNumber, detail := 0, job := 0xFFFF, joined := [] }]) ∧
    (∀ src, st.scoreboard = false → st.pend = false →
      let stopped : Prop := (u.cpu.running = false ∨ u.cpu.wedged = true) ∧ u.mr.queue = [] ∧ u.flume.window = [] ∧
        s.pumps[wellPump w 0].queue = [] ∧ s.pumps[wellPump w 1].queue = []
      (src = .headwater → stopped → ∃ t, exec (.wsModeToScoreboard w src) s = .next t ∧ t.mem = s.mem ∧ t.cpu w = s.cpu w ∧
        t.wells[w].st = { st with scoreboard := true, pend := false, claims := [], waiters := [] } ∧
        (∀ x ∈ st.waiters, ∀ p seq, x.agent = .pump p seq → wellOfPump p ≠ some w → ∀ d ∈ t.pumps[p].queue, d.seq = seq → d.err ≠ none)) ∧
      (src ≠ .headwater ∨ ¬ stopped → exec (.wsModeToScoreboard w src) s = stGives { st with modeErr := 1 })) ∧
    (∀ v, st.scoreboard = true →
      let img := fieldN v 16 24
      (fieldN v 1 2 = 3 → exec (.wsModeToTagService w v) s = stGives { st with modeErr := 3 }) ∧
      (fieldN v 1 2 = 2 → (img % 64 ≠ 0 ∨ img < 0x700000 ∨ 0x720000 < img + 1792) →
        exec (.wsModeToTagService w v) s = stGives { st with modeErr := 2 }) ∧
      (fieldN v 1 2 < 2 ∨ fieldN v 1 2 = 2 ∧ img % 64 = 0 ∧ 0x700000 ≤ img ∧ img + 1792 ≤ 0x720000 →
        exec (.wsModeToTagService w v) s = stGives { st with pend := true, image := v.extractLsb' 16 24, init := v.extractLsb' 1 2 })) ∧
    (∀ v, st.pend = true → ∃ t, exec (.wsModeWithdraw w v) s = .next t ∧
      t.wells[w].st = { st with pend := false, image := v.extractLsb' 16 24, init := v.extractLsb' 1 2 } ∧
      t.cpu w = { s.cpu w with stall := if (s.cpu w).stall = some .wsModePend then none else (s.cpu w).stall }) ∧
    (st.pend = true → heldEntries s w = [] → (st.init = 2 → ueHit s.ue (wellAddr w st.image.toNat) 1792 = false) →
      ∃ t, exec (.tagServiceChangeover w) s = .next t ∧ t.wells[w].st.scoreboard = false ∧ t.wells[w].st.pend = false ∧
        t.wells[w].st.claims = [] ∧ t.mem = s.mem ∧
        ∀ k : SlotId, t.wells[w].st.full k =
          if st.init = 0 then false else if st.init = 1 then true
          else if st.init = 2 then (s.byteAt (wellAddr w (st.image.toNat + k.val / 8))).getLsbD (k.val % 8) else false) ∧
    exec (.scoreboardConflictRelease w) s =
      .next (s.modCpu w (fun c => { c with stall := if c.stall = some .scoreboard then none else c.stall }))

/-- The bank commands (R254, R256-R258): a command is refused as a whole while another is in progress or a queued Millrace instruction
holds a masked bank; else every masked bank leaves OPEN at once, the drain empties the store buffer, and at the end the masked banks take
the command's state. OFF and CLEAR leave every byte of them zero and every tag empty; no other byte, bank or tag changes. -/
def Obligations.BankCommands : Prop :=
  ∀ (w : WellId) (mask : BitVec 28) (s : State), s.MemOk →
    let st := s.wells[w].st
    let refuses (ins : Instr) : Prop :=
      (st.bankOp ≠ none → exec ins s = .next (s.modSt w (fun t => { t with bankErr := 3 }))) ∧
      (st.bankOp = none → bankHeld s.wells[w].mr mask = true → exec ins s = .next (s.modSt w (fun t => { t with bankErr := 1 })))
    let starts (ins : Instr) (cmd : BankCmd) (f : BankState → BankState) : Prop :=
      st.bankOp = none → bankHeld s.wells[w].mr mask = false →
        ∃ t, exec ins s = .next t ∧ t.mem = s.mem ∧ t.cpu w = s.cpu w ∧ t.wells[w].st.tags = st.tags ∧
          (∀ b : Fin 28, t.wells[w].st.banks[b] = if mask.getLsbD b.val then f st.banks[b] else st.banks[b]) ∧
          (∀ op, t.wells[w].st.bankOp = some op → op.cmd = cmd ∧ ∀ b : Fin 28, op.mask.getLsbD b.val =
            (mask.getLsbD b.val && decide (t.wells[w].st.banks[b] = .changing)))
    let closing (b : BankState) : BankState := if b = .off then .off else .changing
    refuses (.bankClose w mask) ∧ refuses (.bankOff w mask) ∧ refuses (.bankClear w mask) ∧ refuses (.bankOpen w mask) ∧
    starts (.bankClose w mask) .close (fun b => if b = .closed then .closed else closing b) ∧
    starts (.bankOff w mask) .off closing ∧ starts (.bankClear w mask) .clear closing ∧
    starts (.bankOpen w mask) .open (fun b => if b = .closed then .open else if b = .off then .changing else b) ∧
    (∀ op, st.bankOp = some op →
      (op.drained = false → ∃ t, exec (.bankDrainComplete w) s = .next t ∧ t.wells[w].st = { st with bankOp := some { op with drained := true } } ∧
        (t.cpu w).storeBuf = []) ∧
      (op.drained = true → ∃ t, exec (.bankCommandComplete w) s = .next t ∧ t.wells[w].st.bankOp = none ∧
        (∀ b : Fin 28, t.wells[w].st.banks[b] =
          if op.mask.getLsbD b.val then (match op.cmd with | .close => .closed | .off => .off | .clear => .open | .open => .open)
          else st.banks[b]) ∧
        (∀ o, o < 0x700000 → t.byteAt (wellAddr w o) =
          if op.cmd ≠ .close ∧ op.mask.getLsbD (o / 0x40000) = true then 0 else s.byteAt (wellAddr w o)) ∧
        (∀ k : SlotId, t.wells[w].st.full k =
          if op.cmd ≠ .close ∧ op.mask.getLsbD (k.val / 512) = true then false else st.full k)))

/-- The Pump-group instructions (R112, R270-R272, R278, R290): `pump.sub` and `czero` queue a descriptor whose checks pass under the next
submission number, which gd receives, and wait while the queue is full; a refused descriptor takes PUMP_SUBMIT with nothing queued.
`inv.as` joins the invalidations in progress; `trig.wait`, `trig.get` and `trig.add` use the counter that gs1 names in the window. While
a change to tag service is held, each of them waits (R250). -/
def Obligations.PumpInstructions : Prop :=
  ∀ (w : WellId) (i : W64) (s : State), ready w s = true → wClass i = 8 → (s.cpu w).storeBuf = [] → noS3 i = true → immZero i 1 29 = true →
    let c := s.cpu w
    let m := s.wells[w].mr
    let a := c.rd (wS1 i)
    let n := c.rd (wS2 i)
    let p := wellPump w (Fin.ofNat 2 (immN i 0 1))
    let x := s.pumps[p]
    let ctr : BitVec 12 := m.trigBase + a.truncate 12
    let key (y : Desc) : DWords × BitVec 32 × BitVec 16 × BitVec 2 × BitVec 12 × BitVec 12 := (y.words, y.seq, y.asid, y.ring, y.ctr, y.wctr)
    let handed (d : DWords) (t : State) : Prop :=
      t.pumps[p].queue.map key = x.queue.map key ++
          [(d, x.nextSeq, c.wasid, c.eff.ring, m.trigBase + BitVec.ofNat 12 (dCtr d), m.trigBase + BitVec.ofNat 12 (dWctr d))] ∧
        t.pumps[p].nextSeq = x.nextSeq + 1 ∧ (t.cpu w).pc = c.pc + 8 ∧ t.mem = s.mem ∧
        (∀ k : Fin 32, (t.cpu w).gGet c.eff.bank k = if k = wDest i ∧ k ≠ 0 then x.nextSeq.setWidth 64 else c.gGet c.eff.bank k)
    let submits (ins : Instr) (d : DWords) : Prop :=
      (16 ≤ x.queue.length → ∃ t, exec ins s = .next t ∧ t.cpu w = { c with stall := some .pumpQueueFull } ∧ t.pumps = s.pumps ∧ t.mem = s.mem) ∧
      (x.queue.length < 16 → s.wells[w].st.scoreboard = false → ∃ t, exec ins s = .next t ∧ handed d t) ∧
      (x.queue.length < 16 → s.wells[w].st.scoreboard = true → x.abortHand = false → cutPending s w = false →
        (dHas d false = true → dMode d false ≠ 0) → dMode d true ≠ 0 →
        entriesFree s w (endSpans s w (if dHas d false then plainRanges s w d false else []) false ++
          endSpans s w (plainRanges s w d true) true) = true → ∃ t, exec ins s = .next t ∧ handed d t)
    let held (ins : Instr) : Prop := exec ins s = .next (s.modCpu w (fun c => { c with stall := some .wsModePend }))
    (s.wells[w].st.pend = true →
      (noS2 i = true → wOp i = 0x001 → held (.pumpSub w i)) ∧ (wOp i = 0x002 → held (.czero w i)) ∧
      (wOp i = 0x020 → noDest i = true → (bitB i 0 = true ∨ noS2 i = true) → held (.invAs w i)) ∧
      (immZero i 0 30 = true → (wOp i = 0x030 → noDest i = true → held (.trigWait w i)) ∧ (wOp i = 0x031 → noS2 i = true → held (.trigGet w i)) ∧
        (wOp i = 0x032 → noDest i = true → held (.trigAdd w i)))) ∧
    (s.wells[w].st.pend = false →
    (noS2 i = true → wOp i = 0x001 →
      let o := a.toNat
      let d := readDesc w o s
      (o % 64 ≠ 0 ∨ o < 0x700000 ∨ ownLimit c.drlim c.eff.ring < o + 64 → exec (.pumpSub w i) s = .next (takeException w 0x18 a s)) ∧
      (o % 64 = 0 → 0x700000 ≤ o → o + 64 ≤ ownLimit c.drlim c.eff.ring → ueHit s.ue (wellAddr w o) 64 = false →
        dRefused d c.eff.ring c.drlim m.trigCount = false → submits (.pumpSub w i) d)) ∧
    (wOp i = 0x002 →
      let bad : Prop := n = 0 ∨ n.toNat % 256 ≠ 0 ∨ 2 ^ 32 < n.toNat ∨ dRefused (czeroDesc a n) c.eff.ring c.drlim m.trigCount = true
      (bad → exec (.czero w i) s = .next (takeException w 0x18 a s)) ∧ (¬ bad → submits (.czero w i) (czeroDesc a n))) ∧
    (wOp i = 0x020 → noDest i = true → (bitB i 0 = true ∨ noS2 i = true) →
      let asid : BitVec 16 := a.truncate 16
      (2 ≤ c.eff.ring.toNat ∨ c.eff.ring = 1 ∧ asid ≠ c.wasid → exec (.invAs w i) s = .next (takeException w 0x02 i s)) ∧
      (c.eff.ring = 0 ∨ c.eff.ring = 1 ∧ asid = c.wasid →
        (bitB i 0 = true → m.trigCount.toNat ≤ n.toNat → exec (.invAs w i) s = .next (takeException w 0x18 n s)) ∧
        ((bitB i 0 = true → n.toNat < m.trigCount.toNat) →
          (s.invals.length < 4 → exec (.invAs w i) s = .next { s.modCpu w retired with
            invals := s.invals ++ [{ asid := asid, ctr := if bitB i 0 then some (m.trigBase + n.truncate 12) else none, well := some w,
                                     cut := false, tags := [] }] }) ∧
          (4 ≤ s.invals.length → exec (.invAs w i) s = .next (s.modCpu w (fun c => { c with stall := some .invBusy })))))) ∧
    (immZero i 0 30 = true →
      (m.trigCount.toNat ≤ a.toNat →
        (wOp i = 0x030 → noDest i = true → exec (.trigWait w i) s = .next (takeException w 0x18 a s)) ∧
        (wOp i = 0x031 → noS2 i = true → exec (.trigGet w i) s = .next (takeException w 0x18 a s)) ∧
        (wOp i = 0x032 → noDest i = true → exec (.trigAdd w i) s = .next (takeException w 0x18 a s))) ∧
      (a.toNat < m.trigCount.toNat →
        (wOp i = 0x030 → noDest i = true →
          let k := s.counters[ctr.toFin]
          (k.sat = false → n.toNat ≤ k.value.toNat → exec (.trigWait w i) s = .next (s.modCpu w retired)) ∧
          (k.sat = true ∨ k.value.toNat < n.toNat →
            exec (.trigWait w i) s = .next (s.modCpu w (fun c => { c with stall := some .counterWait })))) ∧
        (wOp i = 0x031 → noS2 i = true → exec (.trigGet w i) s = .next { s.modCpu w (fun c =>
            retired { c with getPend := c.getPend ++ [(c.eff.bank, wDest i)] }) with inflight := s.inflight ++ [.get w ctr] }) ∧
        (wOp i = 0x032 → noDest i = true →
          (1 ≤ n.toNat → n.toNat ≤ 65535 → exec (.trigAdd w i) s = .next { s.modCpu w retired with
            inflight := s.inflight ++ [.inc (.well w) ctr (n.truncate 32)] }) ∧
          (n.toNat = 0 ∨ 65535 < n.toNat → exec (.trigAdd w i) s = .next (takeException w 0x18 a s))))))

/-- The Pumps' own steps (R273, R274, R276, R277, R284, R291). PUMP_DESCRIPTOR_START starts the descriptor that nothing holds, and one with a
virtual endpoint then asks for its next page;
PUMP_ACCESS_ISSUE moves the next bytes of a COPY within the own stores of the well, tags blind, and of a FILL there; PUMP_PAGE_CROSSING
takes a cached translation for the next page where no fault record of its granule is open (R286); PUMP_DESCRIPTOR_COMPLETE and PUMP_ERROR_COMPLETE end the head descriptor. -/
def Obligations.PumpEvents : Prop :=
  ∀ (w : WellId) (b : Fin 2) (s : State) (d : Desc), s.MemOk → s.wellOn w = true →
    let p := wellPump w b
    let x := s.pumps[p]
    let only (f : Desc → Desc) : List Desc := x.queue.map (fun y => if y.seq = d.seq then f y else y)
    s.dieClocked = true →
    (issuing x = some d → d.started = false → d.waitCut = false → d.asking false = false → d.asking true = false →
      (dWaitc d.words = true → counterAtLeast s d.wctr (dWthr d.words) = true) →
      (dOrd d.words = true → ∃ r, x.queue.head? = some r ∧ r.seq = d.seq) →
      sideHolds d false (dAddr d.words false 0 0) = true → sideHolds d true (dAddr d.words true 0 0) = true → startError s p d = none →
      (∃ t, exec (.pumpDescriptorStart p) s = .next t ∧ t.mem = s.mem ∧ t.pumps[p].queue.map (·.seq) = x.queue.map (·.seq) ∧
        ∀ y ∈ t.pumps[p].queue, y.seq = d.seq → y.started = true) ∧
      (dVirtual d false = false → dVirtual d true = false →
        exec (.pumpDescriptorStart p) s = .next (s.modPump p (fun x => { x with queue := only (fun y => { y with started := true }) })))) ∧
    (∀ k, issuing x = some d → d.started = true →
      let g := nextAccess d
      let own (dst : Bool) (o : Nat) : Prop := dMode d.words dst = 1 ∧ o + g.n ≤ 0x700000 ∧ storeRefusal s w o g.n true = none ∧
        outsideEntries s p d w o g.n dst = false ∧ tagUse d.words dst = none
      sideHolds d true g.dst = true → sideHolds d false g.src = true → own true g.dst → dKind d.words = k → 0 < g.n →
      (k = 1 → own false g.src → ueHit s.ue (wellAddr w g.src) g.n = false →
        endsOverlap d g (globalOf s p d false g.src) (globalOf s p d true g.dst) = false →
        ∃ t, exec (.pumpAccessIssue p) s = .next t ∧
          t.pumps[p].queue = only (fun y => { y with pos := y.pos + g.n, waiting := false }) ∧
          (∀ j, j < g.n → t.byteAt (wellAddr w (g.dst + j)) = s.byteAt (wellAddr w (g.src + j))) ∧
          (∀ a, a < wellAddr w g.dst ∨ wellAddr w (g.dst + g.n) ≤ a → t.byteAt a = s.byteAt a)) ∧
      (k = 2 → ∃ t, exec (.pumpAccessIssue p) s = .next t ∧
        t.pumps[p].queue = only (fun y => { y with pos := y.pos + g.n, waiting := false }) ∧
        (∀ j, j < g.n → t.byteAt (wellAddr w (g.dst + j)) = d.words[1].extractLsb' (8 * ((g.dst + j) % 8)) 8) ∧
        (∀ a, a < wellAddr w g.dst ∨ wellAddr w (g.dst + g.n) ≤ a → t.byteAt a = s.byteAt a))) ∧
    (∀ e, issuing x = some d → d.started = true → d.asking true = false →
      let g := nextAccess d
      let va := BitVec.ofNat 56 g.dst
      sideHolds d false g.src = true → sideHolds d true g.dst = false →
      recordFor s.fronts[frontOfPump p] d.asid va = none →
      tlbFind s.fronts[frontOfPump p] d.asid va = some e → rightsHold e.rights (dNeed d.words true) = true →
      ∃ t, exec (.pumpPageCrossing p) s = .next t ∧ t.mem = s.mem ∧ t.pumps[p].queue = only (fun y =>
        { y with rdst := resolvedWord e.big e.frame e.rights, vpD := e.page, walkD := false, heldD := none, aheadD := false })) ∧
    (∀ r, x.queue = d :: r →
      (d.started = true → d.err = none → dTotal d.words ≤ d.pos → d.remote = 0 →
        ∃ t, exec (.pumpDescriptorComplete p) s = .next t ∧ t.pumps[p] = { x with queue := r, doneSeq := d.seq } ∧
          t.inflight = (if dTrig d.words then s.inflight ++ [.inc (.pump p) d.ctr 1] else s.inflight) ∧
          (t.cpu w).exc.ipend = (if dIrq d.words then (s.cpu w).exc.ipend ||| BitVec.ofNat 11 (2 ^ (7 + b.val)) else (s.cpu w).exc.ipend) ∧
          t.mem = s.mem) ∧
      (∀ e, d.err = some e → d.remote = 0 →
        ∃ t, exec (.pumpErrorComplete p) s = .next t ∧ t.pumps[p].queue = r ∧ t.pumps[p].doneSeq = d.seq ∧ t.pumps[p].errValid = true ∧
          (x.errValid = false → t.pumps[p].errStatus = e ∧ t.pumps[p].errSeq = d.seq) ∧
          (x.errValid = true → t.pumps[p].errStatus = x.errStatus ∧ t.pumps[p].errSeq = x.errSeq) ∧
          (t.cpu w).exc.ipend = (s.cpu w).exc.ipend ||| BitVec.ofNat 11 (2 ^ (7 + b.val)) ∧ t.inflight = s.inflight ∧ t.mem = s.mem ∧
          (e ∈ [0x04, 0x08, 0x09, 0x0E] → ∃ q, t.reports = s.reports ++ [q] ∧ q.unit = pumpUnit p) ∧
          (e ∉ [0x04, 0x08, 0x09, 0x0E] → t.reports = s.reports))) ∧
    (∀ drop : BitVec 2, ∃ t, exec (.puCtlDrop w drop) s = .next t ∧ t.mem = s.mem ∧ t.wells = s.wells ∧
      t.pumps[p].queue = if drop.getLsbD b.val then x.queue.map (fun y =>
        { y with err := some (y.err.getD 0x0D), heldS := none, heldD := none, walkS := false, walkD := false, waiting := false }) else x.queue)

/-- Translation and invalidation (R279, R282, R283, R286-R290). Each of the five events completes in every state. TRANSLATION_WALK takes the
oldest walk; with none it changes nothing, and under a basin layout it may wait at a weir (R318). A walk that finds a leaf caches it and
resolves the endpoint that asked; a walk that fails opens a fault record with one fault event and holds the descriptor, whose well
receives PUMP_FAULT. RESUME and ABORT of an
open record close it, ABORT gives each held descriptor XLATE_ABORT, and a response that matches none sets BADRESP. The cut of an
invalidation drops every cached translation and I-cache line of its ASID; its completion sends the increment of its counter and admits
the invalidation of Headwater's that waited longest. -/
def Obligations.TranslationEvents : Prop :=
  ∀ (s : State),
    (∀ f : FrontId, (s.fronts[f].walks = [] → exec (.translationWalk f) s = .next s) ∧
      ∃ t, exec (.translationWalk f) s = .next t ∧ t.mem = s.mem ∧
        (t.fronts[f].walks = s.fronts[f].walks.tail ∨ s.basinMode ≠ 0 ∧ t.fronts = s.fronts)) ∧
    (∀ (f : FrontId) (k : Fin 64) (asid : BitVec 16) (g : BitVec 30),
      (∃ t, exec (.puFrespResume f k asid g) s = .next t ∧ t.mem = s.mem) ∧ (∃ t, exec (.puFrespAbort f k asid g) s = .next t ∧ t.mem = s.mem)) ∧
    (∀ (f : FrontId) (q : Walk) (r : List Walk) (p : PumpId) (seq : BitVec 32) (dst early : Bool) (need : BitVec 3),
      s.basinMode = 0 → s.fronts[f].walks = q :: r → q.reqs = [(.pump p seq dst early, need)] →
      let s0 := s.modFront f (fun x => { x with walks := r })
      let w := walkTable f q.asid q.va s0
      (∀ big frame rights lv, w.1 = .leaf big frame rights lv → rightsHold rights need = true →
        ∃ t, exec (.translationWalk f) s = .next t ∧
          t.fronts[f].tlb.head? = some { asid := q.asid, big := big, page := pageOf big q.va, frame := frame, rights := rights } ∧
          (∀ d ∈ t.pumps[p].queue, d.seq = seq → d.asking dst = false ∧
            (early = false → (if dst then d.rdst else d.rsrc) = resolvedWord big frame rights)) ∧ t.reports = w.2.reports) ∧
      (∀ ft lv k, w.1 = .fail ft lv → recordFor w.2.fronts[f] q.asid q.va = none → freeRecord w.2.fronts[f] = some k →
        ∃ t, exec (.translationWalk f) s = .next t ∧
          t.fronts[f].records[k] = some { ftype := ft, rights := need, level := lv, asid := q.asid, va := q.va, fetches := 0, joins := 0,
                                          held := [(.pump p seq dst early, q.va, need)] } ∧
          (∀ d ∈ t.pumps[p].queue, d.seq = seq → d.heldAt dst = some (f, k)) ∧
          (∃ e, t.reports = w.2.reports ++ [e] ∧ e.unit = pumpUnit p) ∧
          (∀ v, wellOfPump p = some v → (t.cpu v).exc.ipend = (w.2.cpu v).exc.ipend ||| 64))) ∧
    (∀ (f : FrontId) (k : Fin 64) (asid : BitVec 16) (g : BitVec 30) (r : FaultRec),
      (s.fronts[f].records[k] = some r → r.asid = asid → granuleOf r.va = g →
        (∃ t, exec (.puFrespResume f k asid g) s = .next t ∧ (s.fronts[f].waiters = [] → t.fronts[f].records[k] = none)) ∧
        (∃ t, exec (.puFrespAbort f k asid g) s = .next t ∧ (s.fronts[f].waiters = [] → t.fronts[f].records[k] = none) ∧
          ∀ p seq dst early va need, (.pump p seq dst early, va, need) ∈ r.held → ∀ d ∈ t.pumps[p].queue, d.seq = seq → d.err.isSome = true)) ∧
      (s.fronts[f].records[k] = none ∨ (s.fronts[f].records[k] = some r ∧ (r.asid ≠ asid ∨ granuleOf r.va ≠ g)) →
        exec (.puFrespResume f k asid g) s = .next (s.modFront f (fun x => { x with badresp := true })) ∧
        exec (.puFrespAbort f k asid g) s = .next (s.modFront f (fun x => { x with badresp := true })))) ∧
    ((∀ v ∈ s.invals, v.cut = true) → exec .invalidationCut s = .next s) ∧
    (∀ v, s.invals.find? (fun v => !v.cut) = some v → ∃ t, exec .invalidationCut s = .next t ∧
      t.invals.map (·.cut) = (s.invals.takeWhile (·.cut)).map (·.cut) ++ true :: ((s.invals.dropWhile (·.cut)).tail).map (·.cut) ∧
      (∀ f : FrontId, (∀ e ∈ t.fronts[f].tlb, e.asid ≠ v.asid) ∧ (∀ e ∈ t.fronts[f].walkCache, e.asid ≠ v.asid)) ∧
      (∀ w : WellId, (t.cpu w).icache = (s.cpu w).icache.filter (fun l => l.asid != v.asid)) ∧ t.mem = s.mem) ∧
    (s.invals = [] → exec .invalidationComplete s = .next s) ∧
    (∀ v r, s.invals = v :: r → (v.cut = false ∨ ∃ g ∈ v.tags, ∃ q ∈ s.far.remote, q.tag = g) → exec .invalidationComplete s = .next s) ∧
    (∀ v r, s.invals = v :: r → v.cut = true → (∀ g ∈ v.tags, ∀ q ∈ s.far.remote, q.tag ≠ g) →
      exec .invalidationComplete s = .next { s with
        invals := r ++ (match s.hw.invWait with | a :: _ => [{ asid := a, ctr := none, well := none, cut := false, tags := [] }] | [] => [])
        hw := { s.hw with invWait := s.hw.invWait.tail }
        inflight := s.inflight ++ (match v.ctr with | some c => [.inc .inval c 1] | none => []) })

/-- CISTERN_ACCESS and CISTERN_MISS_FILL (R267, R295, R297, R302, R310, R316): an access to a served address where no capture holds it. A
write puts its bytes, a ZERO clears the line, an atomic puts its result where the sector can be read, and a read changes no byte; no other
byte of memory changes. With no request for the sector a fill changes nothing; the fill of the one request that waits at its
pseudo-channel takes it from the queue and, where frames serve the cache and the stack holds no error, leaves the sector valid in its
line. -/
def Obligations.CisternAccesses : Prop :=
  ∀ (r : CisternReq) (s : State), s.MemOk → s.prot = [] → s.capturing = [] → centralRefusal s r.addr.toNat = none →
    let pa := r.addr.toNat
    let does (P : State → Prop) : Prop := ∃ t, exec (.cisternAccess r) s = .next t ∧ t.wells = s.wells ∧ P t
    let outside (t : State) (lo hi : Nat) : Prop := ∀ a, a < lo ∨ hi ≤ a → t.byteAt a = s.byteAt a
    (∀ n, r.kind = .read n → does (fun t => t.mem = s.mem)) ∧
    (∀ d, r.kind = .write d → does (fun t =>
      (∀ j (h : j < d.length), t.byteAt (pa + j) = d[j]) ∧ outside t pa (pa + d.length))) ∧
    (r.kind = .zero → does (fun t =>
      (∀ j, j < 256 → t.byteAt (pa / 256 * 256 + j) = 0) ∧ outside t (pa / 256 * 256) (pa / 256 * 256 + 256))) ∧
    (∀ op x cmp, r.kind = .atomic op x cmp →
      let a := pa / 8 * 8
      let old := s.readWord a
      ((sectorRead .normal (a / 64 * 64) s).1 = true → does (fun t => t.mem = s.mem)) ∧
      ((sectorRead .normal (a / 64 * 64) s).1 = false → does (fun t => outside t a (a + 8) ∧
        t.readWord a = match op with
          | .add => old + x | .and => old &&& x | .or => old ||| x | .xor => old ^^^ x | .swap => x
          | .cas => if old = cmp then x else old
          | .max => BitVec.ofInt 64 (max old.toInt x.toInt) | .min => BitVec.ofInt 64 (min old.toInt x.toInt)
          | .maxu => BitVec.ofNat 64 (max old.toNat x.toNat) | .minu => BitVec.ofNat 64 (min old.toNat x.toNat)))) ∧
    ((∀ n, placeOf (pa / 64 * 64) = .stack n → ∀ q ∈ s.stks[n].queue, q.sector ≠ pa / 64) → exec (.cisternMissFill r.addr) s = .next s) ∧
    (∀ n q, placeOf (pa / 64 * 64) = .stack n → centralRefusal s (pa / 64 * 64) = none →
      s.stks[n].queue.filter (fun x => pseudoChannel (x.sector * 64) == pseudoChannel (pa / 64 * 64)) = [q] → q.sector = pa / 64 →
      (∀ l, lineAt s (pa / 64 * 64) = some l → l.valid.getLsbD (pa / 64 % 4) = false) → (∀ e ∈ s.stErr, e.1 ≠ pa / 64) →
      ∃ t, exec (.cisternMissFill r.addr) s = .next t ∧ t.mem = s.mem ∧ t.wells = s.wells ∧
        t.stks[n].queue = s.stks[n].queue.filter (fun x => pseudoChannel (x.sector * 64) != pseudoChannel (pa / 64 * 64)) ∧
        (cacheWays s.halves[halfOfStack n] (sliceOf (pa / 64 * 64)) ≠ [] →
          ∃ l, lineAt t (pa / 64 * 64) = some l ∧ l.valid.getLsbD (pa / 64 % 4) = true))

/-- The frame commands, maintenance, stack temperature and the weirs (R299, R305-R307, R312, R319, R321, R328): a frame command is refused
as a whole under R307 or every masked frame leaves service; the drain serves every request that waits at the half's stacks; at its end the frames take its state and, but for CLOSE, the window bytes they
back read as zero. Maintenance leaves no dirty sector, or no line, in its half. A weir grants no more than its capacity in a cycle. -/
def Obligations.CisternCommands : Prop :=
  ∀ (h : HalfId) (mask : BitVec 16) (s : State), s.MemOk →
    let x := s.halves[h]
    let starts (ins : Instr) (cmd : FrameCmd) (ok : FrameState → Bool) : Prop :=
      let stateOk : Prop := ∀ f : Fin 16, mask.getLsbD f.val = true → ok x.frames[f] = true
      let paired : Prop := s.basinMode = 2 ∨ ∀ f, f < 8 → mask.getLsbD f = mask.getLsbD (8 + f)
      let refused (e : BitVec 3) : Prop := exec ins s = .next (s.modHalf h (fun x => { x with err := e }))
      (x.op ≠ none → refused 3) ∧ (x.op = none → ¬ stateOk → refused 1) ∧
      (x.op = none → stateOk → (¬ paired ∨ (cmd = .tocache ∧ s.basinMode ≠ 0)) → refused 2) ∧
      (x.op = none → stateOk → paired → (cmd = .tocache → s.basinMode = 0) →
        ∃ t, exec ins s = .next t ∧ t.mem = s.mem ∧ t.lines = s.lines ∧ t.halves[h].err = x.err ∧
          (∀ f : Fin 16, t.halves[h].frames[f] =
            if mask.getLsbD f.val then (if cmd = .open then .scratch else .changing) else x.frames[f]) ∧
          t.halves[h].op = if cmd = .open ∨ mask = 0 then none else some { cmd := cmd, mask := mask, drained := false })
    starts (.frameClose h mask) .close (fun f => f == .scratch) ∧
    starts (.frameOff h mask) .off (fun f => f == .cache || f == .scratch || f == .closed) ∧
    starts (.frameClear h mask) .clear (fun f => f == .scratch || f == .closed) ∧
    starts (.toscratch h mask) .toscratch (fun f => f == .cache || f == .off) ∧
    starts (.tocache h mask) .tocache (fun f => f == .scratch || f == .closed || f == .off) ∧
    starts (.frameOpen h mask) .open (fun f => f == .closed) ∧
    (x.op = none → exec (.frameDrainComplete h) s = .next s) ∧
    (∀ o, x.op = some o → ∃ t, exec (.frameDrainComplete h) s = .next t ∧ t.mem = s.mem ∧ t.wells = s.wells ∧
      t.halves[h].op = some { o with drained := true } ∧ t.halves[h].frames = x.frames ∧
      (∀ n, halfOfStack n = h → t.stks[n].queue = []) ∧ (∀ n, halfOfStack n ≠ h → t.stks[n].queue = s.stks[n].queue)) ∧
    (∀ o, x.op = some o → o.drained = true → ∃ t, exec (.frameCommandComplete h) s = .next t ∧ t.halves[h].op = none ∧
      (∀ f : Fin 16, t.halves[h].frames[f] = if o.mask.getLsbD f.val then (match o.cmd with
        | .close => .closed | .off => .off | .clear => .scratch | .toscratch => .scratch | .open => .scratch | .tocache => .cache)
        else x.frames[f]) ∧
      (s.basinMode ≠ 2 → ∀ k, k < 0x20000000 → t.byteAt (0x20000000000 + h.val * 0x20000000 + k) =
        if o.cmd ≠ .close ∧ (o.mask.getLsbD (k / 0x4000000) || o.mask.getLsbD (8 + k / 0x4000000)) = true then 0
        else s.byteAt (0x20000000000 + h.val * 0x20000000 + k)) ∧
      (∀ a, a < 0x20000000000 + h.val * 0x20000000 ∨ 0x20020000000 + h.val * 0x20000000 ≤ a → t.byteAt a = s.byteAt a)) ∧
    (x.maint = none → exec (.ciMaintWriteback h) s = .next (s.modHalf h (fun x => { x with maint := some false })) ∧
      exec (.ciMaintWritebackInvalidate h) s = .next (s.modHalf h (fun x => { x with maint := some true }))) ∧
    (∀ inv, x.maint = some inv → ∃ t, exec (.ciMaintComplete h) s = .next t ∧ t.halves[h].maint = none ∧ t.mem = s.mem ∧
      (∀ l ∈ t.lines, l.half = h → inv = false ∧ l.dirty = 0)) ∧
    (∀ n celsius, s.domain (36 + n.val / 6) = true → exec (.stackTemperatureRead n celsius) s =
      .next (s.modStack n (fun c => { c with temp := celsius, hot := decide (80 < celsius.toNat) }))) ∧
    (∀ a v, weirExists a.path = true →
      let k := weirIndex a.path a.basin
      let w := { s.weirs[k] with en := bitB v 63, ceil := v.extractLsb' 32 9, floor := v.extractLsb' 16 9, depth := v.extractLsb' 0 8 }
      let floorOf (b : Fin 4) : Nat :=
        let y := if b = a.basin then w else s.weirs[weirIndex a.path b]
        if y.en then y.floor.toNat else 0
      let ok : Prop := w.floor.toNat ≤ w.ceil.toNat ∧ w.ceil.toNat ≤ 0x100 ∧ floorOf 0 + floorOf 1 + floorOf 2 + floorOf 3 ≤ 0x100
      (ok → exec (.weirCfgWrite a v) s = .next { s with weirs := s.weirs.set k w }) ∧ (¬ ok → exec (.weirCfgWrite a v) s = .next s)) ∧
    (∀ p : WeirPath, s.basinMode ≠ 0 → weirExists p = true → ∃ t, exec (.weirRegulatorCycle p) s = .next t ∧ t.mem = s.mem ∧
      (∀ b : Fin 4,
        let y := s.weirs[weirIndex p b]
        let z := t.weirs[weirIndex p b]
        let cap := 256 * 16 * (max 1 y.depth.toNat) * weirCapacity p
        (y.en = false → z = y) ∧
        (y.en = true → y.queue = [] → z = { y with
          fl := min (y.fl + y.floor.toNat * weirCapacity p) cap, ce := min (y.ce + y.ceil.toNat * weirCapacity p) cap }) ∧
        (y.en = true → z.queue <:+ y.queue ∧ z.fl ≤ cap ∧ z.ce ≤ cap ∧ ∀ q ∈ y.queue, q ∉ z.queue → q.1 ∈ z.granted)) ∧
      (([0, 1, 2, 3] : List (Fin 4)).map (fun b => (s.weirs[weirIndex p b].queue.map (·.2)).sum)).sum ≤
        (([0, 1, 2, 3] : List (Fin 4)).map (fun b => (t.weirs[weirIndex p b].queue.map (·.2)).sum)).sum + weirCapacity p)

/-- A mark has been adopted (R340, R341, R346): its number and attempt, its time, the step length it gives, and PHASE 0. -/
def markAdopted (m : Mark) (s t : State) : Prop :=
  t.stg.number = m.number ∧ t.stg.attempt = m.attempt ∧ t.stg.sync = 2 ∧ t.stg.lastKind = (if m.rep then 2 else 1) ∧ t.stg.tmark = m.time ∧
    t.stg.marked = true ∧ t.stg.late = false ∧ t.stg.clamped = false ∧ t.stg.phase = 0 ∧ t.stg.held = s.stg.held ∧ t.stg.t = s.stg.t ∧
    t.stg.l = (if s.stg.marked = false then s.stg.linit else if m.rep then s.stg.l else BitVec.ofNat 40 (m.time.toNat - s.stg.tmark.toNat))

/-- What a mark offered to the stage does (R340), with the number of STAGE-class events to the host: adopted where it is the first after a
ROLE write, the next ADVANCE, or the next REPEAT; ignored where it is the last adopted mark again or SYNC is LOST; else SYNC is LOST. -/
def markOffered (m : Mark) (s t : State) : Prop :=
  let g := s.stg
  let next : Prop := (m.rep = false ∧ m.number = g.number + 1 ∧ m.attempt = 0) ∨
    (m.rep = true ∧ m.number = g.number ∧ m.attempt.toNat = g.attempt.toNat + 1)
  let same : Prop := g.lastKind = (if m.rep then 2 else 1) ∧ m.number = g.number ∧ m.attempt = g.attempt
  (g.sync = 1 ∨ (g.sync = 2 ∧ next) → markAdopted m s t) ∧ (g.sync = 2 ∧ ¬ next ∧ same ∨ g.sync = 3 → t = s) ∧
    (g.sync = 2 → ¬ next → ¬ same → t.stg = { g with sync := 3, mismatch := true } ∧
      t.reports = s.reports ++ [{ unit := 0x7001, cls := 0x0E, stage := s.stageNumber, detail := 2, job := 0xFFFF, joined := [] }])

/-- Marks on the Rill and on the wire (R334-R341, R346): a message of the group in its current epoch, with SOURCE Rill, offers its mark at
its arrival less its hops; any other message changes nothing. With SOURCE both a Rill mark is held behind those that wait, once, and its
wire copy is offered in its place. A frame with a good CRC, with SOURCE wire, offers its mark at the mark edge
less WIRECOMP; a bad one is counted. The oldest held Rill mark whose wire copy does not come is offered and counted. A member regenerates
every transition of STAGE_IN. -/
def Obligations.StageMarks : Prop :=
  ∀ (s : State), s.stg.role = 1 →
    let g := s.stg
    (∀ (m : StageMsg) (rep : Bool),
      let ins : Instr := if rep then .stageMessageRepeat m else .stageMessageAdvance m
      let form : Prop := fieldN m.w0 0 4 = (if rep then 2 else 1) ∧ fieldN m.w0 4 4 = 0 ∧ fieldN m.w0 56 8 = 0 ∧ fieldN m.w2 32 32 = 0 ∧
        m.w3 = 0 ∧ m.w0.extractLsb' 40 16 = g.group
      let mark : Mark := { rep := rep, number := m.w1, attempt := m.w0.extractLsb' 8 8,
                           time := BitVec.ofNat 64 (g.t.toNat - fieldN m.w0 32 8 * g.rillhop.toNat) }
      (¬ form → exec ins s = .next s) ∧
      (form → pendingAt s m = none → epochCurrent s m = false → exec ins s = .next s) ∧
      (form → pendingAt s m = none → epochCurrent s m = true → g.source = 0 → ∃ t, exec ins s = .next t ∧ markOffered mark s t) ∧
      (form → pendingAt s m = none → epochCurrent s m = true → g.source = 2 → g.byWire = false → (g.sync = 1 ∨ g.sync = 2) →
        exec ins s = .next (if g.held.any (sameMark mark) then s else s.modStg (fun g => { g with held := g.held ++ [mark] })))) ∧
    (∀ (m : Mark) (edge : W64), g.source = 1 → m.time = BitVec.ofNat 64 (edge.toNat - g.wirecomp.toNat) →
      ∃ t, exec (.wireMarkFrame (wireFrame m) edge) s = .next t ∧ markOffered m s t) ∧
    (∀ (m : Mark) (edge : W64) (h : Mark) (r : List Mark), g.source = 2 → m.time = BitVec.ofNat 64 (edge.toNat - g.wirecomp.toNat) →
      g.held = h :: r → sameMark m h = true →
      ∃ t, exec (.wireMarkFrame (wireFrame m) edge) s = .next t ∧ markOffered m (s.modStg (fun g => { g with held := r })) t) ∧
    (∀ (f : BitVec 100) (edge : W64), g.source ≠ 0 →
      (f.extractLsb' 92 8 ≠ 0xE2 ∨ wireCrc (f.extractLsb' 16 76) ≠ f.extractLsb' 0 16 ∨ (f.extractLsb' 88 4).toNat ∉ [1, 2]) →
      exec (.wireMarkFrame f edge) s = .next (s.modStg (fun g => { g with wiremiss := stick 8 g.wiremiss }))) ∧
    (g.held = [] → exec .heldMarkTimeout s = .next s) ∧
    (∀ h r, g.held = h :: r → ∃ t, exec .heldMarkTimeout s = .next t ∧
      markOffered h (s.modStg (fun g => { g with held := r, wiremiss := stick 8 g.wiremiss })) t) ∧
    (∀ level, exec (.stageInTransition level) s = .next (s.modStg (fun g => { g with stageIn := level, stageOut := level })))

/-- Acknowledgement and the master (R333, R344, R345): a write of ST_ACKCTL for another attempt, or an ACK that does not fit, is counted as
stale, and a REPEAT_REQ that does not fit is ignored; READY sets STAGE_ACKED; the master marks its members, advances when all are marked
and its deadline has not expired, and repeats at a request, its deadline or the loss of a member until ATTEMPT would exceed MAXREPEAT,
where it reports STUCK once and emits no mark. -/
def Obligations.StageMaster : Prop :=
  ∀ (s : State), s.stg.sync = 2 → (∀ g, groupOf s s.stg.group = some g → s.far.groups[g].pend = none) →
    let g := s.stg
    let stale (ins : Instr) : Prop := ∃ t, exec ins s = .next t ∧ t.stg = { g with stalew := stick 8 g.stalew }
    let repeats (ins : Instr) : Prop :=
      (g.halted = true → ∃ t, exec ins s = .next t ∧ t.stg = g ∧ t.reports = s.reports) ∧
      (g.halted = false → g.attempt.toNat + 1 ≤ g.maxrep.toNat → ∃ t, exec ins s = .next t ∧
        markAdopted { rep := true, number := g.number, attempt := g.attempt + 1, time := g.t } s t) ∧
      (g.halted = false → g.maxrep.toNat < g.attempt.toNat + 1 → ∃ t, exec ins s = .next t ∧ t.stg = { g with stuck := true, halted := true } ∧
        ∃ r, t.reports = s.reports ++ [r] ∧ r.cls = 0x0E ∧ r.detail = 3)
    let due : Prop :=
      let d := if g.deadline = 0 then 3 * g.l.toNat else 1000 * g.deadline.toNat
      0 < d ∧ d ≤ g.t.toNat - g.tmark.toNat
    let msgOk (m : StageMsg) (k : Nat) : Prop := msgFormOk s m = true ∧ mKind m = k ∧ epochCurrent s m = true
    (∀ attempt number, (number ≠ g.number.truncate 48 ∨ attempt ≠ g.attempt) →
      stale (.stAckctlReady attempt number) ∧ stale (.stAckctlReqrep attempt number)) ∧
    (g.role ≠ 0 → (∃ t, exec (.stAckctlReady g.attempt (g.number.truncate 48)) s = .next t ∧ t.stg.acked = true ∧
      t.stg.number = g.number ∧ t.stg.attempt = g.attempt ∧ t.mem = s.mem)) ∧
    (g.role = 1 → ∃ t, exec (.stAckctlReqrep g.attempt (g.number.truncate 48)) s = .next t ∧ t.stg = g) ∧
    (g.role = 2 ∨ g.role = 3 →
      repeats (.stAckctlReqrep g.attempt (g.number.truncate 48)) ∧
      (due → repeats .masterDeadline ∧ repeats .masterAdvance) ∧
      (∀ dev, dev ∈ g.expected → repeats (.memberLost dev)) ∧
      (¬ due → g.halted = false → g.expected ≠ [] → (∀ d ∈ g.expected, d ∈ g.ackedBy) → 1000 * g.minstep.toNat ≤ g.t.toNat - g.tmark.toNat →
        ∃ t, exec .masterAdvance s = .next t ∧
        markAdopted { rep := false, number := g.number + 1, attempt := 0, time := g.t } s t)) ∧
    (g.role = 2 → ∀ m,
      (msgOk m 3 → m.w1 = g.number + 1 → mAttempt m = g.attempt → mSender m ∈ g.expected →
        ∃ t, exec (.stageAck m) s = .next t ∧ t.stg = { g with
          ackedBy := if mSender m ∈ g.ackedBy then g.ackedBy else g.ackedBy ++ [mSender m] }) ∧
      (msgOk m 3 → (m.w1 ≠ g.number + 1 ∨ mAttempt m ≠ g.attempt ∨ mSender m ∉ g.expected) → stale (.stageAck m)) ∧
      (msgOk m 4 → m.w1 = g.number → mAttempt m = g.attempt → repeats (.repeatReq m)) ∧
      (msgOk m 4 → (m.w1 ≠ g.number ∨ mAttempt m ≠ g.attempt) → exec (.repeatReq m) s = .next s))

/-- Configuration, phase, late marks and event slots (R332, R333, R341-R343, R348-R350): a write that changes ROLE, GROUP or BASIN, or that
finds SYNC LOST, drops every firing that waits, and every write loads L; PHASE never falls within an attempt and the wells' copies follow
it, which read zero while ROLE is OFF; STAGE_LATE fires once; a slot takes a lawful write without its reserved bits
and reports an unlawful one; the firing at the head of the dispatch acts as its slot stood when it fired, and leaves. -/
def Obligations.StagePhaseAndSlots : Prop :=
  ∀ (s : State),
    let g := s.stg
    (∀ v : W64,
      let changes : Prop := v.extractLsb' 62 2 ≠ g.role ∨ v.extractLsb' 58 2 ≠ g.basin ∨ v.extractLsb' 32 16 ≠ g.group ∨
        (g.sync = 3 ∧ v.extractLsb' 62 2 ≠ (0 : BitVec 2))
      ∃ t, exec (.stCfgWrite v) s = .next t ∧ t.stg.role = v.extractLsb' 62 2 ∧ t.stg.basin = v.extractLsb' 58 2 ∧
        t.stg.group = v.extractLsb' 32 16 ∧ t.stg.maxrep = v.extractLsb' 48 8 ∧ t.stg.number = g.number ∧ t.stg.l = g.linit ∧ t.stg.halted = false ∧
        (changes → t.stg.dispatch = [] ∧ t.stg.held = [] ∧ t.stg.sync = if v.extractLsb' 62 2 = (0 : BitVec 2) then 0 else 1) ∧
        (¬ changes → t.stg.dispatch = g.dispatch ∧ t.stg.held = g.held ∧ t.stg.sync = g.sync)) ∧
    (g.role = 0 → ∃ t, exec .phaseUpdate s = .next t ∧ t.stg = g ∧ t.mem = s.mem ∧
      ∀ w : WellId, (t.cpu w).stagePhase = 0 ∧ (t.cpu w).stageNumber = 0 ∧ (t.cpu w).gN = (s.cpu w).gN ∧ (t.cpu w).pc = (s.cpu w).pc) ∧
    (g.role ≠ 0 → g.marked = true → ∃ t, exec .phaseUpdate s = .next t ∧
      t.stg.phase = (if g.l = 0 then g.phase else
        BitVec.ofNat 16 (max g.phase.toNat (min (65536 * (g.t.toNat - g.tmark.toNat) / g.l.toNat) 0xFFFF))) ∧
      t.stg.number = g.number ∧ t.mem = s.mem ∧
      (∀ w : WellId, (t.cpu w).stagePhase = t.stg.phase ∧ (t.cpu w).stageNumber = g.number ∧ (t.cpu w).gN = (s.cpu w).gN ∧
        (t.cpu w).pc = (s.cpu w).pc)) ∧
    (g.role ≠ 0 → g.marked = true → g.l ≠ 0 → g.timeout ≠ 0 → g.late = false →
      g.timeout.toNat * g.l.toNat < 4 * (g.t.toNat - g.tmark.toNat) →
      ∃ t, exec .stageLate s = .next t ∧ t.stg = { g with late := true, sLate := true } ∧
        ∃ r, t.reports = s.reports ++ [r] ∧ r.unit = 0x7001 ∧ r.detail = 1) ∧
    (g.late = true ∨ 4 * (g.t.toNat - g.tmark.toNat) ≤ g.timeout.toNat * g.l.toNat → exec .stageLate s = .next s) ∧
    (∀ (n : Fin 256) (v : W64),
      let x := g.slots[n]
      (slotWriteOk v (x.p2.getD x.w2) = false → exec (.eventSlotWrite n 0 v) s =
        .next (s.modStg (fun g => { g with badslot := true, badidx := BitVec.ofNat 8 n.val }))) ∧
      (g.sync = 2 → slotWriteOk v (x.p2.getD x.w2) = true →
        exec (.eventSlotWrite n 0 v) s = .next (s.modStg (fun g => { g with slots := g.slots.set n { x with p0 := some (v &&& ~~~0x00FF000000000000#64) } }))) ∧
      (g.sync = 2 → exec (.eventSlotWrite n 2 v) s = .next (s.modStg (fun g => { g with slots := g.slots.set n { x with p2 := some v } }))) ∧
      (g.sync ≠ 2 → x.p0 = none → x.p2 = none → exec (.eventSlotWrite n 1 v) s = .next (s.modStg (fun g => { g with
        slots := g.slots.set n { x with w1 := v, p1 := none, fired := false, now := false, earlier := false } })))) ∧
    (∀ x r, g.dispatch = x :: r → (∀ n, n ≠ x.slot → exec (.eventSlotFire n) s = .next s) ∧
      ∃ t, exec (.eventSlotFire x.slot) s = .next t ∧ t.stg.dispatch = r ∧
        (fieldN x.w0 56 4 = 3 → t = { s.modStg (fun g => { g with dispatch := r }) with
          inflight := s.inflight ++ [.inc .gauge (x.w2.truncate 12) (BitVec.ofNat 32 (fieldN x.w2 16 16))] }))

/-- Flits on a Faranaor link (R355-R358, R362, R369). A bad flit is counted and NAKed once; a DATA flit out of order is NAKed and delivers
nothing; a good one moves the expected SEQ, and its ACK, credits and counts are taken; a MAINT flit corrects the credits by the signed
difference of the counts. Eight NAKs for one SEQ and 20 us without progress retrain the link, and so does a degraded link's first slot with
nothing to send. A transmit slot carries a MAINT flit every 512 slots, else a resend bit for bit, else a DATA flit of a channel with data,
credit and room, else an IDLE flit. In the KEY step it carries MAINT flits, and those that arrive confirm a slot. Keys are counted for each
transmit slot. -/
def Obligations.FaranaorFlits : Prop :=
  ∀ (l : LinkId) (s : State),
    let k := s.far.links[l]
    let up : Prop := s.linkOn l = true ∧ k.state = .active
    let bad (f : Flit) : Prop := f.fecBad = true ∨ f.crc ≠ crc32c (wordBytes f.hdr ++ f.body) ∨ fType f = 0 ∨ 4 < fType f
    let naked (k : Link) : Link := if k.nakSent then k else { k with nakOwed := true, nakSent := true }
    let refused (ins : Instr) : Prop := exec ins s = .next (s.modLink l (fun k => naked { k with crcerr := countUp k.crcerr 1 }))
    let cr (f : Flit) (v : Fin 5) : Nat := if fCrvc f = v.val then fCrn f else 0
    let acked (f : Flit) (t : State) : Prop := ∀ a b, k.replay = a ++ b → a.length < 4096 →
      (∀ x r, k.replay = x :: r → fAck f = x.seq + BitVec.ofNat 12 a.length) → t.far.links[l].replay = b
    let credited (f : Flit) (t : State) : Prop := ∀ v : Fin 5, t.far.links[l].credits[v] = k.credits[v] + cr f v
    let keying : Prop := s.linkOn l = true ∧ (k.state = .training ∨ k.state = .retrain) ∧ k.step = 4
    let used : Nat := if k.keyslot then k.keyFlits[1] else k.keyFlits[0]
    let calm : Prop := k.replay = [] ∧ ∀ v : Fin 5, k.txq[v] = [] ∧ k.txRem[v].2 = []
    let maint (t : State) : Prop := ∃ f, t.far.links[l].out = some f ∧ fType f = 3 ∧ f.crc = crc32c (wordBytes f.hdr ++ f.body) ∧
      f.body.length = 244 ∧ f.body[16]? = some ((if k.keys[(2 : Fin 4)].isSome then 1 else 0) + (if k.keys[(3 : Fin 4)].isSome then 2 else 0)) ∧
      t.far.links[l].sinceMaint = 0 ∧ t.far.links[l].nextSeq = k.nextSeq
    (¬ up → ∀ f, exec (.dataFlit l f) s = .next s ∧ exec (.idleFlit l f) s = .next s) ∧
    (¬ up → ¬ keying → exec (.flitSlot l) s = .next s ∧ ∀ f counts ready, exec (.maintFlit l f counts ready) s = .next s) ∧
    (keying → (∃ t, exec (.flitSlot l) s = .next t ∧ maint t ∧ t.mem = s.mem) ∧
      ∀ f counts, ¬ bad f → fType f = 3 →
        (∀ (i : Fin 2), exec (.maintFlit l f counts (some (i == 1))) s =
          .next (s.modLink l (fun k => { k with peerReady := k.peerReady.set i true }))) ∧
        exec (.maintFlit l f counts none) s = .next s) ∧
    (keying → ∀ f counts ready, bad f → exec (.maintFlit l f counts ready) s = .next (s.modLink l (fun k => { k with crcerr := countUp k.crcerr 1 }))) ∧
    (up →
      (∀ f counts ready, bad f → refused (.dataFlit l f) ∧ refused (.idleFlit l f) ∧ refused (.maintFlit l f counts ready)) ∧
      (∀ f, ¬ bad f → fType f = 1 → fSeq f ≠ k.expSeq → exec (.dataFlit l f) s = .next (s.modLink l naked)) ∧
      (∀ (f : Flit) (v : Fin 5), ¬ bad f → fType f = 1 → fSeq f = k.expSeq → fNak f = false → fVc f = v.val → k.enc = false → fPstart f = 63 →
        k.rxRem[v] = [] → ∃ t, exec (.dataFlit l f) s = .next t ∧ acked f t ∧ credited f t ∧ t.far.links[l].expSeq = k.expSeq + 1 ∧
          t.far.links[l].nakSent = false ∧ t.far.links[l].owed = k.owed.set v (k.owed[v] + 1) ∧ t.mem = s.mem) ∧
      (∀ f, ¬ bad f → fType f = 2 → fNak f = false → ∃ t, exec (.idleFlit l f) s = .next t ∧ acked f t ∧ credited f t ∧
        t.far.links[l].expSeq = k.expSeq ∧ t.far.links[l].nakSent = (k.nakSent || fSeq f != k.expSeq) ∧ t.mem = s.mem) ∧
      (∀ f (counts : Vector (BitVec 16) 8) ready, ¬ bad f → fType f = 3 → fNak f = false →
        ∃ t, exec (.maintFlit l f counts ready) s = .next t ∧ acked f t ∧ t.mem = s.mem ∧
          (∀ v : Fin 5, t.far.links[l].seen[v] = counts[v.val] ∧
            t.far.links[l].credits[v] =
              (((k.credits[v] + cr f v : Nat) : Int) + (counts[v.val] - (k.seen[v] + BitVec.ofNat 16 (cr f v))).toInt).toNat) ∧
          (∀ b, ready = some b → t.far.links[l].peerReady[(if b then 1 else 0 : Fin 2)] = true)) ∧
      (∀ f, ¬ bad f → fType f = 2 → fNak f = true → fSeq f = k.expSeq → k.replay = [] ∨ (∃ x r, k.replay = x :: r ∧ fAck f = x.seq) →
        ∃ t, exec (.idleFlit l f) s = .next t ∧ t.far.links[l].resend = k.replay.length ∧ t.far.links[l].replay = k.replay ∧
          t.far.links[l].retry = countUp k.retry 1 ∧
          (k.nakSeq = fAck f → k.nakCount = 7 → t.far.links[l].state = .retrain ∧ t.far.links[l].step = 1) ∧
          (k.nakSeq ≠ fAck f → t.far.links[l].state = .active ∧ t.far.links[l].nakCount = 1)) ∧
      (exec (.retryTimeout l) s = .next (if k.replay = [] then s else s.modLink l (fun k => { k with state := .retrain, step := 1, retrainDue := false }))) ∧
      (exec (.keyChangeRequest l) s = .next (s.modLink l (fun k => { k with keyReq := k.keyReq || (k.enc && decide (2 ^ 39 ≤ used)) }))) ∧
      (exec (.keyexh l) s = .next (s.modLink l (fun k => { k with reason := if k.enc = true ∧ 2 ^ 40 ≤ used then 10 else k.reason }))) ∧
      (k.retrainDue = true → calm → exec (.flitSlot l) s = .next (s.modLink l (fun k => { k with state := .retrain, step := 1, retrainDue := false }))) ∧
      (k.retrainDue = false ∨ ¬ calm → 511 ≤ k.sinceMaint → ∃ t, exec (.flitSlot l) s = .next t ∧ maint t ∧ t.mem = s.mem) ∧
      (k.sinceMaint < 511 → k.resend ≠ 0 → k.resend ≤ k.replay.length → ∃ t x, exec (.flitSlot l) s = .next t ∧
        k.replay[k.replay.length - k.resend]? = some x ∧ t.far.links[l].out = some x.flit ∧ t.far.links[l].resend = k.resend - 1 ∧
        t.far.links[l].replay = k.replay) ∧
      (k.sinceMaint < 511 → k.resend = 0 → k.enc = false → waits k 0 none = true → 0 < k.credits[0] → k.replay.length < 512 →
        k.win0 < k.cap0.toNat → ∃ t f, exec (.flitSlot l) s = .next t ∧ t.far.links[l].out = some f ∧ fType f = 1 ∧ fVc f = 0 ∧
          fSeq f = k.nextSeq ∧ fAck f = k.expSeq ∧ fNak f = k.nakOwed ∧ f.body.length = 244 ∧ f.crc = crc32c (wordBytes f.hdr ++ f.body) ∧
          t.far.links[l].nextSeq = k.nextSeq + 1 ∧ t.far.links[l].credits[0] = k.credits[0] - 1 ∧
          t.far.links[l].replay = k.replay ++ [{ seq := k.nextSeq, flit := f }]) ∧
      (k.retrainDue = false ∨ ¬ calm → k.sinceMaint < 511 → k.resend = 0 → s.basinMode = 0 → (∀ v : Fin 5, waits k v none = false) →
        ∃ t f, exec (.flitSlot l) s = .next t ∧ t.far.links[l].out = some f ∧ fType f = 2 ∧ fSeq f = k.nextSeq ∧ fAck f = k.expSeq ∧
          t.far.links[l].nextSeq = k.nextSeq ∧ t.far.links[l].replay = k.replay))

/-- The life of a Faranaor link (R357-R361, R364, R365, R370, R371, R374): TRAIN starts training with the credits of FB_VCCRED, and each
step that completes leads to the next (OPTICAL with received power of at least -12 dBm); EXCHANGE checks version, fabric, device and encryption in that order; a link that fails is DOWN
with its reason and every access on it ends with FABRIC_DOWN. A link that is not ACTIVE leaves the routes and an ACTIVE one returns. Poor
optics degrade or retrain it. -/
def Obligations.FaranaorLinks : Prop :=
  ∀ (l : LinkId) (s : State), s.linkOn l = true →
    let k := s.far.links[l]
    let at_ (t : State) : Link := t.far.links[l]
    let trains (ins : Instr) : Prop := ∃ t, exec ins s = .next t ∧ (at_ t).state = .training ∧ (at_ t).step = 0 ∧ (at_ t).reason = 0 ∧
      (∀ v : Fin 5, (at_ t).credits[v] = 8 * (k.cred.extractLsb' (8 * v.val) 8).toNat) ∧ (at_ t).replay = [] ∧ (at_ t).nextSeq = 0 ∧ (at_ t).expSeq = 0 ∧
      (∀ m : LinkId, m ≠ l → t.far.links[m] = s.far.links[m]) ∧ t.mem = s.mem ∧ t.wells = s.wells
    let fails (ins : Instr) (reason : BitVec 4) : Prop := ∃ t, exec ins s = .next t ∧ (at_ t).state = .down ∧ (at_ t).reason = reason ∧
      (at_ t).replay = [] ∧ (∀ q ∈ t.far.remote, q.link ≠ l) ∧ t.mem = s.mem
    let retrains (ins : Instr) : Prop := exec ins s =
      .next (if k.state = .active then s.modLink l (fun k => { k with state := .retrain, step := 1, retrainDue := false }) else s)
    let inTraining : Prop := k.state = .training ∨ k.state = .retrain
    let linked (ins : Instr) : Prop := ∃ t, exec ins s = .next t ∧ (at_ t).state = .active ∧ (at_ t).resend = k.replay.length ∧ t.mem = s.mem ∧
      (s.far.cfgNew = true → t.devValid = true ∧ t.devId = s.far.cfgId) ∧ (s.far.cfgNew = false → t.devId = s.devId)
    (k.state = .disabled ∨ k.state = .down → trains (.fbLctlTrain l)) ∧
    (k.state ≠ .disabled → k.state ≠ .down → exec (.fbLctlTrain l) s = .next s) ∧
    (k.state = .down → k.retryMs ≠ 0 → trains (.linkRetryTimer l)) ∧
    (k.state ≠ .down ∨ k.retryMs = 0 → exec (.linkRetryTimer l) s = .next s) ∧
    (∃ t, exec (.fbLctlDisable l) s = .next t ∧ (at_ t).state = .disabled ∧ (at_ t).replay = [] ∧ (∀ v : Fin 5, (at_ t).txq[v] = []) ∧
      (∀ q ∈ t.far.remote, q.link ≠ l) ∧ t.mem = s.mem) ∧
    retrains (.fbLctlRetrain l) ∧ retrains (.lossOfSignal l) ∧
    (∀ bias txpwr rxpwr, inTraining →
      let ins : Instr := .trainingStepComplete l bias txpwr rxpwr
      (k.step = 0 → -1200 ≤ rxpwr.toInt →
        exec ins s = .next (s.modLink l (fun k => { k with step := 1, bias := bias, bias0 := bias, txpwr := txpwr, rxpwr := rxpwr }))) ∧
      (k.step = 0 → rxpwr.toInt < -1200 → exec ins s = .next s) ∧
      (k.step = 1 → exec ins s = .next (s.modLink l (fun k => { k with step := 2 }))) ∧
      (k.step = 2 → ∃ t f, exec ins s = .next t ∧ (at_ t).step = 3 ∧ (at_ t).out = some f ∧ fType f = 4) ∧
      (k.step = 3 → k.peerTrain = none → exec ins s = .next s) ∧
      (k.step = 3 → ∀ p, k.peerTrain = some p →
        (k.encReq = true → p.1 = true → exec ins s = .next (s.modLink l (fun k => { k with step := 4, enc := true }))) ∧
        (k.encReq = false ∨ p.1 = false → linked ins)) ∧
      (k.step = 4 → (∀ i : Fin 4, k.keys[i].isSome = true) → (∀ i : Fin 2, k.peerReady[i] = true) → linked ins)) ∧
    (k.state = .training → k.step.val < 3 → fails (.trainingStepTimeout l) (BitVec.ofNat 4 (k.step.val + 1))) ∧
    (k.state = .retrain → fails (.trainingStepTimeout l) 9) ∧
    (k.state = .training → k.step = 3 → ∀ f : Flit, f.fecBad = false → f.crc = crc32c (wordBytes f.hdr ++ f.body) → fType f = 4 →
      let byte (i : Nat) : Byte := f.body.getD i 0
      let version : Prop := byte 0 = 1
      let fabric : Prop := BitVec.ofNat 32 (ofBytes ((f.body.drop 16).take 4)) = s.far.fabric
      let other : Prop := BitVec.ofNat 16 (ofBytes ((f.body.drop 2).take 2)) ≠ s.far.cfgId
      let encReq := (byte 5).getLsbD 0
      let enc : Prop := (k.encReq = true ∨ encReq = true) → k.encReq = true ∧ encReq = true ∧ (byte 8).getLsbD 0 = true
      (¬ version → fails (.trainFlit l f) 4) ∧ (version → ¬ fabric → fails (.trainFlit l f) 5) ∧
      (version → fabric → ¬ other → fails (.trainFlit l f) 6) ∧ (version → fabric → other → ¬ enc → fails (.trainFlit l f) 7) ∧
      (version → fabric → other → enc → ∃ t, exec (.trainFlit l f) s = .next t ∧ (at_ t).state = .training ∧ (at_ t).step = 3 ∧
        (∃ p, (at_ t).peerTrain = some p ∧ p.1 = encReq) ∧ (at_ t).peerId = BitVec.ofNat 16 (ofBytes ((f.body.drop 2).take 2)) ∧
        t.mem = s.mem)) ∧
    (k.state = .active → exec (.routeRestore l) s =
      .next (s.modFar (fun x => { x with removed := x.removed &&& ~~~(BitVec.ofNat 36 (2 ^ l.val)) }))) ∧
    (k.state ≠ .active → exec (.routeRestore l) s = .next s) ∧
    (k.state = .active → exec (.routeRemove l) s = .next s) ∧
    (k.state = .retrain → exec (.routeRemove l) s =
      .next (s.modFar (fun x => { x with removed := x.removed ||| BitVec.ofNat 36 (2 ^ l.val) }))) ∧
    (k.state = .down → (∀ g : Fin 64, s.far.groups[g].inUse = true → s.far.groups[g].master ≠ s.devId) →
      ∃ t, exec (.routeRemove l) s = .next t ∧ t.far.removed = s.far.removed ||| BitVec.ofNat 36 (2 ^ l.val) ∧
        (∀ q ∈ t.far.remote, q ∈ s.far.remote ∧ bitB (routeWord t q.dev) 63 = true ∧
          (usable t q.dev ≠ [] ∨ t.far.links[q.link].state = .retrain)) ∧ t.mem = s.mem) ∧
    (k.state = .active → ∀ (received corrected uncorrectable : Nat) (rxpwr bias : BitVec 16),
      ∃ t, exec (.linkHealthCheck l received corrected uncorrectable rxpwr bias) s = .next t ∧
        (at_ t).corr = countUp k.corr corrected ∧ (at_ t).uncorr = countUp k.uncorr uncorrectable ∧ (at_ t).rxpwr = rxpwr ∧
        ((at_ t).degraded = true ↔ k.degraded = true ∨ received < corrected * 100000 ∨ 10 < uncorrectable ∨ rxpwr.toInt < -900) ∧
        (at_ t).state = (if rxpwr.toInt < -1200 then .retrain else .active) ∧
        (-1200 ≤ rxpwr.toInt → (at_ t).retrainDue = (k.retrainDue || ((at_ t).degraded && !k.degraded))) ∧ t.mem = s.mem)

/-- A packet that a DATA flit carries whole is that packet (R356): its body from PSTART 0 holds the header, the data and zeros. The
command is then the packet's own, on the link whose SEQ and credits the flit has moved.
Packets of other devices (R318, R356, R364-R366). A packet for another device goes on over the link that R364 picks with one hop more.
One for this device that no window admits is counted and answered with FLOW 1; an admitted READ, WRITE or ATOMIC of memory that serves is
done and answered, unless it waits at the weirs or behind one of its source that waits; and a RESP ends the access it answers, with the
status that FLOW gives. -/
def Obligations.FaranaorPacketsMoveMemory : Prop :=
  (
    ∀ (l : LinkId) (s : State) (f : Flit) (q : Packet) (v : Fin 5),
      let k := s.far.links[l]
      let t := takeHeader l f (s.modLink l (fun k =>
        { k with expSeq := k.expSeq + 1, nakSent := false, nakOwed := false, authRun := 0, extRx := k.extRx + 1 }))
      let t := t.modLink l (fun k => { k with owed := k.owed.set v (k.owed[v] + 1) })
      s.linkOn l = true → k.state = .active → k.enc = false → k.rxRem[v] = [] → f.fecBad = false → f.crc = crc32c (wordBytes f.hdr ++ f.body) →
      fType f = 1 → fSeq f = k.expSeq → fVc f = v.val → fPstart f = 0 → pKind q ≠ 0 →
      q.data.length = (if pKind q = 1 then 0 else pLen q) → q.data.length ≤ 228 →
      f.body = wordBytes q.w0 ++ wordBytes q.w1 ++ q.data ++ List.replicate (228 - q.data.length) 0 → forUs t q = true →
      (pKind q < 4 → ioOf t q = (if l.val < 18 then 0 else 1)) →
      (pKind q = 1 → exec (.dataFlit l f) s = exec (.readPacket q) t) ∧
      (pKind q = 2 → exec (.dataFlit l f) s = exec (.writePacket q) t) ∧
      (pKind q = 3 → exec (.dataFlit l f) s = exec (.atomicPacket q) t) ∧
      (pKind q = 4 → exec (.dataFlit l f) s = exec (.respPacket q) t) ∧
      (pKind q = 6 → exec (.dataFlit l f) s = exec (.stagePacket q) t) ∧
      (8 < pKind q → exec (.dataFlit l f) s = .next (t.modLink l (fun k => { k with drop := countUp k.drop 1 })))) ∧
  (
    ∀ (q : Packet) (s : State),
      let pa := pAddr q
      let resp (flow : Nat) (data : List Byte) (s : State) : State :=
        (sendPacket (weirBasin s pa) (mkPacket 4 2 0 s.devId (pSrc q) (pTag q) data.length flow 0 data) s).2
      let ended (r : RemoteReq) (st : Option (BitVec 8)) (t : State) : Prop :=
        t.far.remote = s.far.remote.filter (fun y => y.tag != r.tag) ∧ t.mem = s.mem ∧
          t.pumps[r.pump].queue = s.pumps[r.pump].queue.map (fun d => if d.seq = r.seq then
            { d with remote := d.remote - r.bytes, err := match st with | some e => some (d.err.getD e) | none => d.err } else d)
      (forUs s q = false →
        let us := usable s (pDst q)
        let n := ((pSrc q).toNat ^^^ (pDst q).toNat ^^^ pFlow q) % us.length
        ∀ l : LinkId, bitB (routeWord s (pDst q)) 63 = true → us[if pVc q = 1 ∨ pVc q = 2 then n else 0]? = some l → pHops q + 1 ≤ s.far.maxhop.toNat →
          ∀ ins ∈ [Instr.readPacket q, .writePacket q, .atomicPacket q, .respPacket q, .mgmtPacket q], pKind q ≠ 6 →
            ∃ t q', exec ins s = .next t ∧ pHops q' = pHops q + 1 ∧ q'.w1 = q.w1 ∧ q'.data = q.data ∧ pDst q' = pDst q ∧ pSrc q' = pSrc q ∧
              pKind q' = pKind q ∧ t.mem = s.mem ∧ t.wells = s.wells ∧
              t.far.links[l].txq[pVc q % 5] = s.far.links[l].txq[pVc q % 5] ++ [(0, .packet q')]) ∧
      (forUs s q = true → (∃ y ∈ s.far.waiting, pSrc y.2 = pSrc q) →
        ∀ x ∈ [(Instr.readPacket q, 1), (.writePacket q, 2), (.atomicPacket q, 3)],
          ∃ y, exec x.1 s = .next (s.modFar (fun f => { f with waiting := f.waiting ++ [(ioOf s q, y)] })) ∧ pKind y = x.2 ∧ pSrc y = pSrc q ∧
            pTag y = pTag q ∧ y.w1 = q.w1 ∧ y.data = q.data) ∧
      (forUs s q = true → s.prot = [] → s.MemOk → (∀ y ∈ s.far.waiting, pSrc y.2 ≠ pSrc q) →
        let bridge : Prop := s.domain (if ioOf s q = 0 then 41 else 43) = true
        let rejected (ins : Instr) : Prop := exec ins s = .next (resp 1 [] (s.modFar (fun x => { x with ingrej := countUp x.ingrej 1 })))
        let refused (ins : Instr) (st : BitVec 8) : Prop := exec ins s = .next (resp (if st = 0x09 then 2 else if st = 0x02 then 1 else st.toNat) [] s)
        (admitted s 1 (pSrc q) pa (pLen q) = false → rejected (.readPacket q)) ∧
        (admitted s 2 (pSrc q) pa q.data.length = false → rejected (.writePacket q)) ∧
        (admitted s 3 (pSrc q) pa 8 = false ∨ pa % 8 ≠ 0 → rejected (.atomicPacket q)) ∧
        (∀ st, admitted s 1 (pSrc q) pa (pLen q) = true → bridge → outsideRefusal s pa (pLen q) = some st → refused (.readPacket q) st) ∧
        (∀ st, admitted s 2 (pSrc q) pa q.data.length = true → bridge → outsideRefusal s pa q.data.length = some st →
          refused (.writePacket q) st) ∧
        (admitted s 1 (pSrc q) pa (pLen q) = true → ¬ bridge → refused (.readPacket q) stDomainOff) ∧
        (admitted s 2 (pSrc q) pa q.data.length = true → ¬ bridge → refused (.writePacket q) stDomainOff) ∧
        (∀ s', bridge → admitted s 2 (pSrc q) pa q.data.length = true → outsideRefusal s pa q.data.length = none →
          packetCross (ioOf s q) q q.data.length false s = (false, s') →
          ∃ y, exec (.writePacket q) s = .next (s'.modFar (fun f => { f with waiting := f.waiting ++ [(ioOf s q, y)] })) ∧ pKind y = 2 ∧
            pSrc y = pSrc q ∧ pTag y = pTag q ∧ y.w1 = q.w1 ∧ y.data = q.data) ∧
        (∀ w o, placeOf pa = .well w o → bridge → s.basinMode = 0 →
          (admitted s 1 (pSrc q) pa (pLen q) = true → outsideRefusal s pa (pLen q) = none → ueHit s.ue pa (pLen q) = false →
            ueHit s.ce pa (pLen q) = false →
            exec (.readPacket q) s = .next (resp 0 (s.readBytes pa (pLen q)) s)) ∧
          (admitted s 2 (pSrc q) pa q.data.length = true → outsideRefusal s pa q.data.length = none →
            ∃ t, exec (.writePacket q) s = .next t ∧ t.far = (resp 0 [] s).far ∧
              (∀ j (h : j < q.data.length), t.byteAt (pa + j) = q.data[j]) ∧
              (∀ a, a < pa ∨ pa + q.data.length ≤ a → t.byteAt a = s.byteAt a))) ∧
        (∀ n op, placeOf pa = .stack n → bridge → s.basinMode = 0 → admitted s 3 (pSrc q) pa 8 = true → pa % 8 = 0 →
          aopOf ((q.data.headD 0).toNat % 16) = some op → outsideRefusal s pa 8 = none → (sectorRead .normal (pa / 64 * 64) s).1 = false →
          ∃ t, exec (.atomicPacket q) s = .next t ∧ t.far = (resp 0 (wordBytes (s.readWord pa)) s).far ∧
            t.readWord pa = aopApply op (s.readWord pa) (bytesWord ((q.data.drop 8).take 8)) (bytesWord ((q.data.drop 16).take 8)) ∧
            (∀ a, a < pa ∨ pa + 8 ≤ a → t.byteAt a = s.byteAt a)) ∧
        (∀ r, s.far.remote.find? (fun y => y.tag == pTag q && y.dev == pSrc q) = some r →
          (pFlow q = 1 → ∃ t, exec (.respPacket q) s = .next t ∧ ended r (some 0x0C) t) ∧
          (pFlow q = 2 → ∃ t, exec (.respPacket q) s = .next t ∧ ended r (some 0x09) t) ∧
          (2 < pFlow q → ∃ t, exec (.respPacket q) s = .next t ∧ ended r (some (BitVec.ofNat 8 (pFlow q))) t) ∧
          (pFlow q = 0 → r.dest = none → r.ret = none → ∃ t, exec (.respPacket q) s = .next t ∧ ended r none t)) ∧
        (s.far.remote.find? (fun y => y.tag == pTag q && y.dev == pSrc q) = none →
          ∃ t, exec (.respPacket q) s = .next t ∧ t.mem = s.mem ∧ t.pumps = s.pumps ∧ t.far.remote = s.far.remote)) ∧
      (∀ tag r, s.far.remote.find? (fun y => y.tag == tag) = some r →
        ∃ t, exec (.remoteResponseTimeout tag) s = .next t ∧ ended r (some 0x04) t) ∧
      (∀ tag, s.far.remote.find? (fun y => y.tag == tag) = none → exec (.remoteResponseTimeout tag) s = .next s))

/-- Messages of the fabric (R337, R365, R367, R368, R371, R405-R408): a STAGE packet is its message; a notice names a device, whose
failure takes a coalescing entry; a group's change is prepared, answered, counted and cancelled, and the master starts one for S' = the
larger of S and NUMBER + 2. -/
def Obligations.FaranaorMessages : Prop :=
  ∀ (s : State),
    (∀ q, forUs s q = true → q.data.length = 32 →
      let m := stageOfBytes q.data
      (mKind m = 1 → exec (.stagePacket q) s = exec (.stageMessageAdvance m) s) ∧
      (mKind m = 2 → exec (.stagePacket q) s = exec (.stageMessageRepeat m) s) ∧
      (mKind m = 3 → exec (.stagePacket q) s = exec (.stageAck m) s) ∧ (mKind m = 4 → exec (.stagePacket q) s = exec (.repeatReq m) s)) ∧
    (∀ q, forUs s q = true → q.data.length ≠ 32 → exec (.stagePacket q) s = .next s) ∧
    (∀ q, forUs s q = true → (q.data.headD 0) = 0x11 → 8 ≤ q.data.length →
      exec (.mgmtPacket q) s = exec (.unreachable ((bytesWord (q.data.take 8)).extractLsb' 24 16)) s) ∧
    (∀ dev, s.stg.role ≠ 2 → s.stg.role ≠ 3 →
      let key : CoalKey := { dev := dev, unit := 0x6010, cls := 0x03, stage := s.stageNumber }
      (∀ i e, coalFind s key = some i → s.cf.coal[i] = some e → ∃ t, exec (.unreachable dev) s = .next t ∧ t.reports = s.reports ∧
        t.cf.coal = s.cf.coal.set i (some { e with count := stick 32 e.count, lastDev := s.devId, lastT := timeUs s }) ∧ t.mem = s.mem) ∧
      (coalFind s key = none → (∃ i : Fin 4096, s.cf.coal[i] = none) → ∃ (t : State) (i : Fin 4096) (e : Coal), exec (.unreachable dev) s = .next t ∧ s.cf.coal[i] = none ∧
        t.cf.coal = s.cf.coal.set i (some e) ∧ e.dev = dev ∧ e.cls = 0x03 ∧ e.unit = 0x6010 ∧ e.count = 1 ∧ e.firstDev = s.devId ∧
        (∃ r, t.reports = s.reports ++ [r] ∧ r.unit = 0x6010 ∧ r.cls = 0x0D) ∧ t.mem = s.mem)) ∧
    (∀ gid epoch stage list members master,
      let ins : Instr := .epochPrep gid epoch stage list members master
      let p : PendEpoch := { epoch := epoch, stage := stage, list := list, members := members, master := master, oks := [], moves := 0 }
      (∀ g, groupOf s gid = some g →
        let x := s.far.groups[g]
        (x.epoch + 1 = epoch → ∃ t, exec ins s = .next t ∧ t.far.groups = s.far.groups.set g { x with pend := some p } ∧ t.mem = s.mem ∧
          t.far = (sendGroup 0x21 gid epoch stage 0 master (s.modGroup g (fun x => { x with pend := some p }))).far) ∧
        (x.epoch + 1 ≠ epoch → x.pend = none → exec ins s = .next s)) ∧
      (groupOf s gid = none → s.devId ∉ members → exec ins s = .next s) ∧
      (groupOf s gid = none → s.devId ∈ members → (∃ g : Fin 64, s.far.groups[g].inUse = false) →
        ∃ t g, exec ins s = .next t ∧ s.far.groups[g].inUse = false ∧ groupOf t gid = some g ∧ t.far.groups[g].pend = some p ∧
          t.far.groups[g].epoch = epoch - 1)) ∧
    (∀ gid g epoch dev, groupOf s gid = some g →
      let x := s.far.groups[g]
      (x.master = s.devId → ∀ p, x.pend = some p → p.epoch = epoch → dev ∉ p.oks →
        exec (.epochOk gid epoch dev) s = .next (s.modGroup g (fun x => { x with pend := some { p with oks := p.oks ++ [dev] } }))) ∧
      (x.master ≠ s.devId ∨ x.pend = none ∨ (∃ p, x.pend = some p ∧ p.epoch ≠ epoch) → exec (.epochOk gid epoch dev) s = .next s) ∧
      (x.members ≠ [] → exec (.epochCancel gid) s = .next (s.modGroup g (fun x => { x with pend := none }))) ∧
      (∀ stage list members,
        (x.master ≠ s.devId ∨ x.pend ≠ none → exec (.membershipChange gid stage list members) s = .next s) ∧
        (x.master = s.devId → x.pend = none → ∃ t, exec (.membershipChange gid stage list members) s = .next t ∧ t.mem = s.mem ∧
          t.far.groups = s.far.groups.set g { x with pend := some {
            epoch := x.epoch + 1, stage := BitVec.ofNat 64 (max stage.toNat (s.stageNumber.toNat + 2)), list := list, members := members,
            master := x.master, oks := [s.devId], moves := 0 } })))

/-- Trigger counters and post queues (R278, R376-R378, R380, R381, R383, R386, R390, R410): an increment of a source arrives in its order
and is added, sticks the counter at its top or is counted as stray; a `trig.get` reads VALUE; a counter write clears SAT; a post queue
gives its next descriptor, which is armed or refused as INVALID; of the operations whose counter has reached its threshold the one armed
first fires, and starts unless four of its group run. An engine whose domain is off does nothing (R21). -/
def Obligations.CountersAndQueues : Prop :=
  ∀ (s : State),
    (∀ (src : IncSource) (c : BitVec 12) (n : BitVec 32) (pre post : List InFlight), s.inflight = pre ++ .inc src c n :: post →
      (∀ d m, .inc src d m ∉ pre) → (∀ w, src = .well w → .get w c ∉ pre) →
      let s0 := { s with inflight := pre ++ post }
      let e := engOfCtr c
      let x := s.counters[c.toFin]
      let ins : Instr := .triggerIncrement src
      (engOn s e = false → exec ins s = .next s0) ∧
      (engOn s e = true → grantOf s c = none → exec ins s = .next (s0.modEng e (fun y => { y with stray := stick 16 y.stray }))) ∧
      (∀ k, engOn s e = true → grantOf s c = some k →
        (x.sat = true → exec ins s = .next s0) ∧
        (x.sat = false → x.value.toNat + n.toNat < 2 ^ 32 →
          exec ins s = .next { s0 with counters := s.counters.set c.toFin { x with value := x.value + n } }) ∧
        (x.sat = false → 2 ^ 32 ≤ x.value.toNat + n.toNat → ∃ t r, exec ins s = .next t ∧ t.inflight = pre ++ post ∧
          t.counters = s.counters.set c.toFin { x with value := 0xFFFFFFFF, sat := true } ∧
          t.reports = s.reports ++ [r] ∧ r.unit = engUnit e ∧ r.cls = 0x09 ∧ r.job = s.jobs[k].handle k))) ∧
    (∀ src, (∀ d m, .inc src d m ∉ s.inflight) → exec (.triggerIncrement src) s = .next s) ∧
    (∀ (w : WellId) (c : BitVec 12) (pre post : List InFlight) bank n rest, s.inflight = pre ++ .get w c :: post →
      (∀ d, .get w d ∉ pre) → (∀ m, .inc (.well w) c m ∉ pre) → (s.cpu w).getPend = (bank, n) :: rest →
      (engOn s (engOfCtr c) = false → exec (.trigGetRequestArrival w) s = .next s) ∧
      (engOn s (engOfCtr c) = true → ∃ t, exec (.trigGetRequestArrival w) s = .next t ∧ t.inflight = pre ++ post ∧ (t.cpu w).getPend = rest ∧ t.mem = s.mem ∧
        t.counters = s.counters ∧ (t.cpu w).pc = (s.cpu w).pc ∧
        (∀ k, (t.cpu w).gGet bank k = if k = n ∧ k ≠ 0 then s.counters[c.toFin].value.setWidth 64 else (s.cpu w).gGet bank k))) ∧
    (∀ (c : CtrId) staged v, exec (.cfCtrWrite c staged v) s =
      .next (if engOn s (engOfCtr (BitVec.ofNat 12 c.val)) = true then { s with counters := s.counters.set c { value := v, sat := false, staged := staged } }
             else s)) ∧
    (∀ (e : EngineId) (q : Fin 16),
      let x := s.cf.engines[e]
      let y := x.queues[q]
      let k := fieldN y.w1 60 4 + 4
      let w : WellId := Fin.ofNat 128 (fieldN y.w0 24 7)
      let o := fieldN y.w0 0 24 + y.consumed.toNat % 2 ^ k * 64
      let ins : Instr := .postQueueRead e q
      let held : Nat := (x.ops.filter (fun o => !o.aborted)).length
      (engOn s e = false ∨ bitB y.w0 63 = false ∨ s.counters[(qPctr y).toFin].value.toNat ≤ y.consumed.toNat ∨ 256 ≤ held → exec ins s = .next s) ∧
      (engOn s e = true → bitB y.w0 63 = true → y.consumed.toNat < s.counters[(qPctr y).toFin].value.toNat → held < 256 → k ≤ 12 →
        bitB y.w0 62 = true → s.wellOn w = true → engBridgeOn s e = true → s.basinMode = 0 → max 0x700000 ((s.cpu w).drlim.toNat * 0x1000) ≤ o → o + 64 ≤ 0x720000 →
        ueHit s.ue (wellAddr w o) 64 = false → ueHit s.ce (wellAddr w o) 64 = false →
        let d : OWords := Vector.ofFn (fun (i : Fin 8) => s.readWord (wellAddr w o + 8 * i.val))
        let eaten (t : State) : Prop := ∃ z, t.cf.engines[e].queues[q] = z ∧ z = { y with consumed := y.consumed + 1 }
        (oValid s y d = true → ∃ t a, exec ins s = .next t ∧ eaten t ∧ t.mem = s.mem ∧ t.cf.engines[e].ops = x.ops ++ [a] ∧ a.words = d ∧
          a.queue = q ∧ a.phase = .armed ∧ a.wthr = oWthr d ∧ a.id = s.cf.nextId) ∧
        (oValid s y d = false → ∀ s2 (a : CollOp), a.status = 0x02 → a.word1 = 0 → a.seq = 0 → a.ran = (s.stageNumber, s.stg.attempt) →
          engWrite e (2 ^ 32 + q.val) (qAsid y) none d[6].toNat (statusBytes a) s = .ok () s2 → s2.cf = s.cf →
          ∃ t, exec ins s = .next t ∧ eaten t ∧ t.mem = s2.mem ∧ t.cf.engines[e].ops = x.ops))) ∧
    (∀ (c : CtrId) (e : EngineId) o g, o ∈ s.cf.engines[e].ops → mayFire s e c o = true → groupOf s (oGroup o.words) = some g →
      (∀ (f : EngineId), ∀ y ∈ s.cf.engines[f].ops, mayFire s f c y = true → o.id ≤ y.id ∧ (y.id = o.id → f = e)) →
      (∀ y ∈ s.cf.engines[e].ops, y.id = o.id → y = o) →
        let full : Prop := 4 ≤ runningIn s (oGroup o.words)
        ∃ t, exec (.operationFire c) s = .next t ∧ t.far.groups[g].seq = s.far.groups[g].seq + 1 ∧ t.mem = s.mem ∧
          (∀ y ∈ t.cf.engines[e].ops, y.id = o.id → y.phase ≠ .armed ∧ y.seq = s.far.groups[g].seq ∧ y.ran = (s.stageNumber, s.stg.attempt)) ∧
          (full → ∀ y ∈ t.cf.engines[e].ops, y.id = o.id → y.phase = .fired) ∧
          (¬ full → (∀ (f : EngineId), ∀ y ∈ s.cf.engines[f].ops, oGroup y.words = oGroup o.words → y.phase ≠ .fired) → oKind o.words = 9 →
            ∀ y ∈ t.cf.engines[e].ops, y.id = o.id → y.phase = .data)) ∧
    (∀ c, (∀ e : EngineId, ∀ o ∈ s.cf.engines[e].ops, mayFire s e c o = false) → exec (.operationFire c) s = .next s)

/-- The data phase of the collectives and their end (R384-R386, R391-R394, R397, R400): the source is read, once, the members' blocks are
combined in rank order or placed, and this member's share is written, waited for or refused with a status; a reduction that fails a check
ends as CORRUPT; a Rill and a BARRIER likewise; CHANNEL sets its slot. A complete operation, once the result chunks from others have come,
writes its status record, then sends DAMT, and is armed again or dropped. -/
def Obligations.CollectivesMoveData : Prop :=
  ∀ (s : State) (e : EngineId) (k : Nat) (o : CollOp), s.cf.engines[e].ops[k]? = some o →
    let w := o.words
    let read (r : EngRes Blocks) (b : Blocks) (s1 : State) : Prop := (o.got = some b ∧ s1 = s) ∨
      (o.got = none ∧ ∃ s0, r = .ok b s0 ∧ s1 = s0.modOp e o.id (fun y => { y with got := some b }))
    let follows (ins : Instr) (r : EngRes Unit) (last : State → State) : Prop :=
      (∀ s2, r = .ok () s2 → exec ins s = .next (last (endOp e o.id 0x00 s2))) ∧ (∀ s2, r = .hold s2 → exec ins s = .next s2) ∧
      (∀ st s2, r = .bad st s2 → exec ins s = .next (endOp e o.id st s2))
    (o.phase = .data → engOn s e = true → ∀ g, groupOf s (oGroup w) = some g →
      let x := s.far.groups[g]
      let me := x.rank.toNat
      (∀ (others : List (List Byte)) own n s1, others.length + 1 = x.members.length → (∀ b ∈ others, b.length = sourceBytes w) →
        read (readSource e o s) [(n, own)] s1 →
        let all := others.take me ++ own :: others.drop me
        let put (bs : List Byte) : EngRes Unit := engWrite e o.id (opAsid s1 e o) (dstUse w) w[3].toNat bs s1
        let checked (s : State) : State := s.modOp e o.id (fun y => { y with agreed := agreedOf w all })
        (∀ r, reduceAll w all = .ok r →
          (oKind w = 1 → follows (.allreduce e k others) (put (r.bytes 0 r.length)) checked) ∧
          (oKind w = 8 → follows (.rill e k others) (put (r.bytes 0 r.length)) checked) ∧
          (oKind w = 2 → oRoot w = me → follows (.reduce e k others) (put (r.bytes 0 r.length)) checked) ∧
          (oKind w = 2 → oRoot w ≠ me → exec (.reduce e k others) s = .next (checked (endOp e o.id 0x00 s1))) ∧
          (oKind w = 3 → let p := Config.scatterShare r.length x.members.length me
            follows (.reduceScatter e k others) (put (r.bytes p.1 p.2)) checked)) ∧
        (∀ c, reduceAll w all = .error c → ∀ ins ∈ [(Instr.allreduce e k others, 1), (.reduce e k others, 2), (.reduceScatter e k others, 3),
            (.rill e k others, 8)], oKind w = ins.2 →
          ∃ t, exec ins.1 s = .next t ∧ t.mem = s1.mem ∧ ∀ y ∈ t.cf.engines[e].ops, y.id = o.id → y.phase = .written ∧ y.status = 0x06) ∧
        (oKind w = 4 → follows (.allgather e k others) (put all.flatten) id) ∧
        (oKind w = 5 → follows (.broadcast e k others) (put (all.getD (oRoot w) [])) id)) ∧
      (∀ (others : List (List Byte)) anyOver blocks s1, oKind w = 6 → others.length + 1 = x.members.length →
        let cap := (x.chanCap.getD (oChan w) 0).toNat
        let own := (blocks.getD me (0, [])).2
        let got := others.take me ++ own :: others.drop me
        read (sendBlocks e o x.members.length cap s) blocks s1 → x.chanKind.getLsbD (oChan w) = true →
          (anyOver = true ∨ cap < (got.map List.length).foldl (· + ·) 0 →
            exec (.alltoall e k others anyOver) s = .next (endOp e o.id 0x03 s1)) ∧
          (anyOver = false → (got.map List.length).foldl (· + ·) 0 ≤ cap →
            follows (.alltoall e k others anyOver) (engWriteAll e o.id (opAsid s1 e o) [(dstUse w, w[3].toNat, got.flatten),
              (none, w[6].toNat + 16, (runningOffsets 0 got).flatMap (fun n => toBytes 8 n))] s1) id)) ∧
      (∀ (others : List (List Byte)) anyOver blocks s1, oKind w = 6 → others.length + 1 = x.members.length →
        let cap := (x.chanCap.getD (oChan w) 0).toNat
        let own := (blocks.getD me (0, [])).2
        let got := (others.map (fun b => b.take cap)).take me ++ own :: (others.map (fun b => b.take cap)).drop me
        read (sendBlocks e o x.members.length cap s) blocks s1 → x.chanKind.getLsbD (oChan w) = false → ∀ s2,
          engWriteAll e o.id (opAsid s1 e o) (((List.range got.length).zip got).map (fun b =>
            (dstUse w, w[3].toNat + b.1 * (cap + 8), toBytes 8 b.2.length ++ b.2))) s1 = .ok () s2 →
          ∃ t, exec (.alltoall e k others anyOver) s = .next t ∧ t.mem = s2.mem ∧ ∀ y ∈ t.cf.engines[e].ops, y.id = o.id →
            y.phase = .written ∧ y.status = 0x00 ∧ y.word1 = BitVec.ofNat 64 (min (2 ^ 64 - 1) (blocks.map (fun b => b.1 - cap)).sum)) ∧
      (oKind w = 7 → exec (.barrier e k) s = .next (endOp e o.id 0x00 s)) ∧
      (oKind w = 9 → oChan w < 8 → ∃ t, exec (.channel e k) s = .next t ∧ t.mem = s.mem ∧
        (∀ y ∈ t.cf.engines[e].ops, y.id = o.id → y.phase = .written) ∧
        (∀ i : Fin 8, t.far.groups[g].chanValid.getLsbD i.val = (x.chanValid.getLsbD i.val || i.val == oChan w) ∧
          t.far.groups[g].chanCap[i] = (if i.val = oChan w then BitVec.ofNat 64 (oCount w) else x.chanCap[i]) ∧
          t.far.groups[g].chanKind.getLsbD i.val =
            (if i.val = oChan w then decide (oRoot w % 2 = 1) else x.chanKind.getLsbD i.val)))) ∧
    (∀ srcs, srcs ≠ [] → oOp w = 1 → oType w = 0x8 ∨ oType w = 0xB ∨ oType w = 0xC →
      let size := if oType w = 0x8 then 4 else 8
      ∃ l, reduceAll w srcs = .ok (.elems size l) ∧ l.length = oCount w ∧
        ∀ i, i < oCount w → l[i]? = some ((srcs.map (fun b => ofBytes ((b.drop (size * i)).take size))).sum % 2 ^ (8 * size))) ∧
    (o.phase = .written → engOn s e = true → allArrived s o = true → ∀ s1,
      engWrite e o.id (opAsid s e o) none w[6].toNat (statusBytes o) s = .ok () s1 → s1.cf = s.cf →
      ∃ t, exec (.operationComplete e k) s = .next t ∧ t.mem = s1.mem ∧
        t.inflight = (if o.status = 0 ∧ oDamt w ≠ 0 then s1.inflight ++ [.inc (.engine e)
          (qCbase s.cf.engines[e].queues[o.queue] + BitVec.ofNat 12 (oDctr w)) (BitVec.ofNat 32 (oDamt w))] else s1.inflight) ∧
        (oRearm w = true → o.status ≠ 0x08 → o.wthr.toNat + oTstep w < 2 ^ 32 → ∀ y ∈ t.cf.engines[e].ops, y.id = o.id →
          y.phase = .armed ∧ y.wthr = BitVec.ofNat 32 (o.wthr.toNat + oTstep w)) ∧
        (oRearm w = false ∨ o.status = 0x08 ∨ 2 ^ 32 ≤ o.wthr.toNat + oTstep w →
          t.cf.engines[e].ops.map (·.id) = (s.cf.engines[e].ops.filter (fun y => y.id != o.id)).map (·.id))) ∧
    (o.phase ≠ .written ∨ engOn s e = false ∨ allArrived s o = false → ∃ t, exec (.operationComplete e k) s = .next t ∧ t.cf = s.cf ∧ t.mem = s.mem ∧ t.inflight = s.inflight) ∧
    (o.phase ≠ .armed → o.phase ≠ .written → engOn s e = true → ∀ rank, ∃ t, exec (.groupTimeout e k rank) s = .next t ∧ t.mem = s.mem ∧
      ∀ y ∈ t.cf.engines[e].ops, y.id = o.id → y.phase = .written ∧ y.status = 0x04 ∧ y.word1 = rank.setWidth 64)

/-- Rill rounds, checked chunks and fault reports (R387, R389, R396, R397, R399, R405-R408): a packet of another epoch, attempt or stage is
discarded; the root combines its own lanes with its child's and a signature round whose lanes agree opens the data phase; a chunk of a
running operation is recorded or ends it as CORRUPT; a report joins or takes a coalescing entry, at the link's rate; an entry whose event
has been delivered goes 64 stages later. -/
def Obligations.RillAndReports : Prop :=
  ∀ (s : State),
    (∀ (m : RillMsg) g, groupOf s m.group = some g →
      let x := s.far.groups[g]
      (x.epoch ≠ m.epoch ∨ s.stg.attempt ≠ m.attempt ∨ s.stageNumber ≠ m.stage → exec (.rillPacket m) s = .next s) ∧
      (x.epoch = m.epoch → s.stg.attempt = m.attempt → s.stageNumber = m.stage → m.down = false → x.rank = 0 → x.members.length = 2 →
        m.fromRank = 1 →
        ((∀ r ∈ x.rounds, r.round ≠ m.round) → nextRound x = none → exec (.rillPacket m) s = .next (s.modGroup g (fun x => { x with
          rounds := x.rounds ++ [{ round := m.round, op := m.op, own := none, kids := [(1, m.lanes)], result := none }] }))) ∧
        (∀ r own e o, x.rounds = [r] → r.round = m.round → r.own = some own → r.kids = [] → r.result = none → r.op = .signature →
          own.length = 6 → m.lanes.length = 6 → own.getD 0 0 &&& m.lanes.getD 0 0 = own.getD 2 0 ||| m.lanes.getD 2 0 →
          own.getD 1 0 &&& m.lanes.getD 1 0 = own.getD 3 0 ||| m.lanes.getD 3 0 →
          pickLink s 0 s.devId (x.members.getD 1 0) 0 ≠ none → s.far.maxhop ≠ 0 →
          s.cf.engines[(e : EngineId)].ops.find? (fun o => oGroup o.words == x.gid && o.round == m.round &&
            (o.phase == .signature || o.phase == .key)) = some o → o.phase = .signature →
          ∃ t, exec (.rillPacket m) s = .next t ∧ t.far.groups[g].rounds = [] ∧ t.mem = s.mem ∧
            ∀ y ∈ t.cf.engines[e].ops, y.id = o.id → y.phase = .data))) ∧
    (∀ (m : CollMsg),
      (m.attempt ≠ s.stg.attempt ∨ m.stage ≠ s.stageNumber → exec (.collPacket m) s = .next s) ∧
      (∀ (o : CollOp) (e : EngineId), m.attempt = s.stg.attempt → m.stage = s.stageNumber → (∀ f : EngineId, f < e → s.cf.engines[f].ops = []) →
        s.cf.engines[e].ops = [o] → oGroup o.words = m.group → o.seq = m.seq → o.phase = .data ∨ (o.phase = .written ∧ o.status = 0x00) →
        o.agreed = [] →
        let good : Prop := residueOf m.elems = m.residue.toNat ∧ m.ovf = false
        (good → ∃ t y, exec (.collPacket m) s = .next t ∧ t.cf.engines[e].ops = [y] ∧ y.phase = o.phase ∧ y.agreed = [(m.chunk, m.exp)] ∧
          (m.result = true → m.chunk ∈ y.passed) ∧ t.mem = s.mem) ∧
        (¬ good → ∃ t y, exec (.collPacket m) s = .next t ∧ t.cf.engines[e].ops = [y] ∧ y.phase = .written ∧ y.status = 0x06 ∧
          t.mem = s.mem))) ∧
    (∀ words : Vector W64 4,
      let key : CoalKey := { dev := words[0].extractLsb' 24 16, unit := words[0].extractLsb' 40 16, cls := words[0].extractLsb' 56 8,
                             stage := words[1] }
      let reporter : BitVec 16 := words[0].extractLsb' 8 16
      (fieldN words[0] 0 8 ≠ 0x10 → ∀ l, exec (.faultReport l words) s = .next s) ∧
      (fieldN words[0] 0 8 = 0x10 →
        (∀ i c, coalFind s key = some i → s.cf.coal[i] = some c →
          (∃ t, exec (.faultReport none words) s = .next t ∧ t.reports = s.reports ∧ t.cf.coal = s.cf.coal.set i (some { c with
            count := stick 32 c.count, lastDev := reporter, lastT := timeUs s })) ∧
          (∀ l : LinkId, s.far.links[l].rptTokens = 0 → s.far.links[l].rptTime = s.stg.t →
            ∃ t, exec (.faultReport (some l) words) s = .next t ∧ t.reports = s.reports ∧
              t.far.links[l].rptDrop = countUp s.far.links[l].rptDrop 1 ∧
              t.cf.coal = s.cf.coal.set i (some { c with count := stick 32 c.count }))) ∧
        (coalFind s key = none → (∃ i : Fin 4096, s.cf.coal[i] = none) →
          ∃ (t : State) (i : Fin 4096) (c : Coal), exec (.faultReport none words) s = .next t ∧ s.cf.coal[i] = none ∧
            t.cf.coal = s.cf.coal.set i (some c) ∧ c.dev = key.dev ∧ c.unit = key.unit ∧ c.cls = key.cls ∧ c.stage = key.stage ∧
            c.count = 1 ∧ c.firstDev = reporter ∧ c.lastDev = reporter ∧ ∃ r, t.reports = s.reports ++ [r] ∧ r.unit = key.unit ∧ r.cls = 0x0D))) ∧
    (∀ (i : Fin 4096) c, s.cf.coal[i] = some c →
      (c.delivered = true → c.stage.toNat + 64 ≤ s.stageNumber.toNat → exec (.coalesceEntryExpire i) s =
        .next (s.modCf (fun x => { x with coal := x.coal.set i none }))) ∧
      (c.delivered = false ∨ s.stageNumber.toNat < c.stage.toNat + 64 → exec (.coalesceEntryExpire i) s = .next s))

/-- Headwater has a command of the host at the front of a ring and can run it now: no pair has stopped, the device is in service, and the
host link is ACTIVE (R15, R413, R414, R537). -/
def hwServes (r : Fin 4) (cseq : W64) (c : HostCmd) (s : State) : Prop :=
  ringFront r (fastCmd c) s = some (cseq, c) ∧ s.wh.recovery = false ∧ s.hw.jobHalted = false ∧ s.hw.faultHalted = false ∧ s.su.st = 1 ∧
    s.by_.state = .active

/-- The completion of a command is queued for the host; only the INVALID completions of reserved commands behind it follow. -/
def toldHost (r : Fin 4) (cseq : W64) (status : BitVec 8) (result : BitVec 56) (t : State) : Prop :=
  ∃ l m, t.by_.stream = l ++ .cpl r cseq status result :: m ∧ ∀ x ∈ m, ∃ q, x = .cpl r q 1 0

/-- The host's commands (R17, R413-R417, R420, R425, R427, R433, R437, R443, R483): each that Headwater runs leaves its ring, has its effect,
and is answered with its status and RESULT after it; one refused is answered with the reason and has no effect. Reserved commands that
then stand at the front of the ring complete INVALID. -/
def Obligations.HeadwaterCommands : Prop :=
  ∀ (r : Fin 4) (cseq : W64) (c : HostCmd) (s : State), hwServes r cseq c s →
    let s0 := ringTake r cseq s
    let done (st : BitVec 8) (result : BitVec 56) (u : State) : State := refuseOthers r (u.complete r cseq st result)
    let answers (ins : Instr) (st : BitVec 8) (P : State → Prop) : Prop := ∃ t, exec ins s = .next t ∧ toldHost r cseq st 0 t ∧ P t
    let refused (ins : Instr) (st : BitVec 8) : Prop := exec ins s = .next (done st 0 s0)
    (∀ a : BitVec 44, c = .jobLoad a →
      let rd := hwRead a.toNat 128 s0
      let s1 := rd.2
      let failed (st : BitVec 8) (u : State) : Prop := exec (.jobLoad r) s = .next (done st 0 u)
      (rd.1 = none → failed 1 s1) ∧
      (∀ bs, rd.1 = some bs →
        let d := descriptorWords bs
        let img := imageAt d[2].toNat s1
        (descriptorOk s1 d = false → failed 1 s1) ∧
        (descriptorOk s1 d = true →
          (otherBasin s1 (fieldN d[0] 0 2) a.toNat = true ∨ otherBasin s1 (fieldN d[0] 0 2) d[2].toNat = true → failed 6 s1) ∧
          (otherBasin s1 (fieldN d[0] 0 2) a.toNat = false → otherBasin s1 (fieldN d[0] 0 2) d[2].toNat = false →
            (img.1 = none → failed 1 img.2) ∧
            (∀ image, img.1 = some image →
              (verifyImage img.2 5 image ≠ .good → failed 1 img.2) ∧
              (verifyImage img.2 5 image = .good →
                (∀ st, place img.2 d = .error st → failed st img.2) ∧
                (∀ p, place img.2 d = .ok p → ∃ t, exec (.jobLoad r) s = .next t ∧
                  toldHost r cseq 0 ((t.jobs[p.slot].handle p.slot).setWidth 56) t ∧
                  t.jobs[p.slot].state = .loaded ∧ t.jobs[p.slot].gen = img.2.jobs[p.slot].gen ∧ t.jobs[p.slot].basin = d[0].extractLsb' 0 2 ∧
                  t.jobs[p.slot].stageBound = bitB d[0] 8 ∧ t.jobs[p.slot].ctrBase = BitVec.ofNat 12 p.base ∧
                  t.jobs[p.slot].ctrCount = d[1].extractLsb' 40 13 ∧ t.jobs[p.slot].queues = p.queues ∧
                  t.jobs[p.slot].mon = Config.monitorOf image.body ∧ (∀ k, k ≠ p.slot → t.jobs[k] = img.2.jobs[k]) ∧
                  (∀ w, w ∈ liveWells img.2 p.groups → t.wellJob[(w : WellId)] = some p.slot ∧ t.wells[w].st.scoreboard = true ∧
                    (t.cpu w).icache = [] ∧ (t.cpu w).exc.entry = (Config.monitorOf image.body).entry ∧
                    t.wells[w].mr.trigBase = BitVec.ofNat 12 p.base ∧ t.wells[w].mr.trigCount = d[1].extractLsb' 40 13)))))))) ∧
    (∀ h, c = .jobStart h →
      (slotOfHandle s h = none → refused (.jobStart r) 4) ∧
      (∀ k, slotOfHandle s h = some k →
        (s.jobs[k].state ≠ .loaded → refused (.jobStart r) 3) ∧
        (s.jobs[k].state = .loaded → s.jobs[k].nprot = 0 → s.prot.length ≤ 1024 → answers (.jobStart r) 0 (fun t =>
          t.jobs[k].state = .running ∧ t.jobs[k].reach = 0 ∧ t.jobs[k].cur.reach = 0 ∧ t.jobs[k].ckpt = t.jobs[k].cur ∧ t.prot = s.prot ∧
            t.mem = s.mem ∧ ∀ w ∈ s.jobs[k].vmap, (t.cpu w).running = true ∧ t.wells[w].mailIn = BitVec.ofNat 64 (0x81 * 2 ^ 56))))) ∧
    (∀ h, c = .jobKill h →
      (slotOfHandle s h = none → refused (.jobKill r) 4) ∧
      (∀ k, slotOfHandle s h = some k →
        (s.jobs[k].state = .clearing → refused (.jobKill r) 0) ∧ (s.jobs[k].state = .stopping → answers (.jobKill r) 0 (fun _ => True)) ∧
        (s.jobs[k].state ≠ .clearing → s.jobs[k].state ≠ .stopping → hwBusy s = false → answers (.jobKill r) 0 (fun t =>
          (t.jobs[k].state = .stopping ∨ t.jobs[k].state = .clearing) ∧ (∀ w ∈ s.jobs[k].vmap, (t.cpu w).running = false) ∧
          ((∀ w ∈ jobWells s k, wellDrained s w = true) → t.jobs[k].state = .clearing ∧ ∀ p ∈ t.prot, p.job ≠ k))))) ∧
    (∀ h ls ws, c = .map h ls ws →
      (slotOfHandle s h = none → refused (.map r) 4) ∧
      (∀ k, slotOfHandle s h = some k →
        (s.jobs[k].state = .stopping ∨ s.jobs[k].state = .clearing → refused (.map r) 3) ∧
        (s.jobs[k].state ≠ .stopping → s.jobs[k].state ≠ .clearing →
          (∀ st, ls.findSome? (leafRefusal s k) = some st → refused (.map r) st) ∧
          (ls.findSome? (leafRefusal s k) = none → ∀ st, ws.findSome? (ingressRefusal s k) = some st → refused (.map r) st) ∧
          (ls.findSome? (leafRefusal s k) = none → ws.findSome? (ingressRefusal s k) = none → answers (.map r) 0 (fun t =>
            t.jobs[k].leaves = ls.foldl (fun l x => noteLeaf x l) s.jobs[k].leaves ∧ t.jobs[k].state = s.jobs[k].state ∧
              (∀ x, ws = [x] → t.far.ingress = s.far.ingress.set x.index {
                base := x.w0.extractLsb' 0 44, limit := x.w1.extractLsb' 0 44, valid := bitB x.w2 63, rights := x.w2.extractLsb' 60 3,
                basin := x.w2.extractLsb' 58 2, anysrc := bitB x.w2 57, group := x.w2.extractLsb' 0 16 }) ∧
              (ls = [] → t.mem = s.mem)))))) ∧
    (∀ ws bind, c = .stageCfg ws bind →
      ((∃ h ∈ bind, slotOfHandle s h = none) → refused (.stageCfg r) 4) ∧
      (∀ v, ws = [(0x010, v)] → bind = [] → ∀ u, exec (.stCfgWrite v) s0 = .next u → exec (.stageCfg r) s = .next (done 0 0 u)) ∧
      (∀ h k, ws = [] → bind = [h] → slotOfHandle s h = some k → answers (.stageCfg r) 0 (fun t => t.jobs[k].stageBound = true))) ∧
    (∀ layout ws, c = .basinCfg layout ws →
      (layout = 3 → refused (.basinCfg r) 1) ∧
      (layout ≠ 3 → exec (.basinCfg r) s = .next (done 0 0 (s0.modHw (fun h => { h with basinCfg := some (layout, ws) }))))) ∧
    (∀ ws, c = .retire ws → answers (.retire r) 0 (fun t => ∀ w ∈ ws, t.hw.retired.getLsbD w.val = true)) ∧
    (∀ f resume n asid g, c = .xlateResp f resume n asid g →
      let row : Instr := if resume then .puFrespResume f n asid g else .puFrespAbort f n asid g
      (respMatch s f n asid g = none → ∀ u, exec row s0 = .next u → exec (.xlateResp r) s = .next (done 4 0 u)) ∧
      (respMatch s f n asid g ≠ none →
        let s1 := match slotOfHandle s asid with | some k => note k 0x08 (putB 63 resume ||| g.setWidth 64) s0 | none => s0
        ∀ u, exec row s1 = .next u → exec (.xlateResp r) s = .next (done 0 0 u))) ∧
    (∀ ks, c = .faultAck ks →
      ((∃ k ∈ ks, ∀ e ∈ s.hw.ledger, e.idx ≠ k) → refused (.faultAck r) 4) ∧
      ((∀ k ∈ ks, ∃ e ∈ s.hw.ledger, e.idx = k) → exec (.faultAck r) s =
        .next (done 0 0 (s0.modHw (fun h => { h with ledger := h.ledger.filter (fun e => !ks.contains e.idx) }))))) ∧
    (∀ n, c = .eventAck n → s.evtLost = 0 → (∀ k : Fin 32, s.jobs[k].paused = false) → answers (.eventAck r) 0 (fun t =>
      t.events = s.events.filter (fun e => decide (n.toNat < e.seq.toNat)) ∧
        (∀ e ∈ t.hw.ledger, e.evt.toNat ≤ n.toNat → e.delivered = true) ∧ t.mem = s.mem)) ∧
    (∀ n, c = .eventFetch n → exec (.eventFetch r) s = .next (done 0 0 (s0.modBy (fun b => { b with
      stream := b.stream ++ (s.events.filter (fun e => decide (n.toNat ≤ e.seq.toNat))).map (fun e => .evt e.seq) })))) ∧
    (∀ token buffer, c = .sound token buffer →
      (buffer.toNat % 4096 ≠ 0 → exec (.sound r) s = .next (s0.complete r cseq 1 0)) ∧
      (buffer.toNat % 4096 = 0 → 4 ≤ s.hw.sounds.length → exec (.sound r) s = .next (s0.complete r cseq 5 0)) ∧
      (buffer.toNat % 4096 = 0 → s.hw.sounds.length < 4 → exec (.sound r) s = .next (s0.modHw (fun h =>
        { h with sounds := h.sounds ++ [{ ring := r, cseq := cseq, token := token, buffer := buffer, start := s.stg.t }] })))) ∧
    (∀ (a : BitVec 44) v, c = .mgmt false a v →
      (readControl a.toNat s0 = none → refused (.mgmt r) 1) ∧
      (∀ x u, readControl a.toNat s0 = some (x, u) → exec (.mgmt r) s = .next (done 0 (x.truncate 56) u))) ∧
    (∀ (a : BitVec 44) v, c = .mgmt true a v →
      (writeControl .headwater a.toNat v s0 = none → (a.toNat - 0xF0000000000) / 0x100000000 = 5 → refused (.mgmt r) 1) ∧
      (∀ u, writeControl .headwater a.toNat v s0 = some u → (a.toNat - 0xF0000000000) / 0x100000000 = 5 →
        exec (.registerWrite .headwater a v) s0 = .next u ∧ exec (.mgmt r) s = .next (done 0 0 u)))

/-- When Headwater does not run a command (R15, R414, R519, R537): outside service STATE, with one pair stopped or in recovery mode HALTED,
with both stopped nothing; a row whose command is not at the front of the ring changes nothing. A sounding takes 64 KiB of 512 B writes
and its completion after them (R439, R440, R482).
The wells' messages and the faults (R15, R415, R420, R423-R426, R433-R438): the last REACH_DONE starts the next reach, the last JOB_DONE
ends the job, and a message out of place is noted; a fault report joins or opens a ledger record, whose event the host hears of, and a
replay restores the reach and starts its wells again once they have stopped; a CLEARING job for which nothing runs any more becomes FREE
with its wells' bytes zero; a pair whose copies disagree stops. -/
def Obligations.HeadwaterGateSoundingAndEvents : Prop :=
  (
    ∀ (r : Fin 4) (s : State),
      (∀ cseq h, ringFront r false s = some (cseq, .jobKill h) →
        let refused (st : BitVec 8) : Prop := exec (.jobKill r) s = .next (refuseOthers r ((ringTake r cseq s).complete r cseq st 0))
        (s.hw.jobHalted = true ∧ s.hw.faultHalted = true → exec (.jobKill r) s = .next s) ∧
        (s.wh.recovery = false → s.hw.jobHalted ≠ s.hw.faultHalted → refused 7) ∧
        (s.wh.recovery = true → s.hw.jobHalted = false → refused 7) ∧
        (s.wh.recovery = false → s.hw.jobHalted = false → s.hw.faultHalted = false → s.su.st ≠ 1 → refused 3)) ∧
      ((∀ cseq h, ringFront r false s ≠ some (cseq, .jobKill h)) → exec (.jobKill r) s = .next s) ∧
      (s.hw.sounds = [] → exec .soundingComplete s = .next s) ∧
      (∀ q rest, s.hw.sounds = q :: rest → s.hw.jobHalted = false → s.by_.state = .active →
        ∃ (t : State) (bs : List Byte), exec .soundingComplete s = .next t ∧ t.hw.sounds = rest ∧ t.hw.soundSeq = s.hw.soundSeq + 1 ∧ t.mem = s.mem ∧
          bs.length = 65536 ∧ bs.take 2 = [0x00, 0x01] ∧ (bs.drop 8).take 8 = wordBytes s.hw.soundSeq ∧
          (bs.drop 16).take 4 = toBytes 4 q.token.toNat ∧ (bs.drop 65528).take 4 = toBytes 4 (crc32c (bs.take 65528)).toNat ∧
          t.by_.stream = s.by_.stream ++ (List.range 128).map (fun i => .hostwr (q.buffer + BitVec.ofNat 64 (512 * i)) ((bs.drop (512 * i)).take 512)) ++
            [.cpl q.ring q.cseq 0 0])) ∧
  (
    ∀ (s : State), s.hw.jobHalted = false → s.hw.faultHalted = false →
      (∀ (w : WellId) m k, s.wells[w].mailOut = some m → s.wellJob[w] = some k →
        let j := s.jobs[k]
        let noted (code : BitVec 8) (ins : Instr) : Prop := exec ins s = .next (note k code m (s.modWell w (fun u => { u with mailOut := none })))
        (fieldN m 56 8 = 1 → j.cont ≠ none ∨ fieldN m 0 48 ≠ j.reach.toNat % 2 ^ 48 → noted 0x11 (.reachDone w)) ∧
        (fieldN m 56 8 = 2 → j.cont ≠ none ∨ m.extractLsb' 48 8 ≠ s.stg.attempt → noted 0x12 (.stageDone w)) ∧
        (fieldN m 56 8 = 3 → j.cont ≠ none → noted 0x13 (.jobDone w)) ∧
        (fieldN m 56 8 = 1 → j.state = .running → j.cont = none → fieldN m 0 48 = j.reach.toNat % 2 ^ 48 →
          (j.reachDone.length + 1 < j.vmap.length → ∃ t, exec (.reachDone w) s = .next t ∧ t.jobs[k].reachDone = j.reachDone ++ [w] ∧
            t.jobs[k].reach = j.reach ∧ t.wells[w].mailOut = none ∧ t.mem = s.mem) ∧
          (j.reachDone.length + 1 = j.vmap.length → s.events.length < 65536 → ∃ t, exec (.reachDone w) s = .next t ∧
            t.jobs[k].reach = j.reach + 1 ∧ t.jobs[k].reachDone = [] ∧ t.jobs[k].escaped = false ∧ t.jobs[k].cur.reach = j.reach + 1 ∧
            (∀ v ∈ j.vmap, t.wells[v].mailIn = BitVec.ofNat 64 (0x81 * 2 ^ 56 + (j.reach + 1).toNat % 2 ^ 48)) ∧ t.mem = s.mem)) ∧
        (fieldN m 56 8 = 2 → j.state = .running → j.cont = none → m.extractLsb' 0 48 = s.stg.number.truncate 48 → m.extractLsb' 48 8 = s.stg.attempt →
          s.stg.role ≠ 0 → s.stg.sync = 2 → ∃ t, exec (.stageDone w) s = .next t ∧ t.jobs[k].stageDone = j.stageDone ++ [w] ∧
            t.jobs[k].lastStage = (if j.stageDone.length + 1 = j.vmap.length then s.stg.number else j.lastStage) ∧
            t.wells[w].mailOut = none ∧ t.mem = s.mem) ∧
        (fieldN m 56 8 = 3 → j.state = .running ∨ j.state = .paused → j.cont = none →
          (j.jobDone.length + 1 < j.vmap.length → ∃ t, exec (.jobDone w) s = .next t ∧ t.jobs[k].jobDone = j.jobDone ++ [w] ∧
            t.jobs[k].state = j.state) ∧
          (j.jobDone.length + 1 = j.vmap.length → hwBusy s = false → ∃ t, exec (.jobDone w) s = .next t ∧
            (t.jobs[k].state = .stopping ∨ t.jobs[k].state = .clearing) ∧ (∀ v ∈ j.vmap, (t.cpu v).running = false) ∧
            ((∀ v ∈ jobWells s k, wellDrained s v = true) → t.jobs[k].state = .clearing))) ∧
        (fieldN m 56 8 = 4 → ∃ t, exec (.fault w) s = .next t ∧ t.wells[w].mailOut = none ∧ t.hw.wellCause[w] = BitVec.ofNat 8 (fieldN m 0 8) ∧
          t.mem = s.mem ∧ (fieldN m 0 8 ∈ [0x15, 0x16, 0x24, 0x25, 0x2C, 0x2D] → ∃ r, t.reports = s.reports ++ [r] ∧ r.unit = wellUnit w ∧
            r.cls = 0x01 ∧ r.detail = BitVec.ofNat 64 (fieldN m 0 8)) ∧
          (fieldN m 0 8 ∉ [0x15, 0x16, 0x24, 0x25, 0x2C, 0x2D] → t.reports = s.reports ∧ t.jobs[k].state = j.state))) ∧
      (∀ (w : WellId), s.wells[w].mailOut = none → exec (.reachDone w) s = .next s ∧ exec (.stageDone w) s = .next s ∧
        exec (.jobDone w) s = .next s ∧ exec (.fault w) s = .next s) ∧
      (s.reports = [] → exec .faultRecord s = .next s) ∧
      (∀ r rest, s.reports = r :: rest →
        (r.cls = 0x0D ∨ r.cls = 0x0C ∨ r.cls = 0x0E ∨ r.cls = 0x09 →
          (∀ e, s.hw.ledger = [e] → e.unit = r.unit → e.cls = r.cls → e.stage = r.stage → ∃ t, exec .faultRecord s = .next t ∧
            t.reports = rest ∧ t.hw.ledger = [{ e with count := stick 32 e.count, lastT := timeUs s }] ∧ t.events = s.events ∧ t.mem = s.mem) ∧
          ((∀ e ∈ s.hw.ledger, e.unit ≠ r.unit ∨ e.cls ≠ r.cls ∨ e.stage ≠ r.stage) → s.hw.ledger.length < 16384 → s.events.length < 65536 →
            ∃ t e v, exec .faultRecord s = .next t ∧ t.reports = rest ∧ t.hw.ledger = s.hw.ledger ++ [e] ∧ e.unit = r.unit ∧ e.cls = r.cls ∧
              e.stage = r.stage ∧ e.count = 1 ∧ e.delivered = false ∧ t.events = s.events ++ [v] ∧ v.type_ = 0x01 ∧ v.seq = s.evtSeq ∧
              t.mem = s.mem)) ∧
        (∀ k, r.cls = 0x05 → r.detail.toNat / 2 ^ 32 % 256 ≠ 0x08 → reportJobs s r = [k] → k ∉ r.joined → s.jobs[k].escaped = false →
          s.jobs[k].reachReplays < 3 → hwBusy s = false → (∀ v ∈ jobWells s k, wellDrained s v = true) →
          ∃ t, exec .faultRecord s = .next t ∧ t.jobs[k].reach = s.jobs[k].reach ∧ t.jobs[k].cont = none ∧
            t.jobs[k].replaysAll = stick 16 s.jobs[k].replaysAll ∧ t.jobs[k].reachReplays = s.jobs[k].reachReplays + 1 ∧ t.jobs[k].reachDone = [] ∧
            (∀ v ∈ s.jobs[k].vmap, (t.cpu v).running = true ∧ t.wells[v].st.scoreboard = true ∧
              t.wells[v].mailIn = BitVec.ofNat 64 (0x82 * 2 ^ 56 + s.jobs[k].reach.toNat % 2 ^ 48)))) ∧
      (∀ (f : FrontId) (n : Fin 64),
        (∀ x, s.fronts[f].records[n] = some x → slotOfHandle s x.asid ≠ none →
          exec (.xlateTimeout f n) s = exec (.puFrespAbort f n x.asid (granuleOf x.va)) s) ∧
        (s.fronts[f].records[n] = none → exec (.xlateTimeout f n) s = .next s)) ∧
      (∀ k, exec (.faultRecordExpire k) s = .next (s.modHw (fun h => { h with ledger := h.ledger.filter (fun e =>
        !(e.idx == k && e.delivered && (if s.stg.role = 0 then decide (e.since.toNat + 1000000000 ≤ s.stg.t.toNat)
          else decide (e.stage.toNat + 64 ≤ s.stg.number.toNat)))) }))) ∧
      (∀ k : Fin 32, s.MemOk →
        (clearingDone s k = false → exec (.jobClearComplete k) s = .next s) ∧
        (clearingDone s k = true → ∃ t, exec (.jobClearComplete k) s = .next t ∧ t.jobs[k].state = .free ∧ t.jobs[k].gen = s.jobs[k].gen + 1 ∧
          (∀ w : WellId, s.wellJob[w] = some k → t.wellJob[w] = none ∧ (t.cpu w).running = false ∧
            ∀ o, o < 0x720000 → t.byteAt (wellAddr w o) = 0) ∧
          (∀ w : WellId, s.wellJob[w] ≠ some k → t.wellJob[w] = s.wellJob[w]))) ∧
      (∀ p : Fin 2, ∃ t x, exec (.headwaterLockstepDisagree p) s = .next t ∧ t.hw.jobHalted = (p == 0) ∧ t.hw.faultHalted = (p == 1) ∧
        t.reports = s.reports ++ [x] ∧ x.unit = BitVec.ofNat 16 (0x7000 + p.val) ∧ x.cls = 0x0C ∧ t.jobs = s.jobs ∧ t.mem = s.mem))

/-- A PLATFORM condition of a unit goes out (R456, R512): a report of class PLATFORM, and the BMC's in-band interrupt. -/
def platformTold (unit : BitVec 16) (detail : W64) (s t : State) : Prop :=
  platformRaised s unit = false → ∃ r, t.reports = s.reports ++ [r] ∧ r.unit = unit ∧ r.cls = 0x10 ∧ r.detail = detail ∧ t.bmc.alert = true

/-- Baseflow (R445, R447-R454, R461, R463, R466): a scrub pass of a memory starts once and reads only in its window; a scrub read of a
poisoned sector is counted, one bad symbol is corrected and noted; a late pass, a tracking loss, a low margin, a failed wear save and a
restart each raise their condition; a task for units of another core does nothing; margin moves a rail by 5 mV within its range; wear is
read hourly and sampled daily; a latched sample goes to the ring. -/
def Obligations.BaseflowDoesItsWork : Prop :=
  ∀ (s : State), s.MemOk →
    let does (ins : Instr) (P : State → Prop) : Prop := ∃ t, exec ins s = .next t ∧ P t
    let started (core : Fin 2) (m : ScrubMem) (t : State) : Prop :=
      t.bf.passes = s.bf.passes ++ [{ core := core, mem := m, start := s.stg.t, late := false, counted := false }] ∧ t.mem = s.mem
    (∀ (core : Fin 2) (m : ScrubMem), passOf s core m = none →
      (bitB s.bf.ctl (scrubBit m) = true → does (.scrubPassStart core m) (started core m)) ∧
      (bitB s.bf.ctl (scrubBit m) = false → exec (.scrubPassStart core m) s = .next s) ∧
      (∀ a, exec (.storeScrubRead core m a) s = .next s) ∧ exec (.scrubLate core m) s = .next s) ∧
    (∀ core : Fin 2,
      (passOf s core .stackMem = none → does (.scrubStacks (core.castLE (by omega))) (started core .stackMem)) ∧
      (passOf s core .cistern = none → does (.scrubCistern (core.castLE (by omega))) (started core .cistern)) ∧
      (passOf s core .stores = none → does (.scrubStores (core.castLE (by omega))) (started core .stores))) ∧
    (∀ core : Fin 4, 2 ≤ core.val →
      let nothing (task : BitVec 16) : State := s.modBf (fun b => { b with
        tasks := b.tasks.filter (fun x => !(x.1 == core && x.2 == task)), noop := stick 8 b.noop })
      exec (.scrubStacks core) s = .next (nothing 1) ∧ exec (.scrubCistern core) s = .next (nothing 2) ∧
        exec (.scrubStores core) s = .next (nothing 3) ∧ (core ≠ 2 → ∀ ok, exec (.wearSave core ok) s = .next (nothing 0x21))) ∧
    (∀ (core : Fin 2) (m : ScrubMem) p, passOf s core m = some p →
      (p.late = false → p.start.toNat + scrubPeriod s m ≤ s.stg.t.toNat → does (.scrubLate core m) (fun t => t.bf.scrubLate = true ∧ platformTold (bfUnit core.val) 0x0101 s t ∧ t.mem = s.mem)) ∧
      (p.late = true ∨ s.stg.t.toNat < p.start.toNat + scrubPeriod s m → exec (.scrubLate core m) s = .next s) ∧
      (∀ a, scrubMay s p = false → exec (.storeScrubRead core m a) s = .next s)) ∧
    (∀ (core : Fin 2) (n : StackId) (a : BitVec 44) p, passOf s core .stackMem = some p → bfWindowOpen s = true → placeOf a.toNat = .stack n →
      n.val / 12 = core.val → centralRefusal s a.toNat = none → lastRead s core .stackMem a.toNat = false →
      (s.stErr.find? (fun e => e.1 == a.toNat / 64) = some (a.toNat / 64, .poison) →
        exec (.storeScrubRead core .stackMem a) s = .next (s.modBf (fun b => { b with poisonSeen := stick 16 b.poisonSeen }))) ∧
      (s.stks[n].queue = [] → s.stErr.find? (fun e => e.1 == a.toNat / 64) = some (a.toNat / 64, .oneSymbol) → s.bf.weak = [] →
        does (.storeScrubRead core .stackMem a) (fun t => (∀ e ∈ t.stErr, e.1 ≠ a.toNat / 64) ∧
          t.bf.weak = [{ core := core, mem := .stackMem, sector := a.toNat / 64, passes := 1, now := true }] ∧ t.mem = s.mem))) ∧
    (∀ core : Fin 4, 2 ≤ core.val → does (.linkRetrain core) (fun t => t.mem = s.mem ∧ ∀ l : LinkId,
      (t.far.links[l].state = if l.val / 18 + 2 = core.val ∧ s.far.links[l].degraded = true ∧ s.far.links[l].state = .active then .retrain
        else s.far.links[l].state))) ∧
    (∀ (core : Fin 4) rs, does (.wearUpdate core rs) (fun t => t.bf.wear.map (fun e => (e.unit, e.code, e.hist)) =
      (wearEntries s).map (fun e => (e.unit, e.code, e.hist)) ∧ t.mem = s.mem)) ∧
    (∀ rs, does (.wearHourlyUpdate rs) (fun t => ∀ e ∈ t.bf.wear, e.code = 6 → ∃ x ∈ wearEntries s, x.code = 6 ∧
      e.reading = BitVec.ofNat 64 (min (2 ^ 64 - 1) (x.reading.toNat + 1)))) ∧
    (does .wearDailySample (fun t => ∀ e ∈ t.bf.wear, e.hist.length ≤ 90 ∨ ∃ x ∈ wearEntries s, x.hist.length = e.hist.length)) ∧
    (bfWindowOpen s = true →
      let k := olderCopy s
      (∃ n, exec (.wearLogWrite true) s = .next (s.modBf (fun b => { b with wearLog := b.wearLog.set k (some (n, wearEntries s)) })) ∧
        ∀ (i : Fin 2) c, s.bf.wearLog[i] = some c → c.1.toNat < 2 ^ 64 - 1 → c.1.toNat < n.toNat ∨ ∃ (j : Fin 2) (y : W64 × List WearEntry),
          s.bf.wearLog[j] = some y ∧ y.1.toNat = 2 ^ 64 - 1) ∧
      does (.wearLogWrite false) (fun t => t.bf.wsaveErr = true ∧ t.bf.wearLog[k] = none ∧ platformTold (bfUnit 2) 0x0108 s t) ∧
      does (.wearSave 2 false) (fun t => t.bf.wsaveErr = true ∧ t.bf.wearLog[k] = none)) ∧
    (bfWindowOpen s = false → ∀ ok, exec (.wearLogWrite ok) s = .next s ∧ exec (.wearSave 2 ok) s = .next s) ∧
    (∀ (l : LinkId) (txpwr trained : BitVec 16), s.linkOn l = true → s.far.links[l].state ≠ .disabled →
      let b := s.far.links[l].bias.toNat
      let d := txpwr.toInt - trained.toInt
      does (.laserBiasTrim l txpwr trained) (fun t => t.far.links[l].txpwr = txpwr ∧ t.mem = s.mem ∧
        (-30 ≤ d → d ≤ 30 → t.far.links[l].bias = s.far.links[l].bias) ∧
        (30 < d → t.far.links[l].bias.toNat ≤ b ∧ b ≤ t.far.links[l].bias.toNat + b / 100) ∧
        (d < -30 → b + b / 100 < 2 ^ 16 → b ≤ t.far.links[l].bias.toNat ∧ t.far.links[l].bias.toNat ≤ b + b / 100))) ∧
    (∀ l, exec (.receiverTuning l) s = .next s) ∧
    (∀ (n : StackId) moved inRange, s.domain (36 + n.val / 6) = true → does (.phyTracking n moved inRange) (fun t =>
      t.stks[n].retrain = (if moved then stick 16 s.stks[n].retrain else s.stks[n].retrain) ∧ t.mem = s.mem ∧
        (inRange = true → t.reports = s.reports) ∧ (inRange = false → platformTold (stackUnit n) 0x0103 s t))) ∧
    (∀ (d : Fin 44) (slack : Int), s.domain d.val = true →
      let v := s.pw.rail[d]
      let hi := if d.val < 32 then 850 else if d.val < 40 then 800 else 840
      let lo := if d.val < 32 then 700 else if d.val < 40 then 720 else 760
      does (.marginControl d slack) (fun t => t.mem = s.mem ∧
        (slack < 25 → v + 5 ≤ hi → t.pw.rail = s.pw.rail.set d (v + 5) ∧ t.reports = s.reports) ∧
        (slack < 15 → hi < v + 5 → t.pw.rail = s.pw.rail ∧ platformTold (domUnit d.val) 0x0104 s t) ∧
        (15 ≤ slack → slack < 25 → hi < v + 5 → t = s) ∧
        (45 < slack → lo + 5 ≤ v → t.pw.rail = s.pw.rail.set d (v - 5)) ∧ (45 < slack → v < lo + 5 → t = s) ∧ (25 ≤ slack → slack ≤ 45 → t = s))) ∧
    (∀ core : Fin 4, does (.baseflowRestart core) (platformTold (bfUnit core.val) 0x0109 s)) ∧
    (s.bf.samples = [] → exec .telemetryRecordWrite s = .next s) ∧
    (∀ x rest, s.bf.samples = x :: rest → centralRefusal s (0x00FF000000 + s.bf.telHead.toNat) = none →
      s.bf.telHead.toNat + (32 + 16 * x.entries.length + 31) / 32 * 32 ≤ 0x1000000 →
      does .telemetryRecordWrite (fun t => t.bf.samples = rest ∧ t.bf.telSeq = s.bf.telSeq + 1 ∧
        t.readWord (0x00FF000000 + s.bf.telHead.toNat) = x.w0 ∧ t.readWord (0x00FF000000 + s.bf.telHead.toNat + 8) = x.w1 ∧
        t.readWord (0x00FF000000 + s.bf.telHead.toNat + 16) = s.bf.telSeq ∧
        (∀ a, a < 0x00FF000000 + s.bf.telHead.toNat ∨ 0x00FF000000 + s.bf.telHead.toNat + (32 + 16 * x.entries.length + 31) / 32 * 32 ≤ a →
          t.byteAt a = s.byteAt a)))

/-- The Byvor Host Link (R471-R477, R481, R491, R493): bad and out-of-order flits are NAKed once, a good one moves the expected SEQ and
gives a link credit back, MAINT corrects the credits by the signed difference of the counts and carries the loaded key slots, in the KEY
step too; training goes through its six steps, checks version and encryption and fails with
the step's reason; a slot sends MAINT once in 512, a resend, DATA under credit, or IDLE. -/
def Obligations.ByvorLinkCarriesFlits : Prop :=
  ∀ (s : State), byOn s = true →
    let b := s.by_
    let naked (b : ByLink) : ByLink := if b.nakSent then b else { b with nakOwed := true, nakSent := true }
    let bad (f : ByFlit) : Prop := f.fecBad = true ∨ f.crc ≠ crc32c (toBytes 4 f.hdr.toNat ++ f.body)
    let refused (ins : Instr) : Prop := exec ins s = .next (s.modBy (fun b => naked { b with crcerr := countUp b.crcerr 1 }))
    let acked (f : ByFlit) (t : State) : Prop := ∀ u v, b.replay = u ++ v → u.length < 2048 →
      (∀ x r, b.replay = x :: r → bAck f = x.1 + BitVec.ofNat 11 u.length) → t.by_.replay = v
    let inTraining : Prop := b.state = .training ∨ b.state = .retrain
    let retrains (ins : Instr) : Prop := exec ins s = .next (if b.state = .active then s.modBy (fun b => { b with state := .retrain, step := 0 }) else s)
    let trains (ins : Instr) : Prop := ∃ t, exec ins s = .next t ∧ t.by_.state = .training ∧ t.by_.step = 0 ∧ t.by_.linkCred = 1024 ∧
      t.by_.replay = [] ∧ t.by_.nextSeq = 0 ∧ t.by_.expSeq = 0 ∧ t.mem = s.mem ∧ t.jobs = s.jobs
    let fails (ins : Instr) (reason : BitVec 4) : Prop := ∃ t, exec ins s = .next t ∧ t.by_.state = .down ∧ t.by_.reason = reason ∧
      t.by_.downs = b.downs + 1 ∧ t.by_.replay = [] ∧ t.by_.resps = [] ∧ t.mem = s.mem
    let linked (ins : Instr) : Prop := ∃ t, exec ins s = .next t ∧ t.by_.state = .active ∧ t.by_.gen = b.gen + 1 ∧ t.by_.resend = b.replay.length ∧
      t.mem = s.mem ∧ (b.downSeen = true → t.hw.lostLink = true) ∧ (b.width ≠ 3 → platformTold 0xB000 0x0202 s t)
    let keying : Prop := inTraining ∧ b.step = 5
    let maint (t : State) : Prop := ∃ f, t.by_.out = some f ∧ bType f = 2 ∧ f.crc = crc32c (toBytes 4 f.hdr.toNat ++ f.body) ∧ f.body.length = 248 ∧
      f.body[14]? = some ((if b.keys[(2 : Fin 4)].isSome then 1 else 0) + (if b.keys[(3 : Fin 4)].isSome then 2 else 0)) ∧
      t.by_.sinceMaint = 0 ∧ t.by_.nextSeq = b.nextSeq ∧ t.mem = s.mem
    (b.state ≠ .active → ∀ f, exec (.byvorDataFlit f) s = .next s ∧ exec (.byvorIdleFlit f) s = .next s) ∧
    (b.state ≠ .active → ¬ keying → exec .byvorFlitSlot s = .next s ∧ ∀ f counts ready, exec (.byvorMaintFlit f counts ready) s = .next s) ∧
    (keying → (∃ t, exec .byvorFlitSlot s = .next t ∧ maint t) ∧
      ∀ f counts, (bad f → ∀ ready, exec (.byvorMaintFlit f counts ready) s = .next (s.modBy (fun b => { b with crcerr := countUp b.crcerr 1 }))) ∧
        (¬ bad f → bType f = 2 → ∀ i : Fin 2, exec (.byvorMaintFlit f counts (some (i == 1))) s =
          .next (s.modBy (fun b => { b with peerReady := b.peerReady.set i true })))) ∧
    (b.state = .active →
      (∀ f counts ready, bad f → refused (.byvorDataFlit f) ∧ refused (.byvorIdleFlit f) ∧ refused (.byvorMaintFlit f counts ready)) ∧
      (∀ f, ¬ bad f → bType f = 0 → bSeq f ≠ b.expSeq → exec (.byvorDataFlit f) s = .next (s.modBy naked)) ∧
      (∀ f, ¬ bad f → bType f = 0 → bSeq f = b.expSeq → bNak f = false → b.enc = false → bPstart f = 31 → b.rxRem = [] →
        ∃ t, exec (.byvorDataFlit f) s = .next t ∧ acked f t ∧ t.by_.expSeq = b.expSeq + 1 ∧ t.by_.nakSent = false ∧
          t.by_.owed = b.owed.set 0 (b.owed[0] + 1) ∧ t.mem = s.mem) ∧
      (∀ f, ¬ bad f → bType f = 1 → bNak f = false → ∃ t, exec (.byvorIdleFlit f) s = .next t ∧ acked f t ∧ t.by_.expSeq = b.expSeq ∧
        t.by_.nakSent = (b.nakSent || bSeq f != b.expSeq) ∧ t.mem = s.mem) ∧
      (∀ f (counts : Vector (BitVec 16) 7) ready, ¬ bad f → bType f = 2 → bNak f = false → ∃ t, exec (.byvorMaintFlit f counts ready) s = .next t ∧
        acked f t ∧ t.by_.linkCred = ((b.linkCred : Int) + (counts[0] - b.seen[0]).toInt).toNat ∧
        t.by_.hostCred = ((b.hostCred : Int) + (counts[5] - b.seen[5]).toInt).toNat ∧
        (∀ x, ready = some x → t.by_.peerReady[(if x then 1 else 0 : Fin 2)] = true) ∧ t.mem = s.mem) ∧
      (exec .byvorRetryTimeout s = .next (if b.replay = [] then s else s.modBy (fun b => { b with state := .retrain, step := 0 }))) ∧
      (511 ≤ b.sinceMaint → ∃ t, exec .byvorFlitSlot s = .next t ∧ maint t) ∧
      (b.sinceMaint < 511 → b.sinceIdle < 2047 → b.resend ≠ 0 → b.resend ≤ b.replay.length → ∃ t x, exec .byvorFlitSlot s = .next t ∧
        b.replay[b.replay.length - b.resend]? = some x ∧ t.by_.out = some x.2 ∧ t.by_.resend = b.resend - 1 ∧ t.by_.replay = b.replay) ∧
      (b.sinceMaint < 511 → b.sinceIdle < 2047 → b.resend = 0 → b.enc = false → b.txRem = [] → 0 < b.owed[0] → 0 < b.linkCred →
        b.replay.length < 512 → ∃ t f, exec .byvorFlitSlot s = .next t ∧ t.by_.out = some f ∧ bType f = 0 ∧ bSeq f = b.nextSeq ∧
          bAck f = b.expSeq ∧ bNak f = b.nakOwed ∧ f.body.length = 248 ∧ f.body.take 16 = creditPacket 0 b.owed[0] ∧
          f.crc = crc32c (toBytes 4 f.hdr.toNat ++ f.body) ∧ t.by_.nextSeq = b.nextSeq + 1 ∧ t.by_.linkCred = b.linkCred - 1 ∧
          t.by_.replay = b.replay ++ [(b.nextSeq, f)]) ∧
      (b.sinceMaint < 511 → b.sinceIdle < 2047 → b.resend = 0 → b.txRem = [] → (∀ c : Fin 7, b.owed[c] = 0) → b.resps = [] → b.stream = [] →
        ∃ t f, exec .byvorFlitSlot s = .next t ∧ t.by_.out = some f ∧ bType f = 1 ∧ t.by_.nextSeq = b.nextSeq ∧ t.by_.sinceIdle = 0)) ∧
    retrains .byLctlRetrain ∧ retrains .byvorLossOfSignal ∧
    (b.state = .disabled ∨ b.state = .down → trains .byLctlTrain) ∧ (b.state ≠ .disabled → b.state ≠ .down → exec .byLctlTrain s = .next s) ∧
    (b.state = .down → b.retryMs ≠ 0 → trains .byvorLinkRetryTimer) ∧
    (b.state ≠ .down ∨ b.retryMs = 0 → exec .byvorLinkRetryTimer s = .next s) ∧
    (b.state ≠ .disabled → ∃ t, exec .byLctlDisable s = .next t ∧ t.by_.state = .disabled ∧ t.by_.replay = [] ∧ t.by_.resps = [] ∧
      t.by_.stream = b.stream ∧ t.mem = s.mem) ∧
    (∀ lanes, inTraining →
      let ins : Instr := .byvorTrainingStepComplete lanes
      (b.step = 0 → exec ins s = .next (s.modBy (fun b => { b with step := 1 }))) ∧
      (b.step = 1 → exec ins s = .next (s.modBy (fun b => { b with step := 2 }))) ∧
      (b.step = 2 → b.state = .training →
        (lanes = 0xFF → ∃ t, exec ins s = .next t ∧ t.by_.step = 3 ∧ t.by_.width = 3 ∧ t.by_.lanebad = 0) ∧
        (lanes &&& 0x0F = 0x0F → lanes ≠ 0xFF → ∃ t, exec ins s = .next t ∧ t.by_.step = 3 ∧ t.by_.width = 1 ∧ t.by_.lanebad = ~~~lanes) ∧
        (lanes &&& 0x0F ≠ 0x0F → lanes &&& 0xF0 = 0xF0 → ∃ t, exec ins s = .next t ∧ t.by_.step = 3 ∧ t.by_.width = 2 ∧
          t.by_.lanebad = ~~~lanes) ∧
        (lanes &&& 0x0F ≠ 0x0F → lanes &&& 0xF0 ≠ 0xF0 → fails ins 3)) ∧
      (b.step = 2 → b.state = .retrain → b.width ≠ 3 → ∃ t, exec ins s = .next t ∧ t.by_.width ≠ 3) ∧
      (b.step = 3 → ∃ t f, exec ins s = .next t ∧ t.by_.step = 4 ∧ t.by_.out = some f ∧ bType f = 3) ∧
      (b.step = 4 → b.peerTrain = none → exec ins s = .next s) ∧
      (b.step = 4 → ∀ p, b.peerTrain = some p →
        (b.encReq = true → p.1 = true → exec ins s = .next (s.modBy (fun b => { b with step := 5, enc := true }))) ∧
        (b.encReq = false ∨ p.1 = false → linked ins)) ∧
      (b.step = 5 → (∀ i : Fin 4, b.keys[i].isSome = true) → (∀ i : Fin 2, b.peerReady[i] = true) → linked ins)) ∧
    (b.state = .training → b.step.val < 4 → fails .byvorTrainingStepTimeout (BitVec.ofNat 4 (b.step.val + 1))) ∧
    (b.state = .retrain → fails .byvorTrainingStepTimeout 8) ∧
    (b.state = .training → b.step = 4 → ∀ f, ¬ bad f → bType f = 3 →
      let byte (i : Nat) : Byte := f.body.getD i 0
      let version : Prop := byte 0 = 1 ∧ byte 2 = 1
      let encReq := (byte 20).getLsbD 0
      let enc : Prop := (b.encReq = true ∨ encReq = true) → b.encReq = true ∧ encReq = true ∧ bitB (bytesWord ((f.body.drop 4).take 8)) 0 = true
      (¬ version → fails (.byvorTrainFlit f) 5) ∧ (version → ¬ enc → fails (.byvorTrainFlit f) 6) ∧
      (version → enc → ∃ t, exec (.byvorTrainFlit f) s = .next t ∧ t.by_.state = .training ∧ (∃ p, t.by_.peerTrain = some p ∧ p.1 = encReq) ∧
        t.by_.hostCred = (bytesWord ((f.body.drop 32).take 8)).toNat ∧ t.by_.recBase = bytesWord ((f.body.drop 40).take 8) ∧
        t.by_.recSize = bytesWord ((f.body.drop 48).take 8) ∧ t.mem = s.mem))

/-- What the host sends over the link (R318, R413, R428, R443, R479, R481-R485, R490, R491): commands are accepted in the order of their
numbers, and a reserved one at the front of its ring completes INVALID; a window write or read that passes the checks of R484 moves its
bytes once the weirs let it, one that fails is recorded and answered with its status; TIME and CREDIT take their values; a lost link keeps its completions as events; a capture that completes lets the held writes go. -/
def Obligations.HostTrafficIsServed : Prop :=
  ∀ (s : State), byLive s = true → behindWrite s.by_ = false → s.MemOk →
    let b := s.by_
    (∀ ns, exec (.time ns) s = .next (s.modHw (fun h => { h with wallTime := ns }))) ∧
    (∀ n, exec (.credit 0 n) s = .next (s.modBy (fun b => { b with linkCred := b.linkCred + n.toNat, seen := b.seen.set 0 (b.seen[0] + BitVec.ofNat 16 n.toNat) })) ∧
      exec (.credit 5 n) s = .next (s.modBy (fun b => { b with hostCred := b.hostCred + n.toNat, seen := b.seen.set 5 (b.seen[5] + BitVec.ofNat 16 n.toNat) })) ∧
      ∀ c, c ≠ 0 → c ≠ 5 → exec (.credit c n) s = .next s) ∧
    (∀ (ring : Fin 4) cseq c,
      let last := s.hw.rings[ring].last
      let u := s.modBy (fun b => { b with owed := b.owed.set (ring.val + 1) (b.owed[ring.val + 1] + 1) })
      (cseq.toNat ≤ last.toNat → exec (.cmd ring cseq c) s = .next u) ∧
      (last.toNat + 1 < cseq.toNat → exec (.cmd ring cseq c) s = .next (u.complete ring cseq 1 0)) ∧
      (cseq.toNat = last.toNat + 1 →
        let taken := s.modHw (fun h => { h with rings := h.rings.set ring { last := cseq, cmds := h.rings[ring].cmds ++ [(cseq, c)] } })
        exec (.cmd ring cseq c) s = .next (refuseOthers ring taken) ∧
        ((∀ code, c ≠ .other code) → (∀ x ∈ s.hw.rings[ring].cmds, ∀ code, x.2 ≠ .other code) → exec (.cmd ring cseq c) s = .next taken)) ∧
      (cseq.toNat = last.toNat + 1 → (∀ x ∈ s.hw.rings[ring].cmds, fastCmd x.2 = true ∧ x.1 ≠ cseq) → ∀ code, c = .other code → ∃ t, exec (.cmd ring cseq c) s = .next t ∧ t.hw.rings[ring].last = cseq ∧
        t.hw.rings[ring].cmds = s.hw.rings[ring].cmds ∧ toldHost ring cseq 1 0 t)) ∧
    (∀ (off : W64) (i : Fin 16) n, windowAt s off.toNat = some i → 0 < n → n ≤ 512 → off.toNat % 4096 + n ≤ 4096 → s.prot = [] → s.capturing = [] →
      let w := b.windows[i]
      let pa := fieldN w.w0 0 44 + (off.toNat - fieldN w.w2 0 40)
      outsideRefusal s pa n = none → ∀ v o, placeOf pa = .well v o → o < 0x700000 →
      (∀ d u, d.length = n → bitB w.w2 62 = true → hostCross i none pa n false s = (false, u) →
        exec (.wwrite off d) s = .next (u.modBy (fun b => { b with held := b.held ++ [.write off d] }))) ∧
      (∀ d, d.length = n → s.basinMode = 0 → bitB w.w2 62 = true → ∃ t, exec (.wwrite off d) s = .next t ∧
        (∀ j (h : j < d.length), t.byteAt (pa + j) = d[j]) ∧ (∀ a, a < pa ∨ pa + n ≤ a → t.byteAt a = s.byteAt a) ∧
        t.by_.owed = b.owed.set 6 (b.owed[6] + (n + 63) / 64) ∧ t.by_.wfail = b.wfail) ∧
      (∀ (len : BitVec 10) tag, len.toNat = n → s.basinMode = 0 → bitB w.w2 61 = true → ueHit s.ue pa n = false → ueHit s.ce pa n = false →
        exec (.wread off len tag) s = .next (s.modBy (fun b => { b with resps := b.resps ++
          [wordBytes (putN 60 9 ||| putN 44 tag.toNat ||| putN 34 n) ++ wordBytes off ++ s.readBytes pa n] }))) ∧
      (∀ d, d.length = n → bitB w.w2 62 = false → ∃ t, exec (.wwrite off d) s = .next t ∧ t.mem = s.mem ∧ t.by_.wfail = countUp b.wfail 1 ∧
        t.by_.werr = if bitB b.werr 63 then b.werr else putB 63 true ||| putN 48 2 ||| putN 44 i.val ||| BitVec.ofNat 64 (pa % 2 ^ 44))) ∧
    (∀ (off : W64) (len : BitVec 10) tag, windowAt s off.toNat = none → 0 < len.toNat → len.toNat ≤ 512 → off.toNat % 4096 + len.toNat ≤ 4096 →
      ∃ t, exec (.wread off len tag) s = .next t ∧ t.mem = s.mem ∧ t.by_.wfail = countUp b.wfail 1 ∧
        t.by_.resps = b.resps ++ [wordBytes (putN 60 9 ||| putN 44 tag.toNat ||| putN 26 1) ++ wordBytes off]) ∧
    exec .hostLinkDown s = .next s ∧
    (∀ u : State, u.by_.state ≠ .active → u.by_.state ≠ .retrain → ∃ t, exec .hostLinkDown u = .next t ∧ t.by_.stream = [] ∧ t.hw.sounds = [] ∧
      t.mem = u.mem ∧ (u.by_.stream = [] → t.events = u.events) ∧
      (∀ r c st v, u.by_.stream = [.cpl r c st v] → u.events.length < 65536 → ∃ e, t.events = u.events ++ [e] ∧ e.type_ = 0x02 ∧
        e.seq = u.evtSeq ∧ e.words = [c, v ++ st, BitVec.ofNat 64 r.val])) ∧
    (∀ addr : BitVec 44, addr.toNat / 4096 ∉ s.capturing → exec (.chunkCaptureComplete addr) s = .next s) ∧
    (∀ (u : State) (addr : BitVec 44), byLive u = true → addr.toNat / 4096 ∈ u.capturing →
      let f := { u with capturing := u.capturing.filter (· != addr.toNat / 4096) }
      (u.by_.held = [] → exec (.chunkCaptureComplete addr) u = .next f) ∧
      (∀ off d, u.by_.held = [.write off d] →
        exec (.chunkCaptureComplete addr) u = exec (.wwrite off d) (f.modBy (fun b => { b with held := [] }))))

/-- Power, clocks and temperature (R20, R494, R495, R498-R503, R505, R506, R509): the input's loss, a rail's fault, domain commands with
their refusals and their completion, capping by the effective limit, the loss of a reference, the thresholds of a sensor with their
hysteresis, and the two trips. -/
def Obligations.PowerAndThermalLimits : Prop :=
  ∀ (s : State), s.MemOk →
    let p := s.pw
    let does (ins : Instr) (P : State → Prop) : Prop := ∃ t, exec ins s = .next t ∧ P t
    let dutyIs (t : State) : Prop := t.pw.duty.toNat =
      min (min t.pw.ownDuty.toNat (if t.pw.uv then 16 else 64)) (min (if t.pw.warn = [] then 64 else 48) (if t.pw.crit = [] then 64 else 8))
    let allStopped (t : State) : Prop := ∀ k : Fin 32, s.jobs[k].state ≠ .free →
      t.jobs[k].state = .stopping ∨ t.jobs[k].state = .clearing
    (p.inputOn = false → exec .inputUv s = .next s) ∧
    (p.inputOn = true → does .inputUv (fun t => t.pw.uv = true ∧ dutyIs t ∧ platformTold aonUnit 0x0004 s t ∧ t.mem = s.mem)) ∧
    does .currentLimit (fun t => t.pw.ownDuty = 16 ∧ t.pw.fast = true ∧ dutyIs t ∧ platformTold aonUnit 0x0005 s t ∧ t.mem = s.mem) ∧
    (p.duty.toNat < 64 → p.capAt = none → does .capThrottle (fun t => t.pw.capAt = some s.stg.t ∧ platformTold aonUnit 0x0006 s t)) ∧
    (64 ≤ p.duty.toNat ∨ (∃ x, p.capAt = some x ∧ s.stg.t.toNat < x.toNat + 60000000000) → exec .capThrottle s = .next s) ∧
    (∀ v, exec (.pwCapWrite v) s = .next (s.modPw (fun p => { p with active := v.extractLsb' 61 3, profReq := [] }))) ∧
    (∀ watts volts amps : BitVec 16,
      let act := p.profReq.getLast?.getD p.active
      let w := p.profiles[(Fin.ofNat 8 act.toNat : Fin 8)]
      let e := if p.bmcLimit = 0 then fieldN w 48 16 else min (fieldN w 48 16) p.bmcLimit.toNat
      let d := p.ownDuty.toNat
      let d' := if e < watts.toNat then max (fieldN w 40 7) (d * e / watts.toNat)
        else if watts.toNat * 100 < e * 98 then min 64 (d + 1) else d
      does (.powerEvaluation watts volts amps) (fun t => t.pw.active = act ∧ t.pw.profReq = [] ∧ t.pw.watts = watts ∧ t.pw.volts = volts ∧
        t.pw.amps = amps ∧ t.pw.ownDuty = BitVec.ofNat 7 d' ∧ t.pw.uv = (p.uv && decide (volts.toNat < 3900)) ∧ dutyIs t ∧ t.mem = s.mem)) ∧
    (∀ mask : BitVec 44, p.pend ≠ none →
      let refused := s.modPw (fun p => { p with domErr := 4, domDom := BitVec.ofNat 6 ((maskDomains mask).headD 0) })
      exec (.pwDomctlOn mask) s = .next refused ∧ exec (.pwDomctlOff mask) s = .next refused) ∧
    (∀ mask : BitVec 44, p.pend = none →
      let takes (on : Bool) (m : BitVec 44) : Prop := ∀ d : Fin 44, m.getLsbD d.val = (mask.getLsbD d.val && s.domain d.val != on)
      ((∀ d, d < 44 → mask.getLsbD d = true → s.domain d = false →
          (36 ≤ d → d < 40 → s.domain (32 + 2 * ((d - 36) / 2)) = true ∧ s.domain (33 + 2 * ((d - 36) / 2)) = true) ∧
          (d = 42 → s.domain 43 = true)) →
        does (.pwDomctlOn mask) (fun t => ∃ m, takes true m ∧ t.pw.pend = some (true, m) ∧ t.pw.changing = p.changing ||| m ∧
          t.pw.switched = p.switched ||| m ∧ t.domainOn = s.domainOn ∧ t.mem = s.mem)) ∧
      ((∀ d, d < 44 → mask.getLsbD d = true → s.domain d = true → offErr s d = 0) →
        does (.pwDomctlOff mask) (fun t => ∃ m, takes false m ∧ t.pw.pend = some (false, m) ∧ t.pw.changing = p.changing ||| m ∧
          t.domainOn = s.domainOn &&& ~~~m ∧ t.mem = s.mem ∧
          ∀ w : WellId, m.getLsbD (w.val / 4) = true → (t.cpu w).running = false)) ∧
      (∀ (d : Fin 44) (w : WellId), mask = BitVec.ofNat 44 (2 ^ d.val) → s.domain d.val = true → d.val = w.val / 4 → s.wellJob[w] ≠ none →
        exec (.pwDomctlOff mask) s = .next (s.modPw (fun p => { p with domErr := 1, domDom := BitVec.ofNat 6 d.val })))) ∧
    (p.pend = none → ∀ trained, exec (.domainSwitchComplete trained) s = .next s) ∧
    (∀ m trained, p.pend = some (true, m) → does (.domainSwitchComplete trained) (fun t => t.pw.pend = none ∧ t.pw.changing = p.changing &&& ~~~m ∧
      (∀ d : Fin 44, t.domain d.val = (s.domain d.val || m.getLsbD d.val)) ∧
      (∀ n : StackId, m.getLsbD (36 + n.val / 6) = true → t.stackMask.getLsbD n.val = trained.getLsbD n.val) ∧
      (∀ w : WellId, m.getLsbD (w.val / 4) = true → (∀ b : Fin 28, t.wells[w].st.banks[b] = .off) ∧ (t.cpu w).running = false))) ∧
    (∀ m trained, p.pend = some (false, m) → does (.domainSwitchComplete trained) (fun t => t.pw.pend = none ∧ t.domainOn = s.domainOn ∧
      (∀ w : WellId, m.getLsbD (w.val / 4) = true → (∀ b : Fin 28, t.wells[w].st.banks[b] = .off) ∧
        ∀ o, o < 0x720000 → t.byteAt (wellAddr w o) = 0) ∧
      (∀ e : EngineId, m.getLsbD (if e.val < 2 then 40 else 42) = true → t.cf.engines[e].ops = []))) ∧
    (∀ d : Fin 44, s.domain d.val = true → does (.railFault d) (fun t => t.domain d.val = false ∧ t.pw.fault.getLsbD d.val = true ∧
      (∀ w : WellId, w.val / 4 = d.val → t.wellJob[w] = none) ∧ (32 ≤ d.val → hwBusy s = false → platformTold (domUnit d.val) 0x0007 s t))) ∧
    (∀ d : Fin 44, s.domain d.val = false → exec (.railFault d) s = .next s) ∧
    does .inputTurnOff (fun t => t.domainOn = 0 ∧ t.pw.inputOn = false ∧ t.pw.pwrGood = false) ∧
    (p.refALost = true → exec .refclkALoss s = .next s) ∧
    (p.refALost = false → does .refclkALoss (fun t => t.pw.refALost = true ∧ allStopped t)) ∧
    (p.refBLost = true → exec .refclkBLoss s = .next s) ∧
    (p.refBLost = false → does .refclkBLoss (fun t => t.pw.refBLost = true ∧ allStopped t ∧
      (∀ l : LinkId, s.far.links[l].state = .active → t.far.links[l].state = .down) ∧ (s.by_.state = .active → t.by_.state = .down))) ∧
    (∀ (x : ThermalUnit) (deci : BitVec 16),
      let u : BitVec 16 := match x with | .domain d => domUnit d.val | .aon => domUnit 44 | .stack n => stackUnit n
      let warn : Int := match x with | .stack _ => 800 | _ => 900
      let c := deci.toInt
      let holds (level : Int) (old new : List (BitVec 16)) : Prop := u ∈ new ↔ level ≤ c ∨ (level - 50 < c ∧ u ∈ old)
      does (.thermalSensorRead x deci) (fun t =>
        (match x with | .domain d => t.pw.temps[d.val] = deci | .aon => t.pw.temps[44] = deci | .stack n => t.pw.stackTemps[n] = deci) ∧
          holds warn p.warn t.pw.warn ∧ holds (warn + 50) p.crit t.pw.crit ∧ holds (warn + 150) p.trip t.pw.trip ∧ dutyIs t ∧
          (warn ≤ c → c < warn + 50 → u ∉ p.warn → platformTold u 0x0001 s t) ∧
          (c < warn + 150 ∨ u ∈ p.trip → t.domainOn = s.domainOn ∧ t.mem = s.mem ∧ t.jobs = s.jobs) ∧
          (warn + 150 ≤ c → u ∉ p.trip → t.pw.tripped = true ∧ allStopped t ∧ (∀ l : LinkId, t.far.links[l].state = .disabled) ∧
            ∀ d, d < 44 → t.domain d = (s.domain d && (decide (32 ≤ d ∧ d < 40) || d == 41))))) ∧
    does .hwtrip (fun t => t.domainOn = 0 ∧ t.pw.hwtrip = true ∧ t.pw.thermtrip = true ∧ t.bmc.alert = true)

/-- Board management and boundary scan (R512-R514): with the input on, each message gets the answer the rules give it and an unsupported
one the unsupported status; the BMC's power limit takes 0 or 400 to 2,800 W; the oldest event leaves when it is polled; EXTEST, HIGHZ and
CLAMP act only under POR_N, else as BYPASS. -/
def Obligations.EndpointAndScanPort : Prop :=
  ∀ (s : State),
    let b := s.bmc
    let msgs : List Instr := [.gettidSettid none, .getnumericeffectervalue, .pollforplatformeventmessage, .setnumericeffectervalue 0,
      .mctpControlMessage 0 .getEid 0, .i3cDynamicAddress false 0 1, .getpldmversionTypesCommands 0, .getpdrrepositoryinfoGetpdr none,
      .getsensorreading .inputV, .getstatesensorreadings none, .seteventreceiver 1, .platformeventmessage]
    (s.pw.inputOn = false → ∀ ins ∈ msgs, exec ins s = .next s) ∧
    (s.pw.inputOn = true →
      let saying (r : BmcResp) : State := { s with bmc := { b with resp := r } }
      let polled : Bmc := match b.events with
        | [] => { b with resp := .none, alert := false }
        | e :: rest => { b with resp := .event e, events := rest, alert := !rest.isEmpty }
      (∀ cmd arg, exec (.mctpControlMessage 1 cmd arg) s = .next s ∧
        ∀ ty, ty ≠ 0 → ty ≠ 1 → exec (.mctpControlMessage ty cmd arg) s = .next (saying .unsupported)) ∧
      (∀ arg, exec (.mctpControlMessage 0 .setEid arg) s = .next { s with bmc := { b with eid := arg, resp := .done } } ∧
        exec (.mctpControlMessage 0 .getEid arg) s = .next (saying (.eid b.eid)) ∧
        exec (.mctpControlMessage 0 .getTypes arg) s = .next (saying (.types [0, 1])) ∧
        exec (.mctpControlMessage 0 .getVersion arg) s = .next (saying .version) ∧
        exec (.mctpControlMessage 0 .getUuid arg) s = .next (saying (.uuid Config.endpointUuid)) ∧
        exec (.mctpControlMessage 0 .other arg) s = .next (saying .unsupported)) ∧
      (∀ st a, exec (.i3cDynamicAddress true 0x3A a) s = .next { s with bmc := { b with dynAddr := some a } } ∧
        exec (.i3cDynamicAddress false st a) s = .next { s with bmc := { b with dynAddr := some a } } ∧
        (st ≠ 0x3A → exec (.i3cDynamicAddress true st a) s = .next s)) ∧
      exec (.gettidSettid none) s = .next (saying (.tid b.tid)) ∧
      (∀ x, exec (.gettidSettid (some x)) s = .next { s with bmc := { b with tid := x, resp := .done } }) ∧
      (∀ k, exec (.getpldmversionTypesCommands k) s = .next (saying (.pldm k))) ∧
      exec (.getpdrrepositoryinfoGetpdr none) s = .next (saying (.repositoryInfo 121)) ∧
      (∀ h, exec (.getpdrrepositoryinfoGetpdr (some h)) s = .next (saying (if h < 121 then .pdr h else .unsupported))) ∧
      exec (.getsensorreading .inputV) s = .next (saying (.reading s.pw.volts.toNat)) ∧
      exec (.getsensorreading .inputP) s = .next (saying (.reading s.pw.watts.toNat)) ∧
      (∀ d : Fin 44, exec (.getsensorreading (.hotspot d)) s = .next (saying (.reading s.pw.temps[d.val].toInt)) ∧
        exec (.getstatesensorreadings (some d)) s = .next (saying (.states [BitVec.ofNat 4 (if s.pw.changing.getLsbD d.val then 2 else
          if s.pw.fault.getLsbD d.val then 3 else if s.domainOn.getLsbD d.val then 1
          else if s.pw.fuseLoaded && !s.pw.switched.getLsbD d.val then Config.fusesPrimary.domState.toNat / 4 ^ d.val % 4 else 0)]))) ∧
      exec (.getstatesensorreadings none) s = .next (saying (.states [(thStat s).extractLsb' 60 4])) ∧
      (∀ w : BitVec 16, (w = 0 ∨ (400 ≤ w.toNat ∧ w.toNat ≤ 2800) →
          exec (.setnumericeffectervalue w) s = .next { saying .done with pw := { s.pw with bmcLimit := w } }) ∧
        (w ≠ 0 → (w.toNat < 400 ∨ 2800 < w.toNat) → exec (.setnumericeffectervalue w) s = .next (saying .unsupported))) ∧
      exec .getnumericeffectervalue s = .next (saying (.effecter s.pw.bmcLimit)) ∧
      (∀ e, exec (.seteventreceiver e) s = .next { s with bmc := { b with receiver := some e, resp := .done } }) ∧
      exec .pollforplatformeventmessage s = .next { s with bmc := polled } ∧
      (b.receiver ≠ none → b.events ≠ [] → exec .platformeventmessage s = .next { s with bmc := polled }) ∧
      (b.receiver = none ∨ b.events = [] → exec .platformeventmessage s = .next s)) ∧
    (
      let port (ir : JtagIr) (v : BitVec 32) : State := { s with jtag := { s.jtag with ir := ir, captured := v } }
      exec .bypass s = .next (port .bypass 0) ∧ exec .idcode s = .next (port .idcode 0x10848B93) ∧ exec .trstN s = .next (port .idcode 0x10848B93) ∧
      (∀ l, exec (.samplePreload l) s = .next { s with jtag := { s.jtag with ir := .samplePreload, boundary := l } }) ∧
      (s.su.porLow = false → exec .extest s = .next (port .bypass 0) ∧ exec .highz s = .next (port .bypass 0) ∧
        exec .clamp s = .next (port .bypass 0)) ∧
      (s.su.porLow = true → exec .extest s = .next (port .extest s.jtag.captured) ∧ exec .highz s = .next (port .highz s.jtag.captured) ∧
        exec .clamp s = .next (port .clamp s.jtag.captured)))

/-- Wellhead's mailbox (R516, R520-R522, R524, R526, R530-R532): a request is taken while none is in progress and Wellhead runs; its
completion leaves STATUS, the length and the bytes. A committed bank must verify; an anti-rollback value only rises, under both banks'
images unless it is asked to; a challenge unlocks once and in time, and its scope takes force once the jobs in its way are cleared. -/
def Obligations.WellheadServes : Prop :=
  ∀ (s : State), memWf s.wh.buf = true →
    let w := s.wh
    let rows (req : W64) : List (Nat × Instr) := [(1, .getCerts req), (2, .attest req), (3, .keyLoad req), (4, .debugChallenge req),
      (5, .debugUnlock req), (6, .debugRelock req), (7, .arbAdvance req), (8, .flashWrite req), (9, .flashCommit req)]
    (∀ req, ∀ x ∈ rows req, fieldN req 56 8 = x.1 →
      (whRuns s = true → w.req = none → exec x.2 s = .next (s.modWh (fun w => { w with req := some req, param := req.truncate 32 }))) ∧
      (whRuns s = false ∨ w.req ≠ none → exec x.2 s = .next s)) ∧
    (w.req = none ∨ whRuns s = false → exec .wellheadRequestComplete s = .next s) ∧
    (∀ req, w.req = some req → whRuns s = true →
      let op := fieldN req 56 8
      let arg := fieldN req 48 8
      let v := fieldN req 0 32
      let k : Fin 4 := Fin.ofNat 4 arg
      let inForce := max (arbValue w.arbP[k]) (arbValue w.arbM[k])
      let done (st : BitVec 8) (n : Nat) (P : State → Prop) : Prop := ∃ t, exec .wellheadRequestComplete s = .next t ∧ t.wh.req = none ∧
        t.wh.status = st ∧ t.wh.rlen = BitVec.ofNat 16 n ∧ t.mem = s.mem ∧ P t
      (op = 1 → done 0 Config.certChain.length (fun t => memReads t.wh.buf 0 Config.certChain.length = Config.certChain)) ∧
      (op = 2 → Config.wrappedKeysGood = true → done 0 2048 (fun t => t.wh.rptSeq = w.rptSeq + 1 ∧
        ((memReads t.wh.buf 0 2048).drop 64).take 64 = memReads w.buf 0 64)) ∧
      (op = 2 ∨ op = 3 → Config.wrappedKeysGood = false → done 1 0 (fun t => t.far = s.far)) ∧
      (op = 3 → Config.wrappedKeysGood = true → Config.oaepOpen (BitVec.ofNat 4096 (beNat (memReads w.buf 0 512))) = none →
        done 1 0 (fun t => t.far = s.far)) ∧
      (op = 4 → arg % 4 = 0 → done 1 0 (fun t => t.wh.challenge = w.challenge)) ∧
      (op = 4 → arg % 4 ≠ 0 → done 0 640 (fun t => ∃ c, t.wh.challenge = some c ∧ c.scope.toNat = arg % 4 ∧
        c.expiry = BitVec.ofNat 64 (s.stg.t.toNat + 60000000000) ∧ c.bytes = memReads t.wh.buf 0 128)) ∧
      (
        let sig := BitVec.ofNat 4096 (beNat (memReads w.buf 0 512))
        let jobs (c : Challenge) : List (Fin 32) := slots.filter (fun k => s.jobs[k].state != .free &&
          (c.scope == 3 || c.scope == 2 && (s.basinMode == 0 || s.jobs[k].basin == c.basin)))
        let opened (c : Challenge) (h : BitVec 512) (t : State) : Prop := t.wh.dbgScope = c.scope ∧ t.wh.signer = h ∧
          t.wh.unlocks = stick 16 w.unlocks ∧ t.wh.opening = none
        let opening (c : Challenge) (h : BitVec 512) : Prop := ∃ t, exec .wellheadRequestComplete s = .next t ∧ t.wh.req = some req ∧
          t.wh.opening = some (c, h) ∧ t.wh.dbgScope = w.dbgScope ∧ t.wh.status = w.status ∧ t.mem = s.mem ∧
          ∀ k ∈ jobs c, t.jobs[k].state = .stopping ∨ t.jobs[k].state = .clearing
        (∀ c h, op = 5 → w.opening = some (c, h) → (jobs c = [] → done 0 0 (opened c h)) ∧ (jobs c ≠ [] → hwBusy s = false → opening c h)) ∧
        (op = 5 → w.opening = none → w.challenge = none → done 7 0 (fun t => t.wh.dbgScope = w.dbgScope)) ∧
        (∀ c, op = 5 → w.opening = none → w.challenge = some c →
          (signerOf c sig = none → w.oldChallenges = [] → done 2 0 (fun t => t.wh.dbgScope = w.dbgScope)) ∧
          (∀ h, signerOf c sig = some h →
            (c.expiry.toNat < s.stg.t.toNat → done 7 0 (fun t => t.wh.dbgScope = w.dbgScope ∧ t.wh.challenge = none)) ∧
            (s.stg.t.toNat ≤ c.expiry.toNat → jobs c = [] → done 0 0 (fun t => opened c h t ∧ t.wh.challenge = none)) ∧
            (s.stg.t.toNat ≤ c.expiry.toNat → jobs c ≠ [] → hwBusy s = false → opening c h)))) ∧
      (op = 6 → done 0 0 (fun t => t.wh.dbgScope = 0 ∧ t.wh.unlocks = stick 16 w.unlocks)) ∧
      (op = 7 → v ≤ inForce → done 0 0 (fun t => t.wh.arbP = w.arbP ∧ t.wh.arbM = w.arbM)) ∧
      (op = 7 → inForce < v → 127 < v → done 5 0 (fun t => t.wh.arbP = w.arbP)) ∧
      (op = 7 → inForce < v → v ≤ 127 → arg / 128 % 2 = 1 → done 0 0 (fun t =>
        arbValue t.wh.arbP[k] = v ∧ arbValue t.wh.arbM[k] = v ∧ ∀ i : Fin 4, i ≠ k → t.wh.arbP[i] = w.arbP[i])) ∧
      (op = 7 → inForce < v → v ≤ 127 → arg / 128 % 2 = 0 →
        (hdrSvn (bankOf_ s false)[k].header < v ∨ hdrSvn (bankOf_ s true)[k].header < v → done 6 0 (fun t => t.wh.arbP = w.arbP))) ∧
      (op = 8 → 1024 ≤ v → done 1 0 (fun t => t.wh.flashW = w.flashW)) ∧
      (op = 8 → v < 1024 →
        let n := if fieldN req 32 16 = 0 then 65536 else fieldN req 32 16
        let i : Fin 2 := if w.bank then 0 else 1
        done 0 0 (fun t => t.wh.flashW = w.flashW.set i (w.flashW[i] ++ [(v, memReads w.buf 0 n)]) ∧ t.wh.bank = w.bank)) ∧
      (op = 9 → verifyBank s (!w.bank) = .good → done 0 0 (fun t => t.wh.bank = !w.bank)) ∧
      (op = 9 → verifyBank s (!w.bank) = .badSignature → done 2 0 (fun t => t.wh.bank = w.bank)) ∧
      (op = 9 → verifyBank s (!w.bank) = .stale → done 3 0 (fun t => t.wh.bank = w.bank)) ∧
      (op = 0 ∨ 9 < op → done 1 0 (fun t => t.wh.bank = w.bank)))

/-- Start-up (R519, R525, R533, R535-R537, R541): the release of POR_N begins step 2; each step begins when the one before it completes;
fuse banks that differ and firmware that no bank holds lead to recovery; domains, stacks and wells that fail stay out; step 7 waits for the
links and step 8 for the Byvor Link; service needs S0 and a whole well group. -/
def Obligations.DeviceStarts : Prop :=
  ∀ (s : State), s.MemOk →
    let u := s.su
    let does (ins : Instr) (P : State → Prop) : Prop := ∃ t, exec ins s = .next t ∧ P t
    (u.porLow = false ∨ s.pw.pwrGood = false → exec .porNRelease s = .next s) ∧
    (u.porLow = true → s.pw.pwrGood = true → s.pw.hwtrip = false →
      exec .porNRelease s = .next { s with su := { u with porLow := false, step := 2, elapsed := 0 } }) ∧
    (u.porLow = true → s.pw.pwrGood = true → s.pw.hwtrip = true →
      does .porNRelease (fun t => t.su.step = 2 ∧ t.pw.hwtrip = false ∧ platformTold aonUnit 0x0003 s t)) ∧
    (s.pw.pwrGood = true → exec .inputTurnOn s = .next s) ∧
    (s.pw.pwrGood = false → does .inputTurnOn (fun t => t.pw.pwrGood = true ∧ t.pw.inputOn = true ∧ t.su.porLow = true ∧ t.domainOn = 0)) ∧
    (∀ obs, u.porLow = true ∨ s.pw.inputOn = false ∨ u.st ≠ 0 → exec (.startUpStep obs) s = .next s) ∧
    (u.porLow = false → s.pw.inputOn = true → u.st = 0 → ∀ obs : StartObs,
      let recovers (reason : BitVec 8) : Prop := does (.startUpStep obs) (fun t => t.wh.recovery = true ∧ t.su.st = 3 ∧ t.su.reason = reason ∧
        t.domain 41 = true)
      let boots (b : Bool) : Prop := does (.startUpStep obs) (fun t => t.su.step = 4 ∧ t.wh.booted = some b ∧
        ∀ k : Fin 4, t.wh.meas[k.val + 1] = Config.sha512 (hashBytes s.wh.meas[k.val + 1] ++ hdrBytes (bankOf_ s b)[k].header 0 128))
      (u.step = 2 → Config.fusesPrimary = Config.fusesMirror → does (.startUpStep obs) (fun t => t.su.step = 3 ∧
        t.wh.meas[0] = Config.sha512 (hashBytes s.wh.meas[0] ++ measRom) ∧
        ∀ k : Fin 4, t.wh.arbP[k] = s.wh.arbP[k] ||| s.wh.arbM[k] ∧ t.wh.arbM[k] = s.wh.arbP[k] ||| s.wh.arbM[k])) ∧
      (u.step = 2 → Config.fusesPrimary ≠ Config.fusesMirror → recovers 1) ∧
      (u.step = 3 → verifyBank s s.wh.bank = .good → boots s.wh.bank) ∧
      (u.step = 3 → verifyBank s s.wh.bank ≠ .good → verifyBank s (!s.wh.bank) = .good → boots (!s.wh.bank)) ∧
      (u.step = 3 → (∀ b, verifyBank s b ≠ .good) → recovers 2) ∧
      (u.step = 4 → obs.lockstepOk = false → recovers 3) ∧
      (u.step = 4 → obs.lockstepOk = true → does (.startUpStep obs) (fun t => t.su.step = 5 ∧ ∀ d, 32 ≤ d → d < 44 →
        (obs.regulatorOk.getLsbD d = true → t.domain d = true) ∧
        (obs.regulatorOk.getLsbD d = false → t.domain d = s.domain d ∧ t.pw.fault.getLsbD d = true))) ∧
      (u.step = 5 → does (.startUpStep obs) (fun t => t.su.step = 6 ∧ t.mem = s.mem ∧ ∀ n : StackId,
        t.stackMask.getLsbD n.val = (obs.stacksOk.getLsbD n.val && s.domain (36 + n.val / 6)) ∧ t.stks[n].trained = t.stackMask.getLsbD n.val)) ∧
      (u.step = 6 → does (.startUpStep obs) (fun t => t.su.step = 7 ∧ (∀ a, a < 0x18000000000 → t.byteAt a = 0) ∧
        (∀ h : HalfId, ∀ f : Fin 16, t.halves[h].frames[f] = .off) ∧
        (∀ w : WellId, obs.regulatorOk.getLsbD (w.val / 4) = true ∨ s.domain (w.val / 4) = true →
          (obs.wellsOk.getLsbD w.val = true → t.wells[w].st.scoreboard = true) ∧
          (obs.wellsOk.getLsbD w.val = false → t.hw.retired.getLsbD w.val = true)) ∧
        (obs.slicesOk = false → u.stopped = false → t.su.stopped = true ∧ t.su.reason = 5) ∧
        (∀ cfg ls (l : LinkId), s.wh.fabricRec = some (cfg, ls) → s.linkOn l = true → s.far.links[l].state = .disabled ∨ s.far.links[l].state = .down →
          fieldN (ls.getD l.val 0) 62 2 ≠ 2 → t.far.links[l].state = .training))) ∧
      (u.step = 7 → linksSettled s = false → exec (.startUpStep obs) s = .next s) ∧
      (u.step = 7 → linksSettled s = true → does (.startUpStep obs) (fun t => t.su.step = 8 ∧ t.mem = s.mem ∧
        (byOn s = true → s.by_.state = .disabled ∨ s.by_.state = .down → t.by_.state = .training))) ∧
      (u.step = 8 → s.by_.state ≠ .active → exec (.startUpStep obs) s = .next s) ∧
      (u.step = 8 → s.by_.state = .active → does (.startUpStep obs) (fun t => t.mem = s.mem ∧
        if u.stopped then t.su.st = 2 ∧ platformTold 0x7000 0x0303 s t else t.su.step = 9)) ∧
      (u.step = 9 → does (.startUpStep obs) (fun t => t.su.step = 10 ∧
        (∀ w, wellServes s w = true → t.wells[w].st.scoreboard = false ∧ t.wells[w].st.tags = 0) ∧
        (if s.stackMask.getLsbD 0 ∧ wholeGroup s 0 32 = true then
          t.su.st = 1 ∧ platformTold 0x7000 0x0301 s t ∧
            (degradedStart s = true → platformRaised s 0x7000 = false → ∃ r ∈ t.bf.held, r.unit = 0x7000 ∧ r.detail = 0x0302)
        else t.su.st = 2 ∧ t.su.reason = (if s.stackMask.getLsbD 0 then 6 else 4) ∧ platformTold 0x7000 0x0303 s t))))

/-- The four resets (R543, R544, R546-R549) and a control processor's loss (R455): what each keeps and what it clears, when a basin or a
well reset is refused, that a warm reset waits for a tripped device to cool and a well reset for data that the well's Pumps await (the
model's choices: logs 210 and 213), and the weirs that a basin reset leaves at the links (log 214). -/
def Obligations.ResetsKeepAndClear : Prop :=
  ∀ (s : State), s.MemOk →
    let does (ins : Instr) (P : State → Prop) : Prop := ∃ t, exec ins s = .next t ∧ P t
    let cleared (t : State) : Prop := t.domainOn = 0 ∧ t.mem = [] ∧ (∀ k : Fin 32, t.jobs[k].state = .free) ∧ (∀ w, (t.cpu w).running = false) ∧
      (∀ c : CtrId, t.counters[c].value = 0) ∧ t.events = [] ∧ t.devValid = false ∧ t.stg.role = 0 ∧ t.pw.active = 0 ∧ t.wh.dbgScope = 0 ∧
      (∀ k : Fin 16, t.wh.meas[k] = 0) ∧ (∀ l : LinkId, ∀ i : Fin 4, t.far.links[l].keys[i] = none) ∧ t.wh.arbP = s.wh.arbP ∧ t.wh.arbM = s.wh.arbM ∧
      t.wh.bank = s.wh.bank ∧ t.wh.flashW = s.wh.flashW ∧ t.wh.fabricRec = s.wh.fabricRec
    does .porNAssert (fun t => cleared t ∧ t.su.porLow = true ∧ t.basinMode = 0 ∧ t.hw.retired = 0 ∧ t.wh.keySeqs = [] ∧ t.hw.soundSeq = 0 ∧
      t.stg.t = 0 ∧ t.bf.wearLog = s.bf.wearLog) ∧
    (∀ ins ∈ [Instr.warmN, .warm],
      (s.su.porLow = true ∨ s.pw.inputOn = false ∨ s.pw.hwtrip = true ∨ s.pw.tripped = true ∧ cooled s = false → exec ins s = .next s) ∧
      (s.su.porLow = false → s.pw.inputOn = true → s.pw.hwtrip = false → s.pw.tripped = false ∨ cooled s = true → does ins (fun t => cleared t ∧ t.su.step = 2 ∧ t.su.st = 0 ∧
        t.su.last = 1 ∧ t.su.warms = stick 16 s.su.warms ∧ t.basinMode = s.basinMode ∧ t.weirs = s.weirs ∧ t.hw.basinCfg = s.hw.basinCfg ∧
        t.hw.retired = s.hw.retired ∧ t.stg.t = s.stg.t ∧ t.wh.keySeqs = s.wh.keySeqs ∧ t.hw.soundSeq = s.hw.soundSeq ∧ t.evtSeq = s.evtSeq ∧
        t.evtLost = s.evtLost + BitVec.ofNat 64 s.events.length ∧ ∀ r : Fin 4, t.hw.rings[r].last = s.hw.rings[r].last))) ∧
    (
      let cfg := s.hw.basinCfg.getD (s.basinMode, [])
      let refused (e : BitVec 3) : State := { s with wh := { s.wh with resetErr := e } }
      (s.su.st ≠ 1 → exec .basin s = .next s) ∧
      (s.su.st = 1 → (∃ k : Fin 32, s.jobs[k].state ≠ .free) → exec .basin s = .next (refused 1)) ∧
      (s.su.st = 1 → (∀ k : Fin 32, s.jobs[k].state = .free) → layoutOk s cfg.1 = false → exec .basin s = .next (refused 3)) ∧
      (s.su.st = 1 → (∀ k : Fin 32, s.jobs[k].state = .free) → layoutOk s cfg.1 = true → does .basin (fun t => t.basinMode = cfg.1 ∧
        (∀ h : HalfId, ∀ f : Fin 16, t.halves[h].frames[f] = .off) ∧ (∀ c : CtrId, t.counters[c].value = 0) ∧
        (∀ e : EngineId, t.cf.engines[e].ops = []) ∧ t.stg.role = 0 ∧ t.pw.active = 0 ∧ (∀ k : Fin 16, 8 ≤ k.val → k.val < 12 → t.wh.meas[k] = 0) ∧
        t.su.last = 2 ∧ t.by_ = s.by_ ∧ t.hw.retired = s.hw.retired ∧ ∀ l : LinkId,
          (∃ ws : Vector Weir 4, t.far.links[l] = { s.far.links[l] with weirs := ws }) ∧
          ∀ b : Fin 4, b.val < basinCount' cfg.1 → t.far.links[l].weirs[b].en = true ∧ t.far.links[l].weirs[b].ceil = 0x100 ∧
            t.far.links[l].weirs[b].floor.toNat = 0x100 / basinCount' cfg.1 ∧ t.far.links[l].weirs[b].queue = [])) ∧
      ∀ w pass,
        let fits := !s.hw.retired.getLsbD w.val && s.wellOn w && (s.wellJob[w].isNone || s.wells[w].cpu.wedged)
        (s.su.st ≠ 1 → exec (.well w pass) s = .next s) ∧
        (s.su.st = 1 → fits = false → exec (.well w pass) s = .next (refused 2)) ∧
        let drained := wellDrained (stopWell w s) w
        (s.su.st = 1 → fits = true → drained = false → exec (.well w pass) s = .next (stopWell w s)) ∧
        (s.su.st = 1 → fits = true → drained = true → pass = true → does (.well w pass) (fun t => (t.cpu w).running = false ∧ t.wells[w].st.scoreboard = false ∧
          t.wells[w].st.tags = 0 ∧ (∀ o, o < 0x720000 → t.byteAt (wellAddr w o) = 0) ∧ t.su.last = 3 ∧ t.wellJob = s.wellJob ∧ ∀ l : LinkId, t.far.links[l].state = s.far.links[l].state)) ∧
        (s.su.st = 1 → fits = true → drained = true → pass = false → does (.well w pass) (fun t => t.hw.retired.getLsbD w.val = true ∧ t.su.last = 3))) ∧
    ∀ core : Fin 5, does (.controlProcessorMemoryError core) (fun t =>
      (∀ i : Fin 5, t.hw.coreStopped.getLsbD i.val = (s.hw.coreStopped.getLsbD i.val || i == core)) ∧ t.mem = s.mem ∧
        ∃ r, t.reports = s.reports ++ [r] ∧ r.cls = 0x0C ∧ r.unit = if core = 4 then 0x9000 else BitVec.ofNat 16 (0x6010 + core.val))

/-- REGISTER_WRITE (R3, R24, R25, R111, R291, R353, R419, R509, R532): no Windlass reaches the control register space and a reserved address
takes nothing; the control registers of a well take writes of its ring 0 and of Headwater (the model's choice, log 223), and WM_OUT only
once its previous message has been read; a write sets the RW fields of its register, leaves the read-only ones and clears what it writes 1
to in an RW1C field; a field outside its range keeps its value; a word of the mailbox buffer is written alone. -/
def Obligations.RegisterWritesSetTheirFields : Prop :=
  ∀ (s : State) (src : Agent) (v : W64), memWf s.wh.buf = true →
    let into (a : Nat) : Out := exec (.registerWrite src (BitVec.ofNat 44 a) v) s
    let stage (f : Stage → Stage) : Out := .next (s.modStg f)
    let control (w : WellId) (o : Nat) : Out := into (wellAddr w o)
    (∀ a, a < 0x30000000000 ∨ 0x30080000000 ≤ a ∧ a < 0xF0000000000 → into a = .next s) ∧
    (∀ (w : WellId) (o : Nat), o < 0x1000000 →
      o < 0xF00000 ∨ o % 8 ≠ 0 ∨ s.wellOn w = false ∨ src ≠ .headwater ∧ src ≠ .windlass → control w o = .next s) ∧
    (∀ w : WellId, s.wellOn w = true → src = .headwater ∨ src = .windlass →
      let regs (f : Well → Well) : Out := .next (s.modWell w f)
      let st (f : Stores → Stores) : Out := .next (s.modSt w f)
      (∀ p : Fin 2, control w (0xF05010 + 8 * p.val) = .next (s.modPump (wellPump w p) (fun x => { x with errValid := x.errValid && !bitB v 63 }))) ∧
      (control w 0xF04000 = if s.wells[w].mailOut = none then regs (fun u => { u with mailOut := some v }) else .next s) ∧
      control w 0xF06020 = st (fun t => { t with stalled := t.stalled && !bitB v 63, limit := v.extractLsb' 32 16 }) ∧
      control w 0xF06028 = st (fun t => { t with cecnt := { t.cecnt with ovf := t.cecnt.ovf && !bitB v 63 } }) ∧
      (control w 0xF07100 = if src = .windlass ∧ fieldN v 16 13 ≤ 4096 then
          .next (s.modMr w (fun m => { m with trigBase := v.extractLsb' 0 12, trigCount := v.extractLsb' 16 13 })) else .next s) ∧
      (∀ o ∈ [0xF05000, 0xF05008, 0xF06010, 0xF06018, 0xF07000], control w o = .next s)) ∧
    (src = .windlass → ∀ a, 0xF0000000000 ≤ a → a < 2 ^ 44 → into a = .next s) ∧
    (src ≠ .windlass →
      (∀ a, 0xF0000000000 ≤ a → a % 8 ≠ 0 ∨ 0xF0800000000 ≤ a → a < 2 ^ 44 → into a = .next s) ∧
      (∀ o ∈ [0x000, 0x008, 0x018, 0x048, 0x050, 0x058], into (0xF0500000000 + o) = .next s) ∧
      into 0xF0500000010 = exec (.stCfgWrite v) s ∧
      into 0xF0500000020 = stage (fun g => { g with linit := v.extractLsb' 0 40 }) ∧
      into 0xF0500000028 = stage (fun g => { g with timeout := v.extractLsb' 56 8, deadline := v.extractLsb' 24 24, minstep := v.extractLsb' 0 24 }) ∧
      into 0xF0500000030 = stage (fun g => { g with wirecomp := v.extractLsb' 32 16, rillhop := v.extractLsb' 0 16 }) ∧
      into 0xF0500000040 = stage (fun g => { g with sLate := g.sLate && !bitB v 63, mismatch := g.mismatch && !bitB v 62, stuck := g.stuck && !bitB v 61 }) ∧
      into 0xF0500000060 = stage (fun g => { g with badslot := g.badslot && !bitB v 63 }) ∧
      (∀ (n : Fin 256) (k : Fin 4), into (0xF0500001000 + 32 * n.val + 8 * k.val) = exec (.eventSlotWrite n k v) s) ∧
      (∀ n : Fin 8,
        let old := s.pw.profiles[n]
        (src ≠ .headwater → into (0xF0600000040 + 8 * n.val) = .next s) ∧
        (src = .headwater → ∃ t, into (0xF0600000040 + 8 * n.val) = .next t ∧ t.pw.profiles = s.pw.profiles.set n t.pw.profiles[n] ∧ t.mem = s.mem ∧
          fieldN t.pw.profiles[n] 48 16 = (if 400 ≤ fieldN v 48 16 ∧ fieldN v 48 16 ≤ 2800 then fieldN v 48 16 else fieldN old 48 16) ∧
          fieldN t.pw.profiles[n] 40 7 = (if 1 ≤ fieldN v 40 7 ∧ fieldN v 40 7 ≤ 64 then fieldN v 40 7 else fieldN old 40 7))) ∧
      into 0xF0600000020 = (if src = .headwater then exec (.pwCapWrite v) s else .next s) ∧
      into 0xF0600000028 = .next (s.modPw (fun p => { p with fast := p.fast && !bitB v 56 })) ∧
      (∀ o, o < 0x10000 → o % 8 = 0 → ∃ t, into (0xF0700010000 + o) = .next t ∧ memReads t.wh.buf o 8 = wordBytes v ∧
        (∀ b, b < o ∨ o + 8 ≤ b → memRead t.wh.buf b = memRead s.wh.buf b) ∧ memWf t.wh.buf = true ∧ t = { s with wh := { s.wh with buf := t.wh.buf } }))

/-- A step takes the command at the front of the queue and is its effect with the queue's rest; on an empty queue the block lets one
nanosecond of the stage timer pass (the model's choice, log 5), in which, with no job loaded and nothing that waits, memory and the
Windlasses stand still but for CYCLE, which counts the edges of a powered well's clock; a table word spells no command, since the table gives no row any bits. -/
def Obligations.StepRunsTheFrontCommand : Prop :=
  (∀ (c : Instr) (rest : List Instr) (s : State), step { s with pending := c :: rest } = exec c { s with pending := rest }) ∧
  (∀ s : State, s.pending = [] → ∃ t, step s = .next t ∧ t.stg.t = s.stg.t + 1 ∧ t.pending = [] ∧
    ((∀ k : Fin 32, s.jobs[k].state = .free) → hwBusy s = false → s.far.waiting = [] → s.by_.held = [] → t.mem = s.mem ∧ ∀ w : WellId,
      (t.cpu w).gN = (s.cpu w).gN ∧ (t.cpu w).pc = (s.cpu w).pc ∧ (t.cpu w).cycle.count = (s.cpu w).cycle.count +
        (if s.wellOn w && s.dieClocked then BitVec.ofNat _ (wellEdges s.stg.t.toNat) else 0))) ∧
  ∀ nbits w, decodeTableWord nbits w = none ∧ ∀ s : State, s.withFetchWord nbits w = s

/-- What power-on reset leaves where the spec gives the value (R16, R43, R94, R157, R166, R205, R209, R248, R331, R353, R373, R493, R538):
no command waits, every domain is off, wells stand in scoreboard mode in ring 0 with rounding to nearest, stores and registers read zero,
the stage is OFF, the links are DISABLED, and memory is in canonical form. -/
def Obligations.ResetLeaves : Prop :=
  let s := State.reset
  s.MemOk ∧ s.pending = [] ∧ s.domainOn = 0 ∧ s.basinMode = 0 ∧ s.stackMask = 0 ∧ s.devValid = false ∧ (∀ a, s.byteAt a = 0) ∧
    (∀ w : WellId, let c := s.cpu w
      c.running = false ∧ c.eff.ring = 0 ∧ c.eff.bank = false ∧ c.eff.ie = false ∧ c.eff.frm = 1 ∧ c.flags = 0 ∧ c.drlim = 0x720 ∧
        c.cycle.count = 0 ∧ c.instret.count = 0 ∧ c.exc = ExcRegs.reset ∧ (∀ r : Fin 32, c.gN[r] = 0 ∧ c.gS[r] = 0) ∧ (∀ r : Fin 16, c.q[r] = 0) ∧
        s.wells[w].flume.vl = 0 ∧ s.wells[w].flume.vstart = 0 ∧ s.wells[w].mr.queue = [] ∧ s.wells[w].mr.frozen = false ∧
        s.wells[w].st.scoreboard = true ∧ s.wells[w].st.tags = 0 ∧ ∀ b : Fin 28, s.wells[w].st.banks[b] = .off) ∧
    (∀ k : Fin 64, s.weirs[k].en = false ∧ s.weirs[k].ceil = 0x100 ∧ s.weirs[k].floor = 0 ∧ s.weirs[k].depth = 0x10) ∧
    (s.stg.role = 0 ∧ s.stg.number = 0 ∧ s.stg.maxrep = 3 ∧ s.stg.timeout = 0x10 ∧ s.stg.sync = 0) ∧
    (∀ l : LinkId, s.far.links[l].state = .disabled ∧ s.far.links[l].retryMs = 0x3E8 ∧ s.far.links[l].cred = 0x0204162002) ∧
    (∀ c : CtrId, s.counters[c].value = 0 ∧ s.counters[c].sat = false) ∧ (∀ k : Fin 32, s.jobs[k].state = .free) ∧
    s.by_.state = .disabled ∧ s.by_.retryMs = 0x64 ∧ s.pw.active = 0 ∧ s.wh.dbgScope = 0 ∧ s.su.step = 1 ∧ s.su.st = 0

/-- Every step keeps the memories in their canonical form (R22, R532): the device memory and Wellhead's mailbox buffer, from every state
that has them so, whatever command is at the front of the queue. And every command completes in every state: nothing is refused, and the
one fault is for an instruction word that its sender put under the row of another instruction. -/
def Obligations.StepKeepsMemoryCanonical : Prop :=
  (∀ s t : State, s.MemOk → memWf s.wh.buf = true → step s = .next t → t.MemOk ∧ memWf t.wh.buf = true) ∧
  ∀ s : State, (∃ t, step s = .next t) ∨ ∃ m, step s = .fault (.wrongRow m)
end

