-- ==== Sys2Proof/Laws/State.lean ====
section
/-! SUPPORT. Record-update lemmas of State: what each update of one component leaves as it was, and what it makes of that component. -/

namespace Sys2Proof.Machine

/-! modWell -/

@[simp] theorem State.modWell_pending (s : State) (w : WellId) (f : Well → Well) : (s.modWell w f).pending = s.pending := rfl
@[simp] theorem State.modWell_free (s : State) (w : WellId) (f : Well → Well) : (s.modWell w f).free = s.free := rfl
@[simp] theorem State.modWell_mem (s : State) (w : WellId) (f : Well → Well) : (s.modWell w f).mem = s.mem := rfl
@[simp] theorem State.modWell_ue (s : State) (w : WellId) (f : Well → Well) : (s.modWell w f).ue = s.ue := rfl
@[simp] theorem State.modWell_ce (s : State) (w : WellId) (f : Well → Well) : (s.modWell w f).ce = s.ce := rfl
@[simp] theorem State.modWell_domainOn (s : State) (w : WellId) (f : Well → Well) : (s.modWell w f).domainOn = s.domainOn := rfl
@[simp] theorem State.modWell_reports (s : State) (w : WellId) (f : Well → Well) : (s.modWell w f).reports = s.reports := rfl
@[simp] theorem State.modWell_stg (s : State) (w : WellId) (f : Well → Well) : (s.modWell w f).stg = s.stg := rfl
@[simp] theorem State.modWell_far (s : State) (w : WellId) (f : Well → Well) : (s.modWell w f).far = s.far := rfl
@[simp] theorem State.modWell_cf (s : State) (w : WellId) (f : Well → Well) : (s.modWell w f).cf = s.cf := rfl
@[simp] theorem State.modWell_basinMode (s : State) (w : WellId) (f : Well → Well) : (s.modWell w f).basinMode = s.basinMode := rfl
@[simp] theorem State.modWell_pumps (s : State) (w : WellId) (f : Well → Well) : (s.modWell w f).pumps = s.pumps := rfl
@[simp] theorem State.modWell_fronts (s : State) (w : WellId) (f : Well → Well) : (s.modWell w f).fronts = s.fronts := rfl
@[simp] theorem State.modWell_invals (s : State) (w : WellId) (f : Well → Well) : (s.modWell w f).invals = s.invals := rfl
@[simp] theorem State.modWell_asidBase (s : State) (w : WellId) (f : Well → Well) : (s.modWell w f).asidBase = s.asidBase := rfl
@[simp] theorem State.modWell_halves (s : State) (w : WellId) (f : Well → Well) : (s.modWell w f).halves = s.halves := rfl
@[simp] theorem State.modWell_lines (s : State) (w : WellId) (f : Well → Well) : (s.modWell w f).lines = s.lines := rfl
@[simp] theorem State.modWell_cErr (s : State) (w : WellId) (f : Well → Well) : (s.modWell w f).cErr = s.cErr := rfl
@[simp] theorem State.modWell_cTagErr (s : State) (w : WellId) (f : Well → Well) : (s.modWell w f).cTagErr = s.cTagErr := rfl
@[simp] theorem State.modWell_poison (s : State) (w : WellId) (f : Well → Well) : (s.modWell w f).poison = s.poison := rfl
@[simp] theorem State.modWell_stErr (s : State) (w : WellId) (f : Well → Well) : (s.modWell w f).stErr = s.stErr := rfl
@[simp] theorem State.modWell_stks (s : State) (w : WellId) (f : Well → Well) : (s.modWell w f).stks = s.stks := rfl
@[simp] theorem State.modWell_stackMask (s : State) (w : WellId) (f : Well → Well) : (s.modWell w f).stackMask = s.stackMask := rfl
@[simp] theorem State.modWell_weirs (s : State) (w : WellId) (f : Well → Well) : (s.modWell w f).weirs = s.weirs := rfl
@[simp] theorem State.modWell_weirRr (s : State) (w : WellId) (f : Well → Well) : (s.modWell w f).weirRr = s.weirRr := rfl
@[simp] theorem State.modWell_prot (s : State) (w : WellId) (f : Well → Well) : (s.modWell w f).prot = s.prot := rfl
@[simp] theorem State.modWell_capturing (s : State) (w : WellId) (f : Well → Well) : (s.modWell w f).capturing = s.capturing := rfl
@[simp] theorem State.modWell_devValid (s : State) (w : WellId) (f : Well → Well) : (s.modWell w f).devValid = s.devValid := rfl
@[simp] theorem State.modWell_devId (s : State) (w : WellId) (f : Well → Well) : (s.modWell w f).devId = s.devId := rfl
@[simp] theorem State.modWell_events (s : State) (w : WellId) (f : Well → Well) : (s.modWell w f).events = s.events := rfl
@[simp] theorem State.modWell_evtSeq (s : State) (w : WellId) (f : Well → Well) : (s.modWell w f).evtSeq = s.evtSeq := rfl
@[simp] theorem State.modWell_evtLost (s : State) (w : WellId) (f : Well → Well) : (s.modWell w f).evtLost = s.evtLost := rfl
@[simp] theorem State.modWell_evtFirstLost (s : State) (w : WellId) (f : Well → Well) : (s.modWell w f).evtFirstLost = s.evtFirstLost := rfl
@[simp] theorem State.modWell_jobs (s : State) (w : WellId) (f : Well → Well) : (s.modWell w f).jobs = s.jobs := rfl
@[simp] theorem State.modWell_wellJob (s : State) (w : WellId) (f : Well → Well) : (s.modWell w f).wellJob = s.wellJob := rfl
@[simp] theorem State.modWell_counters (s : State) (w : WellId) (f : Well → Well) : (s.modWell w f).counters = s.counters := rfl
@[simp] theorem State.modWell_inflight (s : State) (w : WellId) (f : Well → Well) : (s.modWell w f).inflight = s.inflight := rfl
@[simp] theorem State.modWell_sync (s : State) (w : WellId) (f : Well → Well) : (s.modWell w f).sync = s.sync := rfl
@[simp] theorem State.modWell_hw (s : State) (w : WellId) (f : Well → Well) : (s.modWell w f).hw = s.hw := rfl
@[simp] theorem State.modWell_by_ (s : State) (w : WellId) (f : Well → Well) : (s.modWell w f).by_ = s.by_ := rfl
@[simp] theorem State.modWell_bf (s : State) (w : WellId) (f : Well → Well) : (s.modWell w f).bf = s.bf := rfl
@[simp] theorem State.modWell_pw (s : State) (w : WellId) (f : Well → Well) : (s.modWell w f).pw = s.pw := rfl
@[simp] theorem State.modWell_bmc (s : State) (w : WellId) (f : Well → Well) : (s.modWell w f).bmc = s.bmc := rfl
@[simp] theorem State.modWell_jtag (s : State) (w : WellId) (f : Well → Well) : (s.modWell w f).jtag = s.jtag := rfl
@[simp] theorem State.modWell_wh (s : State) (w : WellId) (f : Well → Well) : (s.modWell w f).wh = s.wh := rfl
@[simp] theorem State.modWell_su (s : State) (w : WellId) (f : Well → Well) : (s.modWell w f).su = s.su := rfl

/-! modCpu -/

@[simp] theorem State.modCpu_pending (s : State) (w : WellId) (f : Windlass → Windlass) : (s.modCpu w f).pending = s.pending := rfl
@[simp] theorem State.modCpu_free (s : State) (w : WellId) (f : Windlass → Windlass) : (s.modCpu w f).free = s.free := rfl
@[simp] theorem State.modCpu_mem (s : State) (w : WellId) (f : Windlass → Windlass) : (s.modCpu w f).mem = s.mem := rfl
@[simp] theorem State.modCpu_ue (s : State) (w : WellId) (f : Windlass → Windlass) : (s.modCpu w f).ue = s.ue := rfl
@[simp] theorem State.modCpu_ce (s : State) (w : WellId) (f : Windlass → Windlass) : (s.modCpu w f).ce = s.ce := rfl
@[simp] theorem State.modCpu_domainOn (s : State) (w : WellId) (f : Windlass → Windlass) : (s.modCpu w f).domainOn = s.domainOn := rfl
@[simp] theorem State.modCpu_reports (s : State) (w : WellId) (f : Windlass → Windlass) : (s.modCpu w f).reports = s.reports := rfl
@[simp] theorem State.modCpu_stg (s : State) (w : WellId) (f : Windlass → Windlass) : (s.modCpu w f).stg = s.stg := rfl
@[simp] theorem State.modCpu_far (s : State) (w : WellId) (f : Windlass → Windlass) : (s.modCpu w f).far = s.far := rfl
@[simp] theorem State.modCpu_cf (s : State) (w : WellId) (f : Windlass → Windlass) : (s.modCpu w f).cf = s.cf := rfl
@[simp] theorem State.modCpu_basinMode (s : State) (w : WellId) (f : Windlass → Windlass) : (s.modCpu w f).basinMode = s.basinMode := rfl
@[simp] theorem State.modCpu_pumps (s : State) (w : WellId) (f : Windlass → Windlass) : (s.modCpu w f).pumps = s.pumps := rfl
@[simp] theorem State.modCpu_fronts (s : State) (w : WellId) (f : Windlass → Windlass) : (s.modCpu w f).fronts = s.fronts := rfl
@[simp] theorem State.modCpu_invals (s : State) (w : WellId) (f : Windlass → Windlass) : (s.modCpu w f).invals = s.invals := rfl
@[simp] theorem State.modCpu_asidBase (s : State) (w : WellId) (f : Windlass → Windlass) : (s.modCpu w f).asidBase = s.asidBase := rfl
@[simp] theorem State.modCpu_halves (s : State) (w : WellId) (f : Windlass → Windlass) : (s.modCpu w f).halves = s.halves := rfl
@[simp] theorem State.modCpu_lines (s : State) (w : WellId) (f : Windlass → Windlass) : (s.modCpu w f).lines = s.lines := rfl
@[simp] theorem State.modCpu_cErr (s : State) (w : WellId) (f : Windlass → Windlass) : (s.modCpu w f).cErr = s.cErr := rfl
@[simp] theorem State.modCpu_cTagErr (s : State) (w : WellId) (f : Windlass → Windlass) : (s.modCpu w f).cTagErr = s.cTagErr := rfl
@[simp] theorem State.modCpu_poison (s : State) (w : WellId) (f : Windlass → Windlass) : (s.modCpu w f).poison = s.poison := rfl
@[simp] theorem State.modCpu_stErr (s : State) (w : WellId) (f : Windlass → Windlass) : (s.modCpu w f).stErr = s.stErr := rfl
@[simp] theorem State.modCpu_stks (s : State) (w : WellId) (f : Windlass → Windlass) : (s.modCpu w f).stks = s.stks := rfl
@[simp] theorem State.modCpu_stackMask (s : State) (w : WellId) (f : Windlass → Windlass) : (s.modCpu w f).stackMask = s.stackMask := rfl
@[simp] theorem State.modCpu_weirs (s : State) (w : WellId) (f : Windlass → Windlass) : (s.modCpu w f).weirs = s.weirs := rfl
@[simp] theorem State.modCpu_weirRr (s : State) (w : WellId) (f : Windlass → Windlass) : (s.modCpu w f).weirRr = s.weirRr := rfl
@[simp] theorem State.modCpu_prot (s : State) (w : WellId) (f : Windlass → Windlass) : (s.modCpu w f).prot = s.prot := rfl
@[simp] theorem State.modCpu_capturing (s : State) (w : WellId) (f : Windlass → Windlass) : (s.modCpu w f).capturing = s.capturing := rfl
@[simp] theorem State.modCpu_devValid (s : State) (w : WellId) (f : Windlass → Windlass) : (s.modCpu w f).devValid = s.devValid := rfl
@[simp] theorem State.modCpu_devId (s : State) (w : WellId) (f : Windlass → Windlass) : (s.modCpu w f).devId = s.devId := rfl
@[simp] theorem State.modCpu_events (s : State) (w : WellId) (f : Windlass → Windlass) : (s.modCpu w f).events = s.events := rfl
@[simp] theorem State.modCpu_evtSeq (s : State) (w : WellId) (f : Windlass → Windlass) : (s.modCpu w f).evtSeq = s.evtSeq := rfl
@[simp] theorem State.modCpu_evtLost (s : State) (w : WellId) (f : Windlass → Windlass) : (s.modCpu w f).evtLost = s.evtLost := rfl
@[simp] theorem State.modCpu_evtFirstLost (s : State) (w : WellId) (f : Windlass → Windlass) : (s.modCpu w f).evtFirstLost = s.evtFirstLost := rfl
@[simp] theorem State.modCpu_jobs (s : State) (w : WellId) (f : Windlass → Windlass) : (s.modCpu w f).jobs = s.jobs := rfl
@[simp] theorem State.modCpu_wellJob (s : State) (w : WellId) (f : Windlass → Windlass) : (s.modCpu w f).wellJob = s.wellJob := rfl
@[simp] theorem State.modCpu_counters (s : State) (w : WellId) (f : Windlass → Windlass) : (s.modCpu w f).counters = s.counters := rfl
@[simp] theorem State.modCpu_inflight (s : State) (w : WellId) (f : Windlass → Windlass) : (s.modCpu w f).inflight = s.inflight := rfl
@[simp] theorem State.modCpu_sync (s : State) (w : WellId) (f : Windlass → Windlass) : (s.modCpu w f).sync = s.sync := rfl
@[simp] theorem State.modCpu_hw (s : State) (w : WellId) (f : Windlass → Windlass) : (s.modCpu w f).hw = s.hw := rfl
@[simp] theorem State.modCpu_by_ (s : State) (w : WellId) (f : Windlass → Windlass) : (s.modCpu w f).by_ = s.by_ := rfl
@[simp] theorem State.modCpu_bf (s : State) (w : WellId) (f : Windlass → Windlass) : (s.modCpu w f).bf = s.bf := rfl
@[simp] theorem State.modCpu_pw (s : State) (w : WellId) (f : Windlass → Windlass) : (s.modCpu w f).pw = s.pw := rfl
@[simp] theorem State.modCpu_bmc (s : State) (w : WellId) (f : Windlass → Windlass) : (s.modCpu w f).bmc = s.bmc := rfl
@[simp] theorem State.modCpu_jtag (s : State) (w : WellId) (f : Windlass → Windlass) : (s.modCpu w f).jtag = s.jtag := rfl
@[simp] theorem State.modCpu_wh (s : State) (w : WellId) (f : Windlass → Windlass) : (s.modCpu w f).wh = s.wh := rfl
@[simp] theorem State.modCpu_su (s : State) (w : WellId) (f : Windlass → Windlass) : (s.modCpu w f).su = s.su := rfl

/-! modFlume -/

@[simp] theorem State.modFlume_pending (s : State) (w : WellId) (f : Flume → Flume) : (s.modFlume w f).pending = s.pending := rfl
@[simp] theorem State.modFlume_free (s : State) (w : WellId) (f : Flume → Flume) : (s.modFlume w f).free = s.free := rfl
@[simp] theorem State.modFlume_mem (s : State) (w : WellId) (f : Flume → Flume) : (s.modFlume w f).mem = s.mem := rfl
@[simp] theorem State.modFlume_ue (s : State) (w : WellId) (f : Flume → Flume) : (s.modFlume w f).ue = s.ue := rfl
@[simp] theorem State.modFlume_ce (s : State) (w : WellId) (f : Flume → Flume) : (s.modFlume w f).ce = s.ce := rfl
@[simp] theorem State.modFlume_domainOn (s : State) (w : WellId) (f : Flume → Flume) : (s.modFlume w f).domainOn = s.domainOn := rfl
@[simp] theorem State.modFlume_reports (s : State) (w : WellId) (f : Flume → Flume) : (s.modFlume w f).reports = s.reports := rfl
@[simp] theorem State.modFlume_stg (s : State) (w : WellId) (f : Flume → Flume) : (s.modFlume w f).stg = s.stg := rfl
@[simp] theorem State.modFlume_far (s : State) (w : WellId) (f : Flume → Flume) : (s.modFlume w f).far = s.far := rfl
@[simp] theorem State.modFlume_cf (s : State) (w : WellId) (f : Flume → Flume) : (s.modFlume w f).cf = s.cf := rfl
@[simp] theorem State.modFlume_basinMode (s : State) (w : WellId) (f : Flume → Flume) : (s.modFlume w f).basinMode = s.basinMode := rfl
@[simp] theorem State.modFlume_pumps (s : State) (w : WellId) (f : Flume → Flume) : (s.modFlume w f).pumps = s.pumps := rfl
@[simp] theorem State.modFlume_fronts (s : State) (w : WellId) (f : Flume → Flume) : (s.modFlume w f).fronts = s.fronts := rfl
@[simp] theorem State.modFlume_invals (s : State) (w : WellId) (f : Flume → Flume) : (s.modFlume w f).invals = s.invals := rfl
@[simp] theorem State.modFlume_asidBase (s : State) (w : WellId) (f : Flume → Flume) : (s.modFlume w f).asidBase = s.asidBase := rfl
@[simp] theorem State.modFlume_halves (s : State) (w : WellId) (f : Flume → Flume) : (s.modFlume w f).halves = s.halves := rfl
@[simp] theorem State.modFlume_lines (s : State) (w : WellId) (f : Flume → Flume) : (s.modFlume w f).lines = s.lines := rfl
@[simp] theorem State.modFlume_cErr (s : State) (w : WellId) (f : Flume → Flume) : (s.modFlume w f).cErr = s.cErr := rfl
@[simp] theorem State.modFlume_cTagErr (s : State) (w : WellId) (f : Flume → Flume) : (s.modFlume w f).cTagErr = s.cTagErr := rfl
@[simp] theorem State.modFlume_poison (s : State) (w : WellId) (f : Flume → Flume) : (s.modFlume w f).poison = s.poison := rfl
@[simp] theorem State.modFlume_stErr (s : State) (w : WellId) (f : Flume → Flume) : (s.modFlume w f).stErr = s.stErr := rfl
@[simp] theorem State.modFlume_stks (s : State) (w : WellId) (f : Flume → Flume) : (s.modFlume w f).stks = s.stks := rfl
@[simp] theorem State.modFlume_stackMask (s : State) (w : WellId) (f : Flume → Flume) : (s.modFlume w f).stackMask = s.stackMask := rfl
@[simp] theorem State.modFlume_weirs (s : State) (w : WellId) (f : Flume → Flume) : (s.modFlume w f).weirs = s.weirs := rfl
@[simp] theorem State.modFlume_weirRr (s : State) (w : WellId) (f : Flume → Flume) : (s.modFlume w f).weirRr = s.weirRr := rfl
@[simp] theorem State.modFlume_prot (s : State) (w : WellId) (f : Flume → Flume) : (s.modFlume w f).prot = s.prot := rfl
@[simp] theorem State.modFlume_capturing (s : State) (w : WellId) (f : Flume → Flume) : (s.modFlume w f).capturing = s.capturing := rfl
@[simp] theorem State.modFlume_devValid (s : State) (w : WellId) (f : Flume → Flume) : (s.modFlume w f).devValid = s.devValid := rfl
@[simp] theorem State.modFlume_devId (s : State) (w : WellId) (f : Flume → Flume) : (s.modFlume w f).devId = s.devId := rfl
@[simp] theorem State.modFlume_events (s : State) (w : WellId) (f : Flume → Flume) : (s.modFlume w f).events = s.events := rfl
@[simp] theorem State.modFlume_evtSeq (s : State) (w : WellId) (f : Flume → Flume) : (s.modFlume w f).evtSeq = s.evtSeq := rfl
@[simp] theorem State.modFlume_evtLost (s : State) (w : WellId) (f : Flume → Flume) : (s.modFlume w f).evtLost = s.evtLost := rfl
@[simp] theorem State.modFlume_evtFirstLost (s : State) (w : WellId) (f : Flume → Flume) : (s.modFlume w f).evtFirstLost = s.evtFirstLost := rfl
@[simp] theorem State.modFlume_jobs (s : State) (w : WellId) (f : Flume → Flume) : (s.modFlume w f).jobs = s.jobs := rfl
@[simp] theorem State.modFlume_wellJob (s : State) (w : WellId) (f : Flume → Flume) : (s.modFlume w f).wellJob = s.wellJob := rfl
@[simp] theorem State.modFlume_counters (s : State) (w : WellId) (f : Flume → Flume) : (s.modFlume w f).counters = s.counters := rfl
@[simp] theorem State.modFlume_inflight (s : State) (w : WellId) (f : Flume → Flume) : (s.modFlume w f).inflight = s.inflight := rfl
@[simp] theorem State.modFlume_sync (s : State) (w : WellId) (f : Flume → Flume) : (s.modFlume w f).sync = s.sync := rfl
@[simp] theorem State.modFlume_hw (s : State) (w : WellId) (f : Flume → Flume) : (s.modFlume w f).hw = s.hw := rfl
@[simp] theorem State.modFlume_by_ (s : State) (w : WellId) (f : Flume → Flume) : (s.modFlume w f).by_ = s.by_ := rfl
@[simp] theorem State.modFlume_bf (s : State) (w : WellId) (f : Flume → Flume) : (s.modFlume w f).bf = s.bf := rfl
@[simp] theorem State.modFlume_pw (s : State) (w : WellId) (f : Flume → Flume) : (s.modFlume w f).pw = s.pw := rfl
@[simp] theorem State.modFlume_bmc (s : State) (w : WellId) (f : Flume → Flume) : (s.modFlume w f).bmc = s.bmc := rfl
@[simp] theorem State.modFlume_jtag (s : State) (w : WellId) (f : Flume → Flume) : (s.modFlume w f).jtag = s.jtag := rfl
@[simp] theorem State.modFlume_wh (s : State) (w : WellId) (f : Flume → Flume) : (s.modFlume w f).wh = s.wh := rfl
@[simp] theorem State.modFlume_su (s : State) (w : WellId) (f : Flume → Flume) : (s.modFlume w f).su = s.su := rfl

/-! modMr -/

@[simp] theorem State.modMr_pending (s : State) (w : WellId) (f : Millrace → Millrace) : (s.modMr w f).pending = s.pending := rfl
@[simp] theorem State.modMr_free (s : State) (w : WellId) (f : Millrace → Millrace) : (s.modMr w f).free = s.free := rfl
@[simp] theorem State.modMr_mem (s : State) (w : WellId) (f : Millrace → Millrace) : (s.modMr w f).mem = s.mem := rfl
@[simp] theorem State.modMr_ue (s : State) (w : WellId) (f : Millrace → Millrace) : (s.modMr w f).ue = s.ue := rfl
@[simp] theorem State.modMr_ce (s : State) (w : WellId) (f : Millrace → Millrace) : (s.modMr w f).ce = s.ce := rfl
@[simp] theorem State.modMr_domainOn (s : State) (w : WellId) (f : Millrace → Millrace) : (s.modMr w f).domainOn = s.domainOn := rfl
@[simp] theorem State.modMr_reports (s : State) (w : WellId) (f : Millrace → Millrace) : (s.modMr w f).reports = s.reports := rfl
@[simp] theorem State.modMr_stg (s : State) (w : WellId) (f : Millrace → Millrace) : (s.modMr w f).stg = s.stg := rfl
@[simp] theorem State.modMr_far (s : State) (w : WellId) (f : Millrace → Millrace) : (s.modMr w f).far = s.far := rfl
@[simp] theorem State.modMr_cf (s : State) (w : WellId) (f : Millrace → Millrace) : (s.modMr w f).cf = s.cf := rfl
@[simp] theorem State.modMr_basinMode (s : State) (w : WellId) (f : Millrace → Millrace) : (s.modMr w f).basinMode = s.basinMode := rfl
@[simp] theorem State.modMr_pumps (s : State) (w : WellId) (f : Millrace → Millrace) : (s.modMr w f).pumps = s.pumps := rfl
@[simp] theorem State.modMr_fronts (s : State) (w : WellId) (f : Millrace → Millrace) : (s.modMr w f).fronts = s.fronts := rfl
@[simp] theorem State.modMr_invals (s : State) (w : WellId) (f : Millrace → Millrace) : (s.modMr w f).invals = s.invals := rfl
@[simp] theorem State.modMr_asidBase (s : State) (w : WellId) (f : Millrace → Millrace) : (s.modMr w f).asidBase = s.asidBase := rfl
@[simp] theorem State.modMr_halves (s : State) (w : WellId) (f : Millrace → Millrace) : (s.modMr w f).halves = s.halves := rfl
@[simp] theorem State.modMr_lines (s : State) (w : WellId) (f : Millrace → Millrace) : (s.modMr w f).lines = s.lines := rfl
@[simp] theorem State.modMr_cErr (s : State) (w : WellId) (f : Millrace → Millrace) : (s.modMr w f).cErr = s.cErr := rfl
@[simp] theorem State.modMr_cTagErr (s : State) (w : WellId) (f : Millrace → Millrace) : (s.modMr w f).cTagErr = s.cTagErr := rfl
@[simp] theorem State.modMr_poison (s : State) (w : WellId) (f : Millrace → Millrace) : (s.modMr w f).poison = s.poison := rfl
@[simp] theorem State.modMr_stErr (s : State) (w : WellId) (f : Millrace → Millrace) : (s.modMr w f).stErr = s.stErr := rfl
@[simp] theorem State.modMr_stks (s : State) (w : WellId) (f : Millrace → Millrace) : (s.modMr w f).stks = s.stks := rfl
@[simp] theorem State.modMr_stackMask (s : State) (w : WellId) (f : Millrace → Millrace) : (s.modMr w f).stackMask = s.stackMask := rfl
@[simp] theorem State.modMr_weirs (s : State) (w : WellId) (f : Millrace → Millrace) : (s.modMr w f).weirs = s.weirs := rfl
@[simp] theorem State.modMr_weirRr (s : State) (w : WellId) (f : Millrace → Millrace) : (s.modMr w f).weirRr = s.weirRr := rfl
@[simp] theorem State.modMr_prot (s : State) (w : WellId) (f : Millrace → Millrace) : (s.modMr w f).prot = s.prot := rfl
@[simp] theorem State.modMr_capturing (s : State) (w : WellId) (f : Millrace → Millrace) : (s.modMr w f).capturing = s.capturing := rfl
@[simp] theorem State.modMr_devValid (s : State) (w : WellId) (f : Millrace → Millrace) : (s.modMr w f).devValid = s.devValid := rfl
@[simp] theorem State.modMr_devId (s : State) (w : WellId) (f : Millrace → Millrace) : (s.modMr w f).devId = s.devId := rfl
@[simp] theorem State.modMr_events (s : State) (w : WellId) (f : Millrace → Millrace) : (s.modMr w f).events = s.events := rfl
@[simp] theorem State.modMr_evtSeq (s : State) (w : WellId) (f : Millrace → Millrace) : (s.modMr w f).evtSeq = s.evtSeq := rfl
@[simp] theorem State.modMr_evtLost (s : State) (w : WellId) (f : Millrace → Millrace) : (s.modMr w f).evtLost = s.evtLost := rfl
@[simp] theorem State.modMr_evtFirstLost (s : State) (w : WellId) (f : Millrace → Millrace) : (s.modMr w f).evtFirstLost = s.evtFirstLost := rfl
@[simp] theorem State.modMr_jobs (s : State) (w : WellId) (f : Millrace → Millrace) : (s.modMr w f).jobs = s.jobs := rfl
@[simp] theorem State.modMr_wellJob (s : State) (w : WellId) (f : Millrace → Millrace) : (s.modMr w f).wellJob = s.wellJob := rfl
@[simp] theorem State.modMr_counters (s : State) (w : WellId) (f : Millrace → Millrace) : (s.modMr w f).counters = s.counters := rfl
@[simp] theorem State.modMr_inflight (s : State) (w : WellId) (f : Millrace → Millrace) : (s.modMr w f).inflight = s.inflight := rfl
@[simp] theorem State.modMr_sync (s : State) (w : WellId) (f : Millrace → Millrace) : (s.modMr w f).sync = s.sync := rfl
@[simp] theorem State.modMr_hw (s : State) (w : WellId) (f : Millrace → Millrace) : (s.modMr w f).hw = s.hw := rfl
@[simp] theorem State.modMr_by_ (s : State) (w : WellId) (f : Millrace → Millrace) : (s.modMr w f).by_ = s.by_ := rfl
@[simp] theorem State.modMr_bf (s : State) (w : WellId) (f : Millrace → Millrace) : (s.modMr w f).bf = s.bf := rfl
@[simp] theorem State.modMr_pw (s : State) (w : WellId) (f : Millrace → Millrace) : (s.modMr w f).pw = s.pw := rfl
@[simp] theorem State.modMr_bmc (s : State) (w : WellId) (f : Millrace → Millrace) : (s.modMr w f).bmc = s.bmc := rfl
@[simp] theorem State.modMr_jtag (s : State) (w : WellId) (f : Millrace → Millrace) : (s.modMr w f).jtag = s.jtag := rfl
@[simp] theorem State.modMr_wh (s : State) (w : WellId) (f : Millrace → Millrace) : (s.modMr w f).wh = s.wh := rfl
@[simp] theorem State.modMr_su (s : State) (w : WellId) (f : Millrace → Millrace) : (s.modMr w f).su = s.su := rfl

/-! modSt -/

@[simp] theorem State.modSt_pending (s : State) (w : WellId) (f : Stores → Stores) : (s.modSt w f).pending = s.pending := rfl
@[simp] theorem State.modSt_free (s : State) (w : WellId) (f : Stores → Stores) : (s.modSt w f).free = s.free := rfl
@[simp] theorem State.modSt_mem (s : State) (w : WellId) (f : Stores → Stores) : (s.modSt w f).mem = s.mem := rfl
@[simp] theorem State.modSt_ue (s : State) (w : WellId) (f : Stores → Stores) : (s.modSt w f).ue = s.ue := rfl
@[simp] theorem State.modSt_ce (s : State) (w : WellId) (f : Stores → Stores) : (s.modSt w f).ce = s.ce := rfl
@[simp] theorem State.modSt_domainOn (s : State) (w : WellId) (f : Stores → Stores) : (s.modSt w f).domainOn = s.domainOn := rfl
@[simp] theorem State.modSt_reports (s : State) (w : WellId) (f : Stores → Stores) : (s.modSt w f).reports = s.reports := rfl
@[simp] theorem State.modSt_stg (s : State) (w : WellId) (f : Stores → Stores) : (s.modSt w f).stg = s.stg := rfl
@[simp] theorem State.modSt_far (s : State) (w : WellId) (f : Stores → Stores) : (s.modSt w f).far = s.far := rfl
@[simp] theorem State.modSt_cf (s : State) (w : WellId) (f : Stores → Stores) : (s.modSt w f).cf = s.cf := rfl
@[simp] theorem State.modSt_basinMode (s : State) (w : WellId) (f : Stores → Stores) : (s.modSt w f).basinMode = s.basinMode := rfl
@[simp] theorem State.modSt_pumps (s : State) (w : WellId) (f : Stores → Stores) : (s.modSt w f).pumps = s.pumps := rfl
@[simp] theorem State.modSt_fronts (s : State) (w : WellId) (f : Stores → Stores) : (s.modSt w f).fronts = s.fronts := rfl
@[simp] theorem State.modSt_invals (s : State) (w : WellId) (f : Stores → Stores) : (s.modSt w f).invals = s.invals := rfl
@[simp] theorem State.modSt_asidBase (s : State) (w : WellId) (f : Stores → Stores) : (s.modSt w f).asidBase = s.asidBase := rfl
@[simp] theorem State.modSt_halves (s : State) (w : WellId) (f : Stores → Stores) : (s.modSt w f).halves = s.halves := rfl
@[simp] theorem State.modSt_lines (s : State) (w : WellId) (f : Stores → Stores) : (s.modSt w f).lines = s.lines := rfl
@[simp] theorem State.modSt_cErr (s : State) (w : WellId) (f : Stores → Stores) : (s.modSt w f).cErr = s.cErr := rfl
@[simp] theorem State.modSt_cTagErr (s : State) (w : WellId) (f : Stores → Stores) : (s.modSt w f).cTagErr = s.cTagErr := rfl
@[simp] theorem State.modSt_poison (s : State) (w : WellId) (f : Stores → Stores) : (s.modSt w f).poison = s.poison := rfl
@[simp] theorem State.modSt_stErr (s : State) (w : WellId) (f : Stores → Stores) : (s.modSt w f).stErr = s.stErr := rfl
@[simp] theorem State.modSt_stks (s : State) (w : WellId) (f : Stores → Stores) : (s.modSt w f).stks = s.stks := rfl
@[simp] theorem State.modSt_stackMask (s : State) (w : WellId) (f : Stores → Stores) : (s.modSt w f).stackMask = s.stackMask := rfl
@[simp] theorem State.modSt_weirs (s : State) (w : WellId) (f : Stores → Stores) : (s.modSt w f).weirs = s.weirs := rfl
@[simp] theorem State.modSt_weirRr (s : State) (w : WellId) (f : Stores → Stores) : (s.modSt w f).weirRr = s.weirRr := rfl
@[simp] theorem State.modSt_prot (s : State) (w : WellId) (f : Stores → Stores) : (s.modSt w f).prot = s.prot := rfl
@[simp] theorem State.modSt_capturing (s : State) (w : WellId) (f : Stores → Stores) : (s.modSt w f).capturing = s.capturing := rfl
@[simp] theorem State.modSt_devValid (s : State) (w : WellId) (f : Stores → Stores) : (s.modSt w f).devValid = s.devValid := rfl
@[simp] theorem State.modSt_devId (s : State) (w : WellId) (f : Stores → Stores) : (s.modSt w f).devId = s.devId := rfl
@[simp] theorem State.modSt_events (s : State) (w : WellId) (f : Stores → Stores) : (s.modSt w f).events = s.events := rfl
@[simp] theorem State.modSt_evtSeq (s : State) (w : WellId) (f : Stores → Stores) : (s.modSt w f).evtSeq = s.evtSeq := rfl
@[simp] theorem State.modSt_evtLost (s : State) (w : WellId) (f : Stores → Stores) : (s.modSt w f).evtLost = s.evtLost := rfl
@[simp] theorem State.modSt_evtFirstLost (s : State) (w : WellId) (f : Stores → Stores) : (s.modSt w f).evtFirstLost = s.evtFirstLost := rfl
@[simp] theorem State.modSt_jobs (s : State) (w : WellId) (f : Stores → Stores) : (s.modSt w f).jobs = s.jobs := rfl
@[simp] theorem State.modSt_wellJob (s : State) (w : WellId) (f : Stores → Stores) : (s.modSt w f).wellJob = s.wellJob := rfl
@[simp] theorem State.modSt_counters (s : State) (w : WellId) (f : Stores → Stores) : (s.modSt w f).counters = s.counters := rfl
@[simp] theorem State.modSt_inflight (s : State) (w : WellId) (f : Stores → Stores) : (s.modSt w f).inflight = s.inflight := rfl
@[simp] theorem State.modSt_sync (s : State) (w : WellId) (f : Stores → Stores) : (s.modSt w f).sync = s.sync := rfl
@[simp] theorem State.modSt_hw (s : State) (w : WellId) (f : Stores → Stores) : (s.modSt w f).hw = s.hw := rfl
@[simp] theorem State.modSt_by_ (s : State) (w : WellId) (f : Stores → Stores) : (s.modSt w f).by_ = s.by_ := rfl
@[simp] theorem State.modSt_bf (s : State) (w : WellId) (f : Stores → Stores) : (s.modSt w f).bf = s.bf := rfl
@[simp] theorem State.modSt_pw (s : State) (w : WellId) (f : Stores → Stores) : (s.modSt w f).pw = s.pw := rfl
@[simp] theorem State.modSt_bmc (s : State) (w : WellId) (f : Stores → Stores) : (s.modSt w f).bmc = s.bmc := rfl
@[simp] theorem State.modSt_jtag (s : State) (w : WellId) (f : Stores → Stores) : (s.modSt w f).jtag = s.jtag := rfl
@[simp] theorem State.modSt_wh (s : State) (w : WellId) (f : Stores → Stores) : (s.modSt w f).wh = s.wh := rfl
@[simp] theorem State.modSt_su (s : State) (w : WellId) (f : Stores → Stores) : (s.modSt w f).su = s.su := rfl

/-! modHalf -/

@[simp] theorem State.modHalf_pending (s : State) (h : HalfId) (f : CisternHalf → CisternHalf) : (s.modHalf h f).pending = s.pending := rfl
@[simp] theorem State.modHalf_free (s : State) (h : HalfId) (f : CisternHalf → CisternHalf) : (s.modHalf h f).free = s.free := rfl
@[simp] theorem State.modHalf_mem (s : State) (h : HalfId) (f : CisternHalf → CisternHalf) : (s.modHalf h f).mem = s.mem := rfl
@[simp] theorem State.modHalf_ue (s : State) (h : HalfId) (f : CisternHalf → CisternHalf) : (s.modHalf h f).ue = s.ue := rfl
@[simp] theorem State.modHalf_ce (s : State) (h : HalfId) (f : CisternHalf → CisternHalf) : (s.modHalf h f).ce = s.ce := rfl
@[simp] theorem State.modHalf_wells (s : State) (h : HalfId) (f : CisternHalf → CisternHalf) : (s.modHalf h f).wells = s.wells := rfl
@[simp] theorem State.modHalf_domainOn (s : State) (h : HalfId) (f : CisternHalf → CisternHalf) : (s.modHalf h f).domainOn = s.domainOn := rfl
@[simp] theorem State.modHalf_reports (s : State) (h : HalfId) (f : CisternHalf → CisternHalf) : (s.modHalf h f).reports = s.reports := rfl
@[simp] theorem State.modHalf_stg (s : State) (h : HalfId) (f : CisternHalf → CisternHalf) : (s.modHalf h f).stg = s.stg := rfl
@[simp] theorem State.modHalf_far (s : State) (h : HalfId) (f : CisternHalf → CisternHalf) : (s.modHalf h f).far = s.far := rfl
@[simp] theorem State.modHalf_cf (s : State) (h : HalfId) (f : CisternHalf → CisternHalf) : (s.modHalf h f).cf = s.cf := rfl
@[simp] theorem State.modHalf_basinMode (s : State) (h : HalfId) (f : CisternHalf → CisternHalf) : (s.modHalf h f).basinMode = s.basinMode := rfl
@[simp] theorem State.modHalf_pumps (s : State) (h : HalfId) (f : CisternHalf → CisternHalf) : (s.modHalf h f).pumps = s.pumps := rfl
@[simp] theorem State.modHalf_fronts (s : State) (h : HalfId) (f : CisternHalf → CisternHalf) : (s.modHalf h f).fronts = s.fronts := rfl
@[simp] theorem State.modHalf_invals (s : State) (h : HalfId) (f : CisternHalf → CisternHalf) : (s.modHalf h f).invals = s.invals := rfl
@[simp] theorem State.modHalf_asidBase (s : State) (h : HalfId) (f : CisternHalf → CisternHalf) : (s.modHalf h f).asidBase = s.asidBase := rfl
@[simp] theorem State.modHalf_lines (s : State) (h : HalfId) (f : CisternHalf → CisternHalf) : (s.modHalf h f).lines = s.lines := rfl
@[simp] theorem State.modHalf_cErr (s : State) (h : HalfId) (f : CisternHalf → CisternHalf) : (s.modHalf h f).cErr = s.cErr := rfl
@[simp] theorem State.modHalf_cTagErr (s : State) (h : HalfId) (f : CisternHalf → CisternHalf) : (s.modHalf h f).cTagErr = s.cTagErr := rfl
@[simp] theorem State.modHalf_poison (s : State) (h : HalfId) (f : CisternHalf → CisternHalf) : (s.modHalf h f).poison = s.poison := rfl
@[simp] theorem State.modHalf_stErr (s : State) (h : HalfId) (f : CisternHalf → CisternHalf) : (s.modHalf h f).stErr = s.stErr := rfl
@[simp] theorem State.modHalf_stks (s : State) (h : HalfId) (f : CisternHalf → CisternHalf) : (s.modHalf h f).stks = s.stks := rfl
@[simp] theorem State.modHalf_stackMask (s : State) (h : HalfId) (f : CisternHalf → CisternHalf) : (s.modHalf h f).stackMask = s.stackMask := rfl
@[simp] theorem State.modHalf_weirs (s : State) (h : HalfId) (f : CisternHalf → CisternHalf) : (s.modHalf h f).weirs = s.weirs := rfl
@[simp] theorem State.modHalf_weirRr (s : State) (h : HalfId) (f : CisternHalf → CisternHalf) : (s.modHalf h f).weirRr = s.weirRr := rfl
@[simp] theorem State.modHalf_prot (s : State) (h : HalfId) (f : CisternHalf → CisternHalf) : (s.modHalf h f).prot = s.prot := rfl
@[simp] theorem State.modHalf_capturing (s : State) (h : HalfId) (f : CisternHalf → CisternHalf) : (s.modHalf h f).capturing = s.capturing := rfl
@[simp] theorem State.modHalf_devValid (s : State) (h : HalfId) (f : CisternHalf → CisternHalf) : (s.modHalf h f).devValid = s.devValid := rfl
@[simp] theorem State.modHalf_devId (s : State) (h : HalfId) (f : CisternHalf → CisternHalf) : (s.modHalf h f).devId = s.devId := rfl
@[simp] theorem State.modHalf_events (s : State) (h : HalfId) (f : CisternHalf → CisternHalf) : (s.modHalf h f).events = s.events := rfl
@[simp] theorem State.modHalf_evtSeq (s : State) (h : HalfId) (f : CisternHalf → CisternHalf) : (s.modHalf h f).evtSeq = s.evtSeq := rfl
@[simp] theorem State.modHalf_evtLost (s : State) (h : HalfId) (f : CisternHalf → CisternHalf) : (s.modHalf h f).evtLost = s.evtLost := rfl
@[simp] theorem State.modHalf_evtFirstLost (s : State) (h : HalfId) (f : CisternHalf → CisternHalf) : (s.modHalf h f).evtFirstLost = s.evtFirstLost := rfl
@[simp] theorem State.modHalf_jobs (s : State) (h : HalfId) (f : CisternHalf → CisternHalf) : (s.modHalf h f).jobs = s.jobs := rfl
@[simp] theorem State.modHalf_wellJob (s : State) (h : HalfId) (f : CisternHalf → CisternHalf) : (s.modHalf h f).wellJob = s.wellJob := rfl
@[simp] theorem State.modHalf_counters (s : State) (h : HalfId) (f : CisternHalf → CisternHalf) : (s.modHalf h f).counters = s.counters := rfl
@[simp] theorem State.modHalf_inflight (s : State) (h : HalfId) (f : CisternHalf → CisternHalf) : (s.modHalf h f).inflight = s.inflight := rfl
@[simp] theorem State.modHalf_sync (s : State) (h : HalfId) (f : CisternHalf → CisternHalf) : (s.modHalf h f).sync = s.sync := rfl
@[simp] theorem State.modHalf_hw (s : State) (h : HalfId) (f : CisternHalf → CisternHalf) : (s.modHalf h f).hw = s.hw := rfl
@[simp] theorem State.modHalf_by_ (s : State) (h : HalfId) (f : CisternHalf → CisternHalf) : (s.modHalf h f).by_ = s.by_ := rfl
@[simp] theorem State.modHalf_bf (s : State) (h : HalfId) (f : CisternHalf → CisternHalf) : (s.modHalf h f).bf = s.bf := rfl
@[simp] theorem State.modHalf_pw (s : State) (h : HalfId) (f : CisternHalf → CisternHalf) : (s.modHalf h f).pw = s.pw := rfl
@[simp] theorem State.modHalf_bmc (s : State) (h : HalfId) (f : CisternHalf → CisternHalf) : (s.modHalf h f).bmc = s.bmc := rfl
@[simp] theorem State.modHalf_jtag (s : State) (h : HalfId) (f : CisternHalf → CisternHalf) : (s.modHalf h f).jtag = s.jtag := rfl
@[simp] theorem State.modHalf_wh (s : State) (h : HalfId) (f : CisternHalf → CisternHalf) : (s.modHalf h f).wh = s.wh := rfl
@[simp] theorem State.modHalf_su (s : State) (h : HalfId) (f : CisternHalf → CisternHalf) : (s.modHalf h f).su = s.su := rfl

/-! modStack -/

@[simp] theorem State.modStack_pending (s : State) (n : StackId) (f : StackCtl → StackCtl) : (s.modStack n f).pending = s.pending := rfl
@[simp] theorem State.modStack_free (s : State) (n : StackId) (f : StackCtl → StackCtl) : (s.modStack n f).free = s.free := rfl
@[simp] theorem State.modStack_mem (s : State) (n : StackId) (f : StackCtl → StackCtl) : (s.modStack n f).mem = s.mem := rfl
@[simp] theorem State.modStack_ue (s : State) (n : StackId) (f : StackCtl → StackCtl) : (s.modStack n f).ue = s.ue := rfl
@[simp] theorem State.modStack_ce (s : State) (n : StackId) (f : StackCtl → StackCtl) : (s.modStack n f).ce = s.ce := rfl
@[simp] theorem State.modStack_wells (s : State) (n : StackId) (f : StackCtl → StackCtl) : (s.modStack n f).wells = s.wells := rfl
@[simp] theorem State.modStack_domainOn (s : State) (n : StackId) (f : StackCtl → StackCtl) : (s.modStack n f).domainOn = s.domainOn := rfl
@[simp] theorem State.modStack_reports (s : State) (n : StackId) (f : StackCtl → StackCtl) : (s.modStack n f).reports = s.reports := rfl
@[simp] theorem State.modStack_stg (s : State) (n : StackId) (f : StackCtl → StackCtl) : (s.modStack n f).stg = s.stg := rfl
@[simp] theorem State.modStack_far (s : State) (n : StackId) (f : StackCtl → StackCtl) : (s.modStack n f).far = s.far := rfl
@[simp] theorem State.modStack_cf (s : State) (n : StackId) (f : StackCtl → StackCtl) : (s.modStack n f).cf = s.cf := rfl
@[simp] theorem State.modStack_basinMode (s : State) (n : StackId) (f : StackCtl → StackCtl) : (s.modStack n f).basinMode = s.basinMode := rfl
@[simp] theorem State.modStack_pumps (s : State) (n : StackId) (f : StackCtl → StackCtl) : (s.modStack n f).pumps = s.pumps := rfl
@[simp] theorem State.modStack_fronts (s : State) (n : StackId) (f : StackCtl → StackCtl) : (s.modStack n f).fronts = s.fronts := rfl
@[simp] theorem State.modStack_invals (s : State) (n : StackId) (f : StackCtl → StackCtl) : (s.modStack n f).invals = s.invals := rfl
@[simp] theorem State.modStack_asidBase (s : State) (n : StackId) (f : StackCtl → StackCtl) : (s.modStack n f).asidBase = s.asidBase := rfl
@[simp] theorem State.modStack_halves (s : State) (n : StackId) (f : StackCtl → StackCtl) : (s.modStack n f).halves = s.halves := rfl
@[simp] theorem State.modStack_lines (s : State) (n : StackId) (f : StackCtl → StackCtl) : (s.modStack n f).lines = s.lines := rfl
@[simp] theorem State.modStack_cErr (s : State) (n : StackId) (f : StackCtl → StackCtl) : (s.modStack n f).cErr = s.cErr := rfl
@[simp] theorem State.modStack_cTagErr (s : State) (n : StackId) (f : StackCtl → StackCtl) : (s.modStack n f).cTagErr = s.cTagErr := rfl
@[simp] theorem State.modStack_poison (s : State) (n : StackId) (f : StackCtl → StackCtl) : (s.modStack n f).poison = s.poison := rfl
@[simp] theorem State.modStack_stErr (s : State) (n : StackId) (f : StackCtl → StackCtl) : (s.modStack n f).stErr = s.stErr := rfl
@[simp] theorem State.modStack_stackMask (s : State) (n : StackId) (f : StackCtl → StackCtl) : (s.modStack n f).stackMask = s.stackMask := rfl
@[simp] theorem State.modStack_weirs (s : State) (n : StackId) (f : StackCtl → StackCtl) : (s.modStack n f).weirs = s.weirs := rfl
@[simp] theorem State.modStack_weirRr (s : State) (n : StackId) (f : StackCtl → StackCtl) : (s.modStack n f).weirRr = s.weirRr := rfl
@[simp] theorem State.modStack_prot (s : State) (n : StackId) (f : StackCtl → StackCtl) : (s.modStack n f).prot = s.prot := rfl
@[simp] theorem State.modStack_capturing (s : State) (n : StackId) (f : StackCtl → StackCtl) : (s.modStack n f).capturing = s.capturing := rfl
@[simp] theorem State.modStack_devValid (s : State) (n : StackId) (f : StackCtl → StackCtl) : (s.modStack n f).devValid = s.devValid := rfl
@[simp] theorem State.modStack_devId (s : State) (n : StackId) (f : StackCtl → StackCtl) : (s.modStack n f).devId = s.devId := rfl
@[simp] theorem State.modStack_events (s : State) (n : StackId) (f : StackCtl → StackCtl) : (s.modStack n f).events = s.events := rfl
@[simp] theorem State.modStack_evtSeq (s : State) (n : StackId) (f : StackCtl → StackCtl) : (s.modStack n f).evtSeq = s.evtSeq := rfl
@[simp] theorem State.modStack_evtLost (s : State) (n : StackId) (f : StackCtl → StackCtl) : (s.modStack n f).evtLost = s.evtLost := rfl
@[simp] theorem State.modStack_evtFirstLost (s : State) (n : StackId) (f : StackCtl → StackCtl) : (s.modStack n f).evtFirstLost = s.evtFirstLost := rfl
@[simp] theorem State.modStack_jobs (s : State) (n : StackId) (f : StackCtl → StackCtl) : (s.modStack n f).jobs = s.jobs := rfl
@[simp] theorem State.modStack_wellJob (s : State) (n : StackId) (f : StackCtl → StackCtl) : (s.modStack n f).wellJob = s.wellJob := rfl
@[simp] theorem State.modStack_counters (s : State) (n : StackId) (f : StackCtl → StackCtl) : (s.modStack n f).counters = s.counters := rfl
@[simp] theorem State.modStack_inflight (s : State) (n : StackId) (f : StackCtl → StackCtl) : (s.modStack n f).inflight = s.inflight := rfl
@[simp] theorem State.modStack_sync (s : State) (n : StackId) (f : StackCtl → StackCtl) : (s.modStack n f).sync = s.sync := rfl
@[simp] theorem State.modStack_hw (s : State) (n : StackId) (f : StackCtl → StackCtl) : (s.modStack n f).hw = s.hw := rfl
@[simp] theorem State.modStack_by_ (s : State) (n : StackId) (f : StackCtl → StackCtl) : (s.modStack n f).by_ = s.by_ := rfl
@[simp] theorem State.modStack_bf (s : State) (n : StackId) (f : StackCtl → StackCtl) : (s.modStack n f).bf = s.bf := rfl
@[simp] theorem State.modStack_pw (s : State) (n : StackId) (f : StackCtl → StackCtl) : (s.modStack n f).pw = s.pw := rfl
@[simp] theorem State.modStack_bmc (s : State) (n : StackId) (f : StackCtl → StackCtl) : (s.modStack n f).bmc = s.bmc := rfl
@[simp] theorem State.modStack_jtag (s : State) (n : StackId) (f : StackCtl → StackCtl) : (s.modStack n f).jtag = s.jtag := rfl
@[simp] theorem State.modStack_wh (s : State) (n : StackId) (f : StackCtl → StackCtl) : (s.modStack n f).wh = s.wh := rfl
@[simp] theorem State.modStack_su (s : State) (n : StackId) (f : StackCtl → StackCtl) : (s.modStack n f).su = s.su := rfl

/-! modCtr -/

@[simp] theorem State.modCtr_pending (s : State) (c : BitVec 12) (f : TrigCounter → TrigCounter) : (s.modCtr c f).pending = s.pending := rfl
@[simp] theorem State.modCtr_free (s : State) (c : BitVec 12) (f : TrigCounter → TrigCounter) : (s.modCtr c f).free = s.free := rfl
@[simp] theorem State.modCtr_mem (s : State) (c : BitVec 12) (f : TrigCounter → TrigCounter) : (s.modCtr c f).mem = s.mem := rfl
@[simp] theorem State.modCtr_ue (s : State) (c : BitVec 12) (f : TrigCounter → TrigCounter) : (s.modCtr c f).ue = s.ue := rfl
@[simp] theorem State.modCtr_ce (s : State) (c : BitVec 12) (f : TrigCounter → TrigCounter) : (s.modCtr c f).ce = s.ce := rfl
@[simp] theorem State.modCtr_wells (s : State) (c : BitVec 12) (f : TrigCounter → TrigCounter) : (s.modCtr c f).wells = s.wells := rfl
@[simp] theorem State.modCtr_domainOn (s : State) (c : BitVec 12) (f : TrigCounter → TrigCounter) : (s.modCtr c f).domainOn = s.domainOn := rfl
@[simp] theorem State.modCtr_reports (s : State) (c : BitVec 12) (f : TrigCounter → TrigCounter) : (s.modCtr c f).reports = s.reports := rfl
@[simp] theorem State.modCtr_stg (s : State) (c : BitVec 12) (f : TrigCounter → TrigCounter) : (s.modCtr c f).stg = s.stg := rfl
@[simp] theorem State.modCtr_far (s : State) (c : BitVec 12) (f : TrigCounter → TrigCounter) : (s.modCtr c f).far = s.far := rfl
@[simp] theorem State.modCtr_cf (s : State) (c : BitVec 12) (f : TrigCounter → TrigCounter) : (s.modCtr c f).cf = s.cf := rfl
@[simp] theorem State.modCtr_basinMode (s : State) (c : BitVec 12) (f : TrigCounter → TrigCounter) : (s.modCtr c f).basinMode = s.basinMode := rfl
@[simp] theorem State.modCtr_pumps (s : State) (c : BitVec 12) (f : TrigCounter → TrigCounter) : (s.modCtr c f).pumps = s.pumps := rfl
@[simp] theorem State.modCtr_fronts (s : State) (c : BitVec 12) (f : TrigCounter → TrigCounter) : (s.modCtr c f).fronts = s.fronts := rfl
@[simp] theorem State.modCtr_invals (s : State) (c : BitVec 12) (f : TrigCounter → TrigCounter) : (s.modCtr c f).invals = s.invals := rfl
@[simp] theorem State.modCtr_asidBase (s : State) (c : BitVec 12) (f : TrigCounter → TrigCounter) : (s.modCtr c f).asidBase = s.asidBase := rfl
@[simp] theorem State.modCtr_halves (s : State) (c : BitVec 12) (f : TrigCounter → TrigCounter) : (s.modCtr c f).halves = s.halves := rfl
@[simp] theorem State.modCtr_lines (s : State) (c : BitVec 12) (f : TrigCounter → TrigCounter) : (s.modCtr c f).lines = s.lines := rfl
@[simp] theorem State.modCtr_cErr (s : State) (c : BitVec 12) (f : TrigCounter → TrigCounter) : (s.modCtr c f).cErr = s.cErr := rfl
@[simp] theorem State.modCtr_cTagErr (s : State) (c : BitVec 12) (f : TrigCounter → TrigCounter) : (s.modCtr c f).cTagErr = s.cTagErr := rfl
@[simp] theorem State.modCtr_poison (s : State) (c : BitVec 12) (f : TrigCounter → TrigCounter) : (s.modCtr c f).poison = s.poison := rfl
@[simp] theorem State.modCtr_stErr (s : State) (c : BitVec 12) (f : TrigCounter → TrigCounter) : (s.modCtr c f).stErr = s.stErr := rfl
@[simp] theorem State.modCtr_stks (s : State) (c : BitVec 12) (f : TrigCounter → TrigCounter) : (s.modCtr c f).stks = s.stks := rfl
@[simp] theorem State.modCtr_stackMask (s : State) (c : BitVec 12) (f : TrigCounter → TrigCounter) : (s.modCtr c f).stackMask = s.stackMask := rfl
@[simp] theorem State.modCtr_weirs (s : State) (c : BitVec 12) (f : TrigCounter → TrigCounter) : (s.modCtr c f).weirs = s.weirs := rfl
@[simp] theorem State.modCtr_weirRr (s : State) (c : BitVec 12) (f : TrigCounter → TrigCounter) : (s.modCtr c f).weirRr = s.weirRr := rfl
@[simp] theorem State.modCtr_prot (s : State) (c : BitVec 12) (f : TrigCounter → TrigCounter) : (s.modCtr c f).prot = s.prot := rfl
@[simp] theorem State.modCtr_capturing (s : State) (c : BitVec 12) (f : TrigCounter → TrigCounter) : (s.modCtr c f).capturing = s.capturing := rfl
@[simp] theorem State.modCtr_devValid (s : State) (c : BitVec 12) (f : TrigCounter → TrigCounter) : (s.modCtr c f).devValid = s.devValid := rfl
@[simp] theorem State.modCtr_devId (s : State) (c : BitVec 12) (f : TrigCounter → TrigCounter) : (s.modCtr c f).devId = s.devId := rfl
@[simp] theorem State.modCtr_events (s : State) (c : BitVec 12) (f : TrigCounter → TrigCounter) : (s.modCtr c f).events = s.events := rfl
@[simp] theorem State.modCtr_evtSeq (s : State) (c : BitVec 12) (f : TrigCounter → TrigCounter) : (s.modCtr c f).evtSeq = s.evtSeq := rfl
@[simp] theorem State.modCtr_evtLost (s : State) (c : BitVec 12) (f : TrigCounter → TrigCounter) : (s.modCtr c f).evtLost = s.evtLost := rfl
@[simp] theorem State.modCtr_evtFirstLost (s : State) (c : BitVec 12) (f : TrigCounter → TrigCounter) : (s.modCtr c f).evtFirstLost = s.evtFirstLost := rfl
@[simp] theorem State.modCtr_jobs (s : State) (c : BitVec 12) (f : TrigCounter → TrigCounter) : (s.modCtr c f).jobs = s.jobs := rfl
@[simp] theorem State.modCtr_wellJob (s : State) (c : BitVec 12) (f : TrigCounter → TrigCounter) : (s.modCtr c f).wellJob = s.wellJob := rfl
@[simp] theorem State.modCtr_inflight (s : State) (c : BitVec 12) (f : TrigCounter → TrigCounter) : (s.modCtr c f).inflight = s.inflight := rfl
@[simp] theorem State.modCtr_sync (s : State) (c : BitVec 12) (f : TrigCounter → TrigCounter) : (s.modCtr c f).sync = s.sync := rfl
@[simp] theorem State.modCtr_hw (s : State) (c : BitVec 12) (f : TrigCounter → TrigCounter) : (s.modCtr c f).hw = s.hw := rfl
@[simp] theorem State.modCtr_by_ (s : State) (c : BitVec 12) (f : TrigCounter → TrigCounter) : (s.modCtr c f).by_ = s.by_ := rfl
@[simp] theorem State.modCtr_bf (s : State) (c : BitVec 12) (f : TrigCounter → TrigCounter) : (s.modCtr c f).bf = s.bf := rfl
@[simp] theorem State.modCtr_pw (s : State) (c : BitVec 12) (f : TrigCounter → TrigCounter) : (s.modCtr c f).pw = s.pw := rfl
@[simp] theorem State.modCtr_bmc (s : State) (c : BitVec 12) (f : TrigCounter → TrigCounter) : (s.modCtr c f).bmc = s.bmc := rfl
@[simp] theorem State.modCtr_jtag (s : State) (c : BitVec 12) (f : TrigCounter → TrigCounter) : (s.modCtr c f).jtag = s.jtag := rfl
@[simp] theorem State.modCtr_wh (s : State) (c : BitVec 12) (f : TrigCounter → TrigCounter) : (s.modCtr c f).wh = s.wh := rfl
@[simp] theorem State.modCtr_su (s : State) (c : BitVec 12) (f : TrigCounter → TrigCounter) : (s.modCtr c f).su = s.su := rfl

/-! modFar -/

@[simp] theorem State.modFar_pending (s : State) (f : Far → Far) : (s.modFar f).pending = s.pending := rfl
@[simp] theorem State.modFar_free (s : State) (f : Far → Far) : (s.modFar f).free = s.free := rfl
@[simp] theorem State.modFar_mem (s : State) (f : Far → Far) : (s.modFar f).mem = s.mem := rfl
@[simp] theorem State.modFar_ue (s : State) (f : Far → Far) : (s.modFar f).ue = s.ue := rfl
@[simp] theorem State.modFar_ce (s : State) (f : Far → Far) : (s.modFar f).ce = s.ce := rfl
@[simp] theorem State.modFar_wells (s : State) (f : Far → Far) : (s.modFar f).wells = s.wells := rfl
@[simp] theorem State.modFar_domainOn (s : State) (f : Far → Far) : (s.modFar f).domainOn = s.domainOn := rfl
@[simp] theorem State.modFar_reports (s : State) (f : Far → Far) : (s.modFar f).reports = s.reports := rfl
@[simp] theorem State.modFar_stg (s : State) (f : Far → Far) : (s.modFar f).stg = s.stg := rfl
@[simp] theorem State.modFar_cf (s : State) (f : Far → Far) : (s.modFar f).cf = s.cf := rfl
@[simp] theorem State.modFar_basinMode (s : State) (f : Far → Far) : (s.modFar f).basinMode = s.basinMode := rfl
@[simp] theorem State.modFar_pumps (s : State) (f : Far → Far) : (s.modFar f).pumps = s.pumps := rfl
@[simp] theorem State.modFar_fronts (s : State) (f : Far → Far) : (s.modFar f).fronts = s.fronts := rfl
@[simp] theorem State.modFar_invals (s : State) (f : Far → Far) : (s.modFar f).invals = s.invals := rfl
@[simp] theorem State.modFar_asidBase (s : State) (f : Far → Far) : (s.modFar f).asidBase = s.asidBase := rfl
@[simp] theorem State.modFar_halves (s : State) (f : Far → Far) : (s.modFar f).halves = s.halves := rfl
@[simp] theorem State.modFar_lines (s : State) (f : Far → Far) : (s.modFar f).lines = s.lines := rfl
@[simp] theorem State.modFar_cErr (s : State) (f : Far → Far) : (s.modFar f).cErr = s.cErr := rfl
@[simp] theorem State.modFar_cTagErr (s : State) (f : Far → Far) : (s.modFar f).cTagErr = s.cTagErr := rfl
@[simp] theorem State.modFar_poison (s : State) (f : Far → Far) : (s.modFar f).poison = s.poison := rfl
@[simp] theorem State.modFar_stErr (s : State) (f : Far → Far) : (s.modFar f).stErr = s.stErr := rfl
@[simp] theorem State.modFar_stks (s : State) (f : Far → Far) : (s.modFar f).stks = s.stks := rfl
@[simp] theorem State.modFar_stackMask (s : State) (f : Far → Far) : (s.modFar f).stackMask = s.stackMask := rfl
@[simp] theorem State.modFar_weirs (s : State) (f : Far → Far) : (s.modFar f).weirs = s.weirs := rfl
@[simp] theorem State.modFar_weirRr (s : State) (f : Far → Far) : (s.modFar f).weirRr = s.weirRr := rfl
@[simp] theorem State.modFar_prot (s : State) (f : Far → Far) : (s.modFar f).prot = s.prot := rfl
@[simp] theorem State.modFar_capturing (s : State) (f : Far → Far) : (s.modFar f).capturing = s.capturing := rfl
@[simp] theorem State.modFar_devValid (s : State) (f : Far → Far) : (s.modFar f).devValid = s.devValid := rfl
@[simp] theorem State.modFar_devId (s : State) (f : Far → Far) : (s.modFar f).devId = s.devId := rfl
@[simp] theorem State.modFar_events (s : State) (f : Far → Far) : (s.modFar f).events = s.events := rfl
@[simp] theorem State.modFar_evtSeq (s : State) (f : Far → Far) : (s.modFar f).evtSeq = s.evtSeq := rfl
@[simp] theorem State.modFar_evtLost (s : State) (f : Far → Far) : (s.modFar f).evtLost = s.evtLost := rfl
@[simp] theorem State.modFar_evtFirstLost (s : State) (f : Far → Far) : (s.modFar f).evtFirstLost = s.evtFirstLost := rfl
@[simp] theorem State.modFar_jobs (s : State) (f : Far → Far) : (s.modFar f).jobs = s.jobs := rfl
@[simp] theorem State.modFar_wellJob (s : State) (f : Far → Far) : (s.modFar f).wellJob = s.wellJob := rfl
@[simp] theorem State.modFar_counters (s : State) (f : Far → Far) : (s.modFar f).counters = s.counters := rfl
@[simp] theorem State.modFar_inflight (s : State) (f : Far → Far) : (s.modFar f).inflight = s.inflight := rfl
@[simp] theorem State.modFar_sync (s : State) (f : Far → Far) : (s.modFar f).sync = s.sync := rfl
@[simp] theorem State.modFar_hw (s : State) (f : Far → Far) : (s.modFar f).hw = s.hw := rfl
@[simp] theorem State.modFar_by_ (s : State) (f : Far → Far) : (s.modFar f).by_ = s.by_ := rfl
@[simp] theorem State.modFar_bf (s : State) (f : Far → Far) : (s.modFar f).bf = s.bf := rfl
@[simp] theorem State.modFar_pw (s : State) (f : Far → Far) : (s.modFar f).pw = s.pw := rfl
@[simp] theorem State.modFar_bmc (s : State) (f : Far → Far) : (s.modFar f).bmc = s.bmc := rfl
@[simp] theorem State.modFar_jtag (s : State) (f : Far → Far) : (s.modFar f).jtag = s.jtag := rfl
@[simp] theorem State.modFar_wh (s : State) (f : Far → Far) : (s.modFar f).wh = s.wh := rfl
@[simp] theorem State.modFar_su (s : State) (f : Far → Far) : (s.modFar f).su = s.su := rfl

/-! modLink -/

@[simp] theorem State.modLink_pending (s : State) (l : LinkId) (f : Link → Link) : (s.modLink l f).pending = s.pending := rfl
@[simp] theorem State.modLink_free (s : State) (l : LinkId) (f : Link → Link) : (s.modLink l f).free = s.free := rfl
@[simp] theorem State.modLink_mem (s : State) (l : LinkId) (f : Link → Link) : (s.modLink l f).mem = s.mem := rfl
@[simp] theorem State.modLink_ue (s : State) (l : LinkId) (f : Link → Link) : (s.modLink l f).ue = s.ue := rfl
@[simp] theorem State.modLink_ce (s : State) (l : LinkId) (f : Link → Link) : (s.modLink l f).ce = s.ce := rfl
@[simp] theorem State.modLink_wells (s : State) (l : LinkId) (f : Link → Link) : (s.modLink l f).wells = s.wells := rfl
@[simp] theorem State.modLink_domainOn (s : State) (l : LinkId) (f : Link → Link) : (s.modLink l f).domainOn = s.domainOn := rfl
@[simp] theorem State.modLink_reports (s : State) (l : LinkId) (f : Link → Link) : (s.modLink l f).reports = s.reports := rfl
@[simp] theorem State.modLink_stg (s : State) (l : LinkId) (f : Link → Link) : (s.modLink l f).stg = s.stg := rfl
@[simp] theorem State.modLink_cf (s : State) (l : LinkId) (f : Link → Link) : (s.modLink l f).cf = s.cf := rfl
@[simp] theorem State.modLink_basinMode (s : State) (l : LinkId) (f : Link → Link) : (s.modLink l f).basinMode = s.basinMode := rfl
@[simp] theorem State.modLink_pumps (s : State) (l : LinkId) (f : Link → Link) : (s.modLink l f).pumps = s.pumps := rfl
@[simp] theorem State.modLink_fronts (s : State) (l : LinkId) (f : Link → Link) : (s.modLink l f).fronts = s.fronts := rfl
@[simp] theorem State.modLink_invals (s : State) (l : LinkId) (f : Link → Link) : (s.modLink l f).invals = s.invals := rfl
@[simp] theorem State.modLink_asidBase (s : State) (l : LinkId) (f : Link → Link) : (s.modLink l f).asidBase = s.asidBase := rfl
@[simp] theorem State.modLink_halves (s : State) (l : LinkId) (f : Link → Link) : (s.modLink l f).halves = s.halves := rfl
@[simp] theorem State.modLink_lines (s : State) (l : LinkId) (f : Link → Link) : (s.modLink l f).lines = s.lines := rfl
@[simp] theorem State.modLink_cErr (s : State) (l : LinkId) (f : Link → Link) : (s.modLink l f).cErr = s.cErr := rfl
@[simp] theorem State.modLink_cTagErr (s : State) (l : LinkId) (f : Link → Link) : (s.modLink l f).cTagErr = s.cTagErr := rfl
@[simp] theorem State.modLink_poison (s : State) (l : LinkId) (f : Link → Link) : (s.modLink l f).poison = s.poison := rfl
@[simp] theorem State.modLink_stErr (s : State) (l : LinkId) (f : Link → Link) : (s.modLink l f).stErr = s.stErr := rfl
@[simp] theorem State.modLink_stks (s : State) (l : LinkId) (f : Link → Link) : (s.modLink l f).stks = s.stks := rfl
@[simp] theorem State.modLink_stackMask (s : State) (l : LinkId) (f : Link → Link) : (s.modLink l f).stackMask = s.stackMask := rfl
@[simp] theorem State.modLink_weirs (s : State) (l : LinkId) (f : Link → Link) : (s.modLink l f).weirs = s.weirs := rfl
@[simp] theorem State.modLink_weirRr (s : State) (l : LinkId) (f : Link → Link) : (s.modLink l f).weirRr = s.weirRr := rfl
@[simp] theorem State.modLink_prot (s : State) (l : LinkId) (f : Link → Link) : (s.modLink l f).prot = s.prot := rfl
@[simp] theorem State.modLink_capturing (s : State) (l : LinkId) (f : Link → Link) : (s.modLink l f).capturing = s.capturing := rfl
@[simp] theorem State.modLink_devValid (s : State) (l : LinkId) (f : Link → Link) : (s.modLink l f).devValid = s.devValid := rfl
@[simp] theorem State.modLink_devId (s : State) (l : LinkId) (f : Link → Link) : (s.modLink l f).devId = s.devId := rfl
@[simp] theorem State.modLink_events (s : State) (l : LinkId) (f : Link → Link) : (s.modLink l f).events = s.events := rfl
@[simp] theorem State.modLink_evtSeq (s : State) (l : LinkId) (f : Link → Link) : (s.modLink l f).evtSeq = s.evtSeq := rfl
@[simp] theorem State.modLink_evtLost (s : State) (l : LinkId) (f : Link → Link) : (s.modLink l f).evtLost = s.evtLost := rfl
@[simp] theorem State.modLink_evtFirstLost (s : State) (l : LinkId) (f : Link → Link) : (s.modLink l f).evtFirstLost = s.evtFirstLost := rfl
@[simp] theorem State.modLink_jobs (s : State) (l : LinkId) (f : Link → Link) : (s.modLink l f).jobs = s.jobs := rfl
@[simp] theorem State.modLink_wellJob (s : State) (l : LinkId) (f : Link → Link) : (s.modLink l f).wellJob = s.wellJob := rfl
@[simp] theorem State.modLink_counters (s : State) (l : LinkId) (f : Link → Link) : (s.modLink l f).counters = s.counters := rfl
@[simp] theorem State.modLink_inflight (s : State) (l : LinkId) (f : Link → Link) : (s.modLink l f).inflight = s.inflight := rfl
@[simp] theorem State.modLink_sync (s : State) (l : LinkId) (f : Link → Link) : (s.modLink l f).sync = s.sync := rfl
@[simp] theorem State.modLink_hw (s : State) (l : LinkId) (f : Link → Link) : (s.modLink l f).hw = s.hw := rfl
@[simp] theorem State.modLink_by_ (s : State) (l : LinkId) (f : Link → Link) : (s.modLink l f).by_ = s.by_ := rfl
@[simp] theorem State.modLink_bf (s : State) (l : LinkId) (f : Link → Link) : (s.modLink l f).bf = s.bf := rfl
@[simp] theorem State.modLink_pw (s : State) (l : LinkId) (f : Link → Link) : (s.modLink l f).pw = s.pw := rfl
@[simp] theorem State.modLink_bmc (s : State) (l : LinkId) (f : Link → Link) : (s.modLink l f).bmc = s.bmc := rfl
@[simp] theorem State.modLink_jtag (s : State) (l : LinkId) (f : Link → Link) : (s.modLink l f).jtag = s.jtag := rfl
@[simp] theorem State.modLink_wh (s : State) (l : LinkId) (f : Link → Link) : (s.modLink l f).wh = s.wh := rfl
@[simp] theorem State.modLink_su (s : State) (l : LinkId) (f : Link → Link) : (s.modLink l f).su = s.su := rfl

/-! modGroup -/

@[simp] theorem State.modGroup_pending (s : State) (g : Fin 64) (f : Group → Group) : (s.modGroup g f).pending = s.pending := rfl
@[simp] theorem State.modGroup_free (s : State) (g : Fin 64) (f : Group → Group) : (s.modGroup g f).free = s.free := rfl
@[simp] theorem State.modGroup_mem (s : State) (g : Fin 64) (f : Group → Group) : (s.modGroup g f).mem = s.mem := rfl
@[simp] theorem State.modGroup_ue (s : State) (g : Fin 64) (f : Group → Group) : (s.modGroup g f).ue = s.ue := rfl
@[simp] theorem State.modGroup_ce (s : State) (g : Fin 64) (f : Group → Group) : (s.modGroup g f).ce = s.ce := rfl
@[simp] theorem State.modGroup_wells (s : State) (g : Fin 64) (f : Group → Group) : (s.modGroup g f).wells = s.wells := rfl
@[simp] theorem State.modGroup_domainOn (s : State) (g : Fin 64) (f : Group → Group) : (s.modGroup g f).domainOn = s.domainOn := rfl
@[simp] theorem State.modGroup_reports (s : State) (g : Fin 64) (f : Group → Group) : (s.modGroup g f).reports = s.reports := rfl
@[simp] theorem State.modGroup_stg (s : State) (g : Fin 64) (f : Group → Group) : (s.modGroup g f).stg = s.stg := rfl
@[simp] theorem State.modGroup_cf (s : State) (g : Fin 64) (f : Group → Group) : (s.modGroup g f).cf = s.cf := rfl
@[simp] theorem State.modGroup_basinMode (s : State) (g : Fin 64) (f : Group → Group) : (s.modGroup g f).basinMode = s.basinMode := rfl
@[simp] theorem State.modGroup_pumps (s : State) (g : Fin 64) (f : Group → Group) : (s.modGroup g f).pumps = s.pumps := rfl
@[simp] theorem State.modGroup_fronts (s : State) (g : Fin 64) (f : Group → Group) : (s.modGroup g f).fronts = s.fronts := rfl
@[simp] theorem State.modGroup_invals (s : State) (g : Fin 64) (f : Group → Group) : (s.modGroup g f).invals = s.invals := rfl
@[simp] theorem State.modGroup_asidBase (s : State) (g : Fin 64) (f : Group → Group) : (s.modGroup g f).asidBase = s.asidBase := rfl
@[simp] theorem State.modGroup_halves (s : State) (g : Fin 64) (f : Group → Group) : (s.modGroup g f).halves = s.halves := rfl
@[simp] theorem State.modGroup_lines (s : State) (g : Fin 64) (f : Group → Group) : (s.modGroup g f).lines = s.lines := rfl
@[simp] theorem State.modGroup_cErr (s : State) (g : Fin 64) (f : Group → Group) : (s.modGroup g f).cErr = s.cErr := rfl
@[simp] theorem State.modGroup_cTagErr (s : State) (g : Fin 64) (f : Group → Group) : (s.modGroup g f).cTagErr = s.cTagErr := rfl
@[simp] theorem State.modGroup_poison (s : State) (g : Fin 64) (f : Group → Group) : (s.modGroup g f).poison = s.poison := rfl
@[simp] theorem State.modGroup_stErr (s : State) (g : Fin 64) (f : Group → Group) : (s.modGroup g f).stErr = s.stErr := rfl
@[simp] theorem State.modGroup_stks (s : State) (g : Fin 64) (f : Group → Group) : (s.modGroup g f).stks = s.stks := rfl
@[simp] theorem State.modGroup_stackMask (s : State) (g : Fin 64) (f : Group → Group) : (s.modGroup g f).stackMask = s.stackMask := rfl
@[simp] theorem State.modGroup_weirs (s : State) (g : Fin 64) (f : Group → Group) : (s.modGroup g f).weirs = s.weirs := rfl
@[simp] theorem State.modGroup_weirRr (s : State) (g : Fin 64) (f : Group → Group) : (s.modGroup g f).weirRr = s.weirRr := rfl
@[simp] theorem State.modGroup_prot (s : State) (g : Fin 64) (f : Group → Group) : (s.modGroup g f).prot = s.prot := rfl
@[simp] theorem State.modGroup_capturing (s : State) (g : Fin 64) (f : Group → Group) : (s.modGroup g f).capturing = s.capturing := rfl
@[simp] theorem State.modGroup_devValid (s : State) (g : Fin 64) (f : Group → Group) : (s.modGroup g f).devValid = s.devValid := rfl
@[simp] theorem State.modGroup_devId (s : State) (g : Fin 64) (f : Group → Group) : (s.modGroup g f).devId = s.devId := rfl
@[simp] theorem State.modGroup_events (s : State) (g : Fin 64) (f : Group → Group) : (s.modGroup g f).events = s.events := rfl
@[simp] theorem State.modGroup_evtSeq (s : State) (g : Fin 64) (f : Group → Group) : (s.modGroup g f).evtSeq = s.evtSeq := rfl
@[simp] theorem State.modGroup_evtLost (s : State) (g : Fin 64) (f : Group → Group) : (s.modGroup g f).evtLost = s.evtLost := rfl
@[simp] theorem State.modGroup_evtFirstLost (s : State) (g : Fin 64) (f : Group → Group) : (s.modGroup g f).evtFirstLost = s.evtFirstLost := rfl
@[simp] theorem State.modGroup_jobs (s : State) (g : Fin 64) (f : Group → Group) : (s.modGroup g f).jobs = s.jobs := rfl
@[simp] theorem State.modGroup_wellJob (s : State) (g : Fin 64) (f : Group → Group) : (s.modGroup g f).wellJob = s.wellJob := rfl
@[simp] theorem State.modGroup_counters (s : State) (g : Fin 64) (f : Group → Group) : (s.modGroup g f).counters = s.counters := rfl
@[simp] theorem State.modGroup_inflight (s : State) (g : Fin 64) (f : Group → Group) : (s.modGroup g f).inflight = s.inflight := rfl
@[simp] theorem State.modGroup_sync (s : State) (g : Fin 64) (f : Group → Group) : (s.modGroup g f).sync = s.sync := rfl
@[simp] theorem State.modGroup_hw (s : State) (g : Fin 64) (f : Group → Group) : (s.modGroup g f).hw = s.hw := rfl
@[simp] theorem State.modGroup_by_ (s : State) (g : Fin 64) (f : Group → Group) : (s.modGroup g f).by_ = s.by_ := rfl
@[simp] theorem State.modGroup_bf (s : State) (g : Fin 64) (f : Group → Group) : (s.modGroup g f).bf = s.bf := rfl
@[simp] theorem State.modGroup_pw (s : State) (g : Fin 64) (f : Group → Group) : (s.modGroup g f).pw = s.pw := rfl
@[simp] theorem State.modGroup_bmc (s : State) (g : Fin 64) (f : Group → Group) : (s.modGroup g f).bmc = s.bmc := rfl
@[simp] theorem State.modGroup_jtag (s : State) (g : Fin 64) (f : Group → Group) : (s.modGroup g f).jtag = s.jtag := rfl
@[simp] theorem State.modGroup_wh (s : State) (g : Fin 64) (f : Group → Group) : (s.modGroup g f).wh = s.wh := rfl
@[simp] theorem State.modGroup_su (s : State) (g : Fin 64) (f : Group → Group) : (s.modGroup g f).su = s.su := rfl

/-! modCf -/

@[simp] theorem State.modCf_pending (s : State) (f : Conf → Conf) : (s.modCf f).pending = s.pending := rfl
@[simp] theorem State.modCf_free (s : State) (f : Conf → Conf) : (s.modCf f).free = s.free := rfl
@[simp] theorem State.modCf_mem (s : State) (f : Conf → Conf) : (s.modCf f).mem = s.mem := rfl
@[simp] theorem State.modCf_ue (s : State) (f : Conf → Conf) : (s.modCf f).ue = s.ue := rfl
@[simp] theorem State.modCf_ce (s : State) (f : Conf → Conf) : (s.modCf f).ce = s.ce := rfl
@[simp] theorem State.modCf_wells (s : State) (f : Conf → Conf) : (s.modCf f).wells = s.wells := rfl
@[simp] theorem State.modCf_domainOn (s : State) (f : Conf → Conf) : (s.modCf f).domainOn = s.domainOn := rfl
@[simp] theorem State.modCf_reports (s : State) (f : Conf → Conf) : (s.modCf f).reports = s.reports := rfl
@[simp] theorem State.modCf_stg (s : State) (f : Conf → Conf) : (s.modCf f).stg = s.stg := rfl
@[simp] theorem State.modCf_far (s : State) (f : Conf → Conf) : (s.modCf f).far = s.far := rfl
@[simp] theorem State.modCf_basinMode (s : State) (f : Conf → Conf) : (s.modCf f).basinMode = s.basinMode := rfl
@[simp] theorem State.modCf_pumps (s : State) (f : Conf → Conf) : (s.modCf f).pumps = s.pumps := rfl
@[simp] theorem State.modCf_fronts (s : State) (f : Conf → Conf) : (s.modCf f).fronts = s.fronts := rfl
@[simp] theorem State.modCf_invals (s : State) (f : Conf → Conf) : (s.modCf f).invals = s.invals := rfl
@[simp] theorem State.modCf_asidBase (s : State) (f : Conf → Conf) : (s.modCf f).asidBase = s.asidBase := rfl
@[simp] theorem State.modCf_halves (s : State) (f : Conf → Conf) : (s.modCf f).halves = s.halves := rfl
@[simp] theorem State.modCf_lines (s : State) (f : Conf → Conf) : (s.modCf f).lines = s.lines := rfl
@[simp] theorem State.modCf_cErr (s : State) (f : Conf → Conf) : (s.modCf f).cErr = s.cErr := rfl
@[simp] theorem State.modCf_cTagErr (s : State) (f : Conf → Conf) : (s.modCf f).cTagErr = s.cTagErr := rfl
@[simp] theorem State.modCf_poison (s : State) (f : Conf → Conf) : (s.modCf f).poison = s.poison := rfl
@[simp] theorem State.modCf_stErr (s : State) (f : Conf → Conf) : (s.modCf f).stErr = s.stErr := rfl
@[simp] theorem State.modCf_stks (s : State) (f : Conf → Conf) : (s.modCf f).stks = s.stks := rfl
@[simp] theorem State.modCf_stackMask (s : State) (f : Conf → Conf) : (s.modCf f).stackMask = s.stackMask := rfl
@[simp] theorem State.modCf_weirs (s : State) (f : Conf → Conf) : (s.modCf f).weirs = s.weirs := rfl
@[simp] theorem State.modCf_weirRr (s : State) (f : Conf → Conf) : (s.modCf f).weirRr = s.weirRr := rfl
@[simp] theorem State.modCf_prot (s : State) (f : Conf → Conf) : (s.modCf f).prot = s.prot := rfl
@[simp] theorem State.modCf_capturing (s : State) (f : Conf → Conf) : (s.modCf f).capturing = s.capturing := rfl
@[simp] theorem State.modCf_devValid (s : State) (f : Conf → Conf) : (s.modCf f).devValid = s.devValid := rfl
@[simp] theorem State.modCf_devId (s : State) (f : Conf → Conf) : (s.modCf f).devId = s.devId := rfl
@[simp] theorem State.modCf_events (s : State) (f : Conf → Conf) : (s.modCf f).events = s.events := rfl
@[simp] theorem State.modCf_evtSeq (s : State) (f : Conf → Conf) : (s.modCf f).evtSeq = s.evtSeq := rfl
@[simp] theorem State.modCf_evtLost (s : State) (f : Conf → Conf) : (s.modCf f).evtLost = s.evtLost := rfl
@[simp] theorem State.modCf_evtFirstLost (s : State) (f : Conf → Conf) : (s.modCf f).evtFirstLost = s.evtFirstLost := rfl
@[simp] theorem State.modCf_jobs (s : State) (f : Conf → Conf) : (s.modCf f).jobs = s.jobs := rfl
@[simp] theorem State.modCf_wellJob (s : State) (f : Conf → Conf) : (s.modCf f).wellJob = s.wellJob := rfl
@[simp] theorem State.modCf_counters (s : State) (f : Conf → Conf) : (s.modCf f).counters = s.counters := rfl
@[simp] theorem State.modCf_inflight (s : State) (f : Conf → Conf) : (s.modCf f).inflight = s.inflight := rfl
@[simp] theorem State.modCf_sync (s : State) (f : Conf → Conf) : (s.modCf f).sync = s.sync := rfl
@[simp] theorem State.modCf_hw (s : State) (f : Conf → Conf) : (s.modCf f).hw = s.hw := rfl
@[simp] theorem State.modCf_by_ (s : State) (f : Conf → Conf) : (s.modCf f).by_ = s.by_ := rfl
@[simp] theorem State.modCf_bf (s : State) (f : Conf → Conf) : (s.modCf f).bf = s.bf := rfl
@[simp] theorem State.modCf_pw (s : State) (f : Conf → Conf) : (s.modCf f).pw = s.pw := rfl
@[simp] theorem State.modCf_bmc (s : State) (f : Conf → Conf) : (s.modCf f).bmc = s.bmc := rfl
@[simp] theorem State.modCf_jtag (s : State) (f : Conf → Conf) : (s.modCf f).jtag = s.jtag := rfl
@[simp] theorem State.modCf_wh (s : State) (f : Conf → Conf) : (s.modCf f).wh = s.wh := rfl
@[simp] theorem State.modCf_su (s : State) (f : Conf → Conf) : (s.modCf f).su = s.su := rfl

/-! modEng -/

@[simp] theorem State.modEng_pending (s : State) (e : EngineId) (f : Engine → Engine) : (s.modEng e f).pending = s.pending := rfl
@[simp] theorem State.modEng_free (s : State) (e : EngineId) (f : Engine → Engine) : (s.modEng e f).free = s.free := rfl
@[simp] theorem State.modEng_mem (s : State) (e : EngineId) (f : Engine → Engine) : (s.modEng e f).mem = s.mem := rfl
@[simp] theorem State.modEng_ue (s : State) (e : EngineId) (f : Engine → Engine) : (s.modEng e f).ue = s.ue := rfl
@[simp] theorem State.modEng_ce (s : State) (e : EngineId) (f : Engine → Engine) : (s.modEng e f).ce = s.ce := rfl
@[simp] theorem State.modEng_wells (s : State) (e : EngineId) (f : Engine → Engine) : (s.modEng e f).wells = s.wells := rfl
@[simp] theorem State.modEng_domainOn (s : State) (e : EngineId) (f : Engine → Engine) : (s.modEng e f).domainOn = s.domainOn := rfl
@[simp] theorem State.modEng_reports (s : State) (e : EngineId) (f : Engine → Engine) : (s.modEng e f).reports = s.reports := rfl
@[simp] theorem State.modEng_stg (s : State) (e : EngineId) (f : Engine → Engine) : (s.modEng e f).stg = s.stg := rfl
@[simp] theorem State.modEng_far (s : State) (e : EngineId) (f : Engine → Engine) : (s.modEng e f).far = s.far := rfl
@[simp] theorem State.modEng_basinMode (s : State) (e : EngineId) (f : Engine → Engine) : (s.modEng e f).basinMode = s.basinMode := rfl
@[simp] theorem State.modEng_pumps (s : State) (e : EngineId) (f : Engine → Engine) : (s.modEng e f).pumps = s.pumps := rfl
@[simp] theorem State.modEng_fronts (s : State) (e : EngineId) (f : Engine → Engine) : (s.modEng e f).fronts = s.fronts := rfl
@[simp] theorem State.modEng_invals (s : State) (e : EngineId) (f : Engine → Engine) : (s.modEng e f).invals = s.invals := rfl
@[simp] theorem State.modEng_asidBase (s : State) (e : EngineId) (f : Engine → Engine) : (s.modEng e f).asidBase = s.asidBase := rfl
@[simp] theorem State.modEng_halves (s : State) (e : EngineId) (f : Engine → Engine) : (s.modEng e f).halves = s.halves := rfl
@[simp] theorem State.modEng_lines (s : State) (e : EngineId) (f : Engine → Engine) : (s.modEng e f).lines = s.lines := rfl
@[simp] theorem State.modEng_cErr (s : State) (e : EngineId) (f : Engine → Engine) : (s.modEng e f).cErr = s.cErr := rfl
@[simp] theorem State.modEng_cTagErr (s : State) (e : EngineId) (f : Engine → Engine) : (s.modEng e f).cTagErr = s.cTagErr := rfl
@[simp] theorem State.modEng_poison (s : State) (e : EngineId) (f : Engine → Engine) : (s.modEng e f).poison = s.poison := rfl
@[simp] theorem State.modEng_stErr (s : State) (e : EngineId) (f : Engine → Engine) : (s.modEng e f).stErr = s.stErr := rfl
@[simp] theorem State.modEng_stks (s : State) (e : EngineId) (f : Engine → Engine) : (s.modEng e f).stks = s.stks := rfl
@[simp] theorem State.modEng_stackMask (s : State) (e : EngineId) (f : Engine → Engine) : (s.modEng e f).stackMask = s.stackMask := rfl
@[simp] theorem State.modEng_weirs (s : State) (e : EngineId) (f : Engine → Engine) : (s.modEng e f).weirs = s.weirs := rfl
@[simp] theorem State.modEng_weirRr (s : State) (e : EngineId) (f : Engine → Engine) : (s.modEng e f).weirRr = s.weirRr := rfl
@[simp] theorem State.modEng_prot (s : State) (e : EngineId) (f : Engine → Engine) : (s.modEng e f).prot = s.prot := rfl
@[simp] theorem State.modEng_capturing (s : State) (e : EngineId) (f : Engine → Engine) : (s.modEng e f).capturing = s.capturing := rfl
@[simp] theorem State.modEng_devValid (s : State) (e : EngineId) (f : Engine → Engine) : (s.modEng e f).devValid = s.devValid := rfl
@[simp] theorem State.modEng_devId (s : State) (e : EngineId) (f : Engine → Engine) : (s.modEng e f).devId = s.devId := rfl
@[simp] theorem State.modEng_events (s : State) (e : EngineId) (f : Engine → Engine) : (s.modEng e f).events = s.events := rfl
@[simp] theorem State.modEng_evtSeq (s : State) (e : EngineId) (f : Engine → Engine) : (s.modEng e f).evtSeq = s.evtSeq := rfl
@[simp] theorem State.modEng_evtLost (s : State) (e : EngineId) (f : Engine → Engine) : (s.modEng e f).evtLost = s.evtLost := rfl
@[simp] theorem State.modEng_evtFirstLost (s : State) (e : EngineId) (f : Engine → Engine) : (s.modEng e f).evtFirstLost = s.evtFirstLost := rfl
@[simp] theorem State.modEng_jobs (s : State) (e : EngineId) (f : Engine → Engine) : (s.modEng e f).jobs = s.jobs := rfl
@[simp] theorem State.modEng_wellJob (s : State) (e : EngineId) (f : Engine → Engine) : (s.modEng e f).wellJob = s.wellJob := rfl
@[simp] theorem State.modEng_counters (s : State) (e : EngineId) (f : Engine → Engine) : (s.modEng e f).counters = s.counters := rfl
@[simp] theorem State.modEng_inflight (s : State) (e : EngineId) (f : Engine → Engine) : (s.modEng e f).inflight = s.inflight := rfl
@[simp] theorem State.modEng_sync (s : State) (e : EngineId) (f : Engine → Engine) : (s.modEng e f).sync = s.sync := rfl
@[simp] theorem State.modEng_hw (s : State) (e : EngineId) (f : Engine → Engine) : (s.modEng e f).hw = s.hw := rfl
@[simp] theorem State.modEng_by_ (s : State) (e : EngineId) (f : Engine → Engine) : (s.modEng e f).by_ = s.by_ := rfl
@[simp] theorem State.modEng_bf (s : State) (e : EngineId) (f : Engine → Engine) : (s.modEng e f).bf = s.bf := rfl
@[simp] theorem State.modEng_pw (s : State) (e : EngineId) (f : Engine → Engine) : (s.modEng e f).pw = s.pw := rfl
@[simp] theorem State.modEng_bmc (s : State) (e : EngineId) (f : Engine → Engine) : (s.modEng e f).bmc = s.bmc := rfl
@[simp] theorem State.modEng_jtag (s : State) (e : EngineId) (f : Engine → Engine) : (s.modEng e f).jtag = s.jtag := rfl
@[simp] theorem State.modEng_wh (s : State) (e : EngineId) (f : Engine → Engine) : (s.modEng e f).wh = s.wh := rfl
@[simp] theorem State.modEng_su (s : State) (e : EngineId) (f : Engine → Engine) : (s.modEng e f).su = s.su := rfl

/-! modHw -/

@[simp] theorem State.modHw_pending (s : State) (f : Headwater → Headwater) : (s.modHw f).pending = s.pending := rfl
@[simp] theorem State.modHw_free (s : State) (f : Headwater → Headwater) : (s.modHw f).free = s.free := rfl
@[simp] theorem State.modHw_mem (s : State) (f : Headwater → Headwater) : (s.modHw f).mem = s.mem := rfl
@[simp] theorem State.modHw_ue (s : State) (f : Headwater → Headwater) : (s.modHw f).ue = s.ue := rfl
@[simp] theorem State.modHw_ce (s : State) (f : Headwater → Headwater) : (s.modHw f).ce = s.ce := rfl
@[simp] theorem State.modHw_wells (s : State) (f : Headwater → Headwater) : (s.modHw f).wells = s.wells := rfl
@[simp] theorem State.modHw_domainOn (s : State) (f : Headwater → Headwater) : (s.modHw f).domainOn = s.domainOn := rfl
@[simp] theorem State.modHw_reports (s : State) (f : Headwater → Headwater) : (s.modHw f).reports = s.reports := rfl
@[simp] theorem State.modHw_stg (s : State) (f : Headwater → Headwater) : (s.modHw f).stg = s.stg := rfl
@[simp] theorem State.modHw_far (s : State) (f : Headwater → Headwater) : (s.modHw f).far = s.far := rfl
@[simp] theorem State.modHw_cf (s : State) (f : Headwater → Headwater) : (s.modHw f).cf = s.cf := rfl
@[simp] theorem State.modHw_basinMode (s : State) (f : Headwater → Headwater) : (s.modHw f).basinMode = s.basinMode := rfl
@[simp] theorem State.modHw_pumps (s : State) (f : Headwater → Headwater) : (s.modHw f).pumps = s.pumps := rfl
@[simp] theorem State.modHw_fronts (s : State) (f : Headwater → Headwater) : (s.modHw f).fronts = s.fronts := rfl
@[simp] theorem State.modHw_invals (s : State) (f : Headwater → Headwater) : (s.modHw f).invals = s.invals := rfl
@[simp] theorem State.modHw_asidBase (s : State) (f : Headwater → Headwater) : (s.modHw f).asidBase = s.asidBase := rfl
@[simp] theorem State.modHw_halves (s : State) (f : Headwater → Headwater) : (s.modHw f).halves = s.halves := rfl
@[simp] theorem State.modHw_lines (s : State) (f : Headwater → Headwater) : (s.modHw f).lines = s.lines := rfl
@[simp] theorem State.modHw_cErr (s : State) (f : Headwater → Headwater) : (s.modHw f).cErr = s.cErr := rfl
@[simp] theorem State.modHw_cTagErr (s : State) (f : Headwater → Headwater) : (s.modHw f).cTagErr = s.cTagErr := rfl
@[simp] theorem State.modHw_poison (s : State) (f : Headwater → Headwater) : (s.modHw f).poison = s.poison := rfl
@[simp] theorem State.modHw_stErr (s : State) (f : Headwater → Headwater) : (s.modHw f).stErr = s.stErr := rfl
@[simp] theorem State.modHw_stks (s : State) (f : Headwater → Headwater) : (s.modHw f).stks = s.stks := rfl
@[simp] theorem State.modHw_stackMask (s : State) (f : Headwater → Headwater) : (s.modHw f).stackMask = s.stackMask := rfl
@[simp] theorem State.modHw_weirs (s : State) (f : Headwater → Headwater) : (s.modHw f).weirs = s.weirs := rfl
@[simp] theorem State.modHw_weirRr (s : State) (f : Headwater → Headwater) : (s.modHw f).weirRr = s.weirRr := rfl
@[simp] theorem State.modHw_prot (s : State) (f : Headwater → Headwater) : (s.modHw f).prot = s.prot := rfl
@[simp] theorem State.modHw_capturing (s : State) (f : Headwater → Headwater) : (s.modHw f).capturing = s.capturing := rfl
@[simp] theorem State.modHw_devValid (s : State) (f : Headwater → Headwater) : (s.modHw f).devValid = s.devValid := rfl
@[simp] theorem State.modHw_devId (s : State) (f : Headwater → Headwater) : (s.modHw f).devId = s.devId := rfl
@[simp] theorem State.modHw_events (s : State) (f : Headwater → Headwater) : (s.modHw f).events = s.events := rfl
@[simp] theorem State.modHw_evtSeq (s : State) (f : Headwater → Headwater) : (s.modHw f).evtSeq = s.evtSeq := rfl
@[simp] theorem State.modHw_evtLost (s : State) (f : Headwater → Headwater) : (s.modHw f).evtLost = s.evtLost := rfl
@[simp] theorem State.modHw_evtFirstLost (s : State) (f : Headwater → Headwater) : (s.modHw f).evtFirstLost = s.evtFirstLost := rfl
@[simp] theorem State.modHw_jobs (s : State) (f : Headwater → Headwater) : (s.modHw f).jobs = s.jobs := rfl
@[simp] theorem State.modHw_wellJob (s : State) (f : Headwater → Headwater) : (s.modHw f).wellJob = s.wellJob := rfl
@[simp] theorem State.modHw_counters (s : State) (f : Headwater → Headwater) : (s.modHw f).counters = s.counters := rfl
@[simp] theorem State.modHw_inflight (s : State) (f : Headwater → Headwater) : (s.modHw f).inflight = s.inflight := rfl
@[simp] theorem State.modHw_sync (s : State) (f : Headwater → Headwater) : (s.modHw f).sync = s.sync := rfl
@[simp] theorem State.modHw_by_ (s : State) (f : Headwater → Headwater) : (s.modHw f).by_ = s.by_ := rfl
@[simp] theorem State.modHw_bf (s : State) (f : Headwater → Headwater) : (s.modHw f).bf = s.bf := rfl
@[simp] theorem State.modHw_pw (s : State) (f : Headwater → Headwater) : (s.modHw f).pw = s.pw := rfl
@[simp] theorem State.modHw_bmc (s : State) (f : Headwater → Headwater) : (s.modHw f).bmc = s.bmc := rfl
@[simp] theorem State.modHw_jtag (s : State) (f : Headwater → Headwater) : (s.modHw f).jtag = s.jtag := rfl
@[simp] theorem State.modHw_wh (s : State) (f : Headwater → Headwater) : (s.modHw f).wh = s.wh := rfl
@[simp] theorem State.modHw_su (s : State) (f : Headwater → Headwater) : (s.modHw f).su = s.su := rfl

/-! modBy -/

@[simp] theorem State.modBy_pending (s : State) (f : ByLink → ByLink) : (s.modBy f).pending = s.pending := rfl
@[simp] theorem State.modBy_free (s : State) (f : ByLink → ByLink) : (s.modBy f).free = s.free := rfl
@[simp] theorem State.modBy_mem (s : State) (f : ByLink → ByLink) : (s.modBy f).mem = s.mem := rfl
@[simp] theorem State.modBy_ue (s : State) (f : ByLink → ByLink) : (s.modBy f).ue = s.ue := rfl
@[simp] theorem State.modBy_ce (s : State) (f : ByLink → ByLink) : (s.modBy f).ce = s.ce := rfl
@[simp] theorem State.modBy_wells (s : State) (f : ByLink → ByLink) : (s.modBy f).wells = s.wells := rfl
@[simp] theorem State.modBy_domainOn (s : State) (f : ByLink → ByLink) : (s.modBy f).domainOn = s.domainOn := rfl
@[simp] theorem State.modBy_reports (s : State) (f : ByLink → ByLink) : (s.modBy f).reports = s.reports := rfl
@[simp] theorem State.modBy_stg (s : State) (f : ByLink → ByLink) : (s.modBy f).stg = s.stg := rfl
@[simp] theorem State.modBy_far (s : State) (f : ByLink → ByLink) : (s.modBy f).far = s.far := rfl
@[simp] theorem State.modBy_cf (s : State) (f : ByLink → ByLink) : (s.modBy f).cf = s.cf := rfl
@[simp] theorem State.modBy_basinMode (s : State) (f : ByLink → ByLink) : (s.modBy f).basinMode = s.basinMode := rfl
@[simp] theorem State.modBy_pumps (s : State) (f : ByLink → ByLink) : (s.modBy f).pumps = s.pumps := rfl
@[simp] theorem State.modBy_fronts (s : State) (f : ByLink → ByLink) : (s.modBy f).fronts = s.fronts := rfl
@[simp] theorem State.modBy_invals (s : State) (f : ByLink → ByLink) : (s.modBy f).invals = s.invals := rfl
@[simp] theorem State.modBy_asidBase (s : State) (f : ByLink → ByLink) : (s.modBy f).asidBase = s.asidBase := rfl
@[simp] theorem State.modBy_halves (s : State) (f : ByLink → ByLink) : (s.modBy f).halves = s.halves := rfl
@[simp] theorem State.modBy_lines (s : State) (f : ByLink → ByLink) : (s.modBy f).lines = s.lines := rfl
@[simp] theorem State.modBy_cErr (s : State) (f : ByLink → ByLink) : (s.modBy f).cErr = s.cErr := rfl
@[simp] theorem State.modBy_cTagErr (s : State) (f : ByLink → ByLink) : (s.modBy f).cTagErr = s.cTagErr := rfl
@[simp] theorem State.modBy_poison (s : State) (f : ByLink → ByLink) : (s.modBy f).poison = s.poison := rfl
@[simp] theorem State.modBy_stErr (s : State) (f : ByLink → ByLink) : (s.modBy f).stErr = s.stErr := rfl
@[simp] theorem State.modBy_stks (s : State) (f : ByLink → ByLink) : (s.modBy f).stks = s.stks := rfl
@[simp] theorem State.modBy_stackMask (s : State) (f : ByLink → ByLink) : (s.modBy f).stackMask = s.stackMask := rfl
@[simp] theorem State.modBy_weirs (s : State) (f : ByLink → ByLink) : (s.modBy f).weirs = s.weirs := rfl
@[simp] theorem State.modBy_weirRr (s : State) (f : ByLink → ByLink) : (s.modBy f).weirRr = s.weirRr := rfl
@[simp] theorem State.modBy_prot (s : State) (f : ByLink → ByLink) : (s.modBy f).prot = s.prot := rfl
@[simp] theorem State.modBy_capturing (s : State) (f : ByLink → ByLink) : (s.modBy f).capturing = s.capturing := rfl
@[simp] theorem State.modBy_devValid (s : State) (f : ByLink → ByLink) : (s.modBy f).devValid = s.devValid := rfl
@[simp] theorem State.modBy_devId (s : State) (f : ByLink → ByLink) : (s.modBy f).devId = s.devId := rfl
@[simp] theorem State.modBy_events (s : State) (f : ByLink → ByLink) : (s.modBy f).events = s.events := rfl
@[simp] theorem State.modBy_evtSeq (s : State) (f : ByLink → ByLink) : (s.modBy f).evtSeq = s.evtSeq := rfl
@[simp] theorem State.modBy_evtLost (s : State) (f : ByLink → ByLink) : (s.modBy f).evtLost = s.evtLost := rfl
@[simp] theorem State.modBy_evtFirstLost (s : State) (f : ByLink → ByLink) : (s.modBy f).evtFirstLost = s.evtFirstLost := rfl
@[simp] theorem State.modBy_jobs (s : State) (f : ByLink → ByLink) : (s.modBy f).jobs = s.jobs := rfl
@[simp] theorem State.modBy_wellJob (s : State) (f : ByLink → ByLink) : (s.modBy f).wellJob = s.wellJob := rfl
@[simp] theorem State.modBy_counters (s : State) (f : ByLink → ByLink) : (s.modBy f).counters = s.counters := rfl
@[simp] theorem State.modBy_inflight (s : State) (f : ByLink → ByLink) : (s.modBy f).inflight = s.inflight := rfl
@[simp] theorem State.modBy_sync (s : State) (f : ByLink → ByLink) : (s.modBy f).sync = s.sync := rfl
@[simp] theorem State.modBy_hw (s : State) (f : ByLink → ByLink) : (s.modBy f).hw = s.hw := rfl
@[simp] theorem State.modBy_bf (s : State) (f : ByLink → ByLink) : (s.modBy f).bf = s.bf := rfl
@[simp] theorem State.modBy_pw (s : State) (f : ByLink → ByLink) : (s.modBy f).pw = s.pw := rfl
@[simp] theorem State.modBy_bmc (s : State) (f : ByLink → ByLink) : (s.modBy f).bmc = s.bmc := rfl
@[simp] theorem State.modBy_jtag (s : State) (f : ByLink → ByLink) : (s.modBy f).jtag = s.jtag := rfl
@[simp] theorem State.modBy_wh (s : State) (f : ByLink → ByLink) : (s.modBy f).wh = s.wh := rfl
@[simp] theorem State.modBy_su (s : State) (f : ByLink → ByLink) : (s.modBy f).su = s.su := rfl

/-! modBf -/

@[simp] theorem State.modBf_pending (s : State) (f : Baseflow → Baseflow) : (s.modBf f).pending = s.pending := rfl
@[simp] theorem State.modBf_free (s : State) (f : Baseflow → Baseflow) : (s.modBf f).free = s.free := rfl
@[simp] theorem State.modBf_mem (s : State) (f : Baseflow → Baseflow) : (s.modBf f).mem = s.mem := rfl
@[simp] theorem State.modBf_ue (s : State) (f : Baseflow → Baseflow) : (s.modBf f).ue = s.ue := rfl
@[simp] theorem State.modBf_ce (s : State) (f : Baseflow → Baseflow) : (s.modBf f).ce = s.ce := rfl
@[simp] theorem State.modBf_wells (s : State) (f : Baseflow → Baseflow) : (s.modBf f).wells = s.wells := rfl
@[simp] theorem State.modBf_domainOn (s : State) (f : Baseflow → Baseflow) : (s.modBf f).domainOn = s.domainOn := rfl
@[simp] theorem State.modBf_reports (s : State) (f : Baseflow → Baseflow) : (s.modBf f).reports = s.reports := rfl
@[simp] theorem State.modBf_stg (s : State) (f : Baseflow → Baseflow) : (s.modBf f).stg = s.stg := rfl
@[simp] theorem State.modBf_far (s : State) (f : Baseflow → Baseflow) : (s.modBf f).far = s.far := rfl
@[simp] theorem State.modBf_cf (s : State) (f : Baseflow → Baseflow) : (s.modBf f).cf = s.cf := rfl
@[simp] theorem State.modBf_basinMode (s : State) (f : Baseflow → Baseflow) : (s.modBf f).basinMode = s.basinMode := rfl
@[simp] theorem State.modBf_pumps (s : State) (f : Baseflow → Baseflow) : (s.modBf f).pumps = s.pumps := rfl
@[simp] theorem State.modBf_fronts (s : State) (f : Baseflow → Baseflow) : (s.modBf f).fronts = s.fronts := rfl
@[simp] theorem State.modBf_invals (s : State) (f : Baseflow → Baseflow) : (s.modBf f).invals = s.invals := rfl
@[simp] theorem State.modBf_asidBase (s : State) (f : Baseflow → Baseflow) : (s.modBf f).asidBase = s.asidBase := rfl
@[simp] theorem State.modBf_halves (s : State) (f : Baseflow → Baseflow) : (s.modBf f).halves = s.halves := rfl
@[simp] theorem State.modBf_lines (s : State) (f : Baseflow → Baseflow) : (s.modBf f).lines = s.lines := rfl
@[simp] theorem State.modBf_cErr (s : State) (f : Baseflow → Baseflow) : (s.modBf f).cErr = s.cErr := rfl
@[simp] theorem State.modBf_cTagErr (s : State) (f : Baseflow → Baseflow) : (s.modBf f).cTagErr = s.cTagErr := rfl
@[simp] theorem State.modBf_poison (s : State) (f : Baseflow → Baseflow) : (s.modBf f).poison = s.poison := rfl
@[simp] theorem State.modBf_stErr (s : State) (f : Baseflow → Baseflow) : (s.modBf f).stErr = s.stErr := rfl
@[simp] theorem State.modBf_stks (s : State) (f : Baseflow → Baseflow) : (s.modBf f).stks = s.stks := rfl
@[simp] theorem State.modBf_stackMask (s : State) (f : Baseflow → Baseflow) : (s.modBf f).stackMask = s.stackMask := rfl
@[simp] theorem State.modBf_weirs (s : State) (f : Baseflow → Baseflow) : (s.modBf f).weirs = s.weirs := rfl
@[simp] theorem State.modBf_weirRr (s : State) (f : Baseflow → Baseflow) : (s.modBf f).weirRr = s.weirRr := rfl
@[simp] theorem State.modBf_prot (s : State) (f : Baseflow → Baseflow) : (s.modBf f).prot = s.prot := rfl
@[simp] theorem State.modBf_capturing (s : State) (f : Baseflow → Baseflow) : (s.modBf f).capturing = s.capturing := rfl
@[simp] theorem State.modBf_devValid (s : State) (f : Baseflow → Baseflow) : (s.modBf f).devValid = s.devValid := rfl
@[simp] theorem State.modBf_devId (s : State) (f : Baseflow → Baseflow) : (s.modBf f).devId = s.devId := rfl
@[simp] theorem State.modBf_events (s : State) (f : Baseflow → Baseflow) : (s.modBf f).events = s.events := rfl
@[simp] theorem State.modBf_evtSeq (s : State) (f : Baseflow → Baseflow) : (s.modBf f).evtSeq = s.evtSeq := rfl
@[simp] theorem State.modBf_evtLost (s : State) (f : Baseflow → Baseflow) : (s.modBf f).evtLost = s.evtLost := rfl
@[simp] theorem State.modBf_evtFirstLost (s : State) (f : Baseflow → Baseflow) : (s.modBf f).evtFirstLost = s.evtFirstLost := rfl
@[simp] theorem State.modBf_jobs (s : State) (f : Baseflow → Baseflow) : (s.modBf f).jobs = s.jobs := rfl
@[simp] theorem State.modBf_wellJob (s : State) (f : Baseflow → Baseflow) : (s.modBf f).wellJob = s.wellJob := rfl
@[simp] theorem State.modBf_counters (s : State) (f : Baseflow → Baseflow) : (s.modBf f).counters = s.counters := rfl
@[simp] theorem State.modBf_inflight (s : State) (f : Baseflow → Baseflow) : (s.modBf f).inflight = s.inflight := rfl
@[simp] theorem State.modBf_sync (s : State) (f : Baseflow → Baseflow) : (s.modBf f).sync = s.sync := rfl
@[simp] theorem State.modBf_hw (s : State) (f : Baseflow → Baseflow) : (s.modBf f).hw = s.hw := rfl
@[simp] theorem State.modBf_by_ (s : State) (f : Baseflow → Baseflow) : (s.modBf f).by_ = s.by_ := rfl
@[simp] theorem State.modBf_pw (s : State) (f : Baseflow → Baseflow) : (s.modBf f).pw = s.pw := rfl
@[simp] theorem State.modBf_bmc (s : State) (f : Baseflow → Baseflow) : (s.modBf f).bmc = s.bmc := rfl
@[simp] theorem State.modBf_jtag (s : State) (f : Baseflow → Baseflow) : (s.modBf f).jtag = s.jtag := rfl
@[simp] theorem State.modBf_wh (s : State) (f : Baseflow → Baseflow) : (s.modBf f).wh = s.wh := rfl
@[simp] theorem State.modBf_su (s : State) (f : Baseflow → Baseflow) : (s.modBf f).su = s.su := rfl

/-! modPw -/

@[simp] theorem State.modPw_pending (s : State) (f : Power → Power) : (s.modPw f).pending = s.pending := rfl
@[simp] theorem State.modPw_free (s : State) (f : Power → Power) : (s.modPw f).free = s.free := rfl
@[simp] theorem State.modPw_mem (s : State) (f : Power → Power) : (s.modPw f).mem = s.mem := rfl
@[simp] theorem State.modPw_ue (s : State) (f : Power → Power) : (s.modPw f).ue = s.ue := rfl
@[simp] theorem State.modPw_ce (s : State) (f : Power → Power) : (s.modPw f).ce = s.ce := rfl
@[simp] theorem State.modPw_wells (s : State) (f : Power → Power) : (s.modPw f).wells = s.wells := rfl
@[simp] theorem State.modPw_domainOn (s : State) (f : Power → Power) : (s.modPw f).domainOn = s.domainOn := rfl
@[simp] theorem State.modPw_reports (s : State) (f : Power → Power) : (s.modPw f).reports = s.reports := rfl
@[simp] theorem State.modPw_stg (s : State) (f : Power → Power) : (s.modPw f).stg = s.stg := rfl
@[simp] theorem State.modPw_far (s : State) (f : Power → Power) : (s.modPw f).far = s.far := rfl
@[simp] theorem State.modPw_cf (s : State) (f : Power → Power) : (s.modPw f).cf = s.cf := rfl
@[simp] theorem State.modPw_basinMode (s : State) (f : Power → Power) : (s.modPw f).basinMode = s.basinMode := rfl
@[simp] theorem State.modPw_pumps (s : State) (f : Power → Power) : (s.modPw f).pumps = s.pumps := rfl
@[simp] theorem State.modPw_fronts (s : State) (f : Power → Power) : (s.modPw f).fronts = s.fronts := rfl
@[simp] theorem State.modPw_invals (s : State) (f : Power → Power) : (s.modPw f).invals = s.invals := rfl
@[simp] theorem State.modPw_asidBase (s : State) (f : Power → Power) : (s.modPw f).asidBase = s.asidBase := rfl
@[simp] theorem State.modPw_halves (s : State) (f : Power → Power) : (s.modPw f).halves = s.halves := rfl
@[simp] theorem State.modPw_lines (s : State) (f : Power → Power) : (s.modPw f).lines = s.lines := rfl
@[simp] theorem State.modPw_cErr (s : State) (f : Power → Power) : (s.modPw f).cErr = s.cErr := rfl
@[simp] theorem State.modPw_cTagErr (s : State) (f : Power → Power) : (s.modPw f).cTagErr = s.cTagErr := rfl
@[simp] theorem State.modPw_poison (s : State) (f : Power → Power) : (s.modPw f).poison = s.poison := rfl
@[simp] theorem State.modPw_stErr (s : State) (f : Power → Power) : (s.modPw f).stErr = s.stErr := rfl
@[simp] theorem State.modPw_stks (s : State) (f : Power → Power) : (s.modPw f).stks = s.stks := rfl
@[simp] theorem State.modPw_stackMask (s : State) (f : Power → Power) : (s.modPw f).stackMask = s.stackMask := rfl
@[simp] theorem State.modPw_weirs (s : State) (f : Power → Power) : (s.modPw f).weirs = s.weirs := rfl
@[simp] theorem State.modPw_weirRr (s : State) (f : Power → Power) : (s.modPw f).weirRr = s.weirRr := rfl
@[simp] theorem State.modPw_prot (s : State) (f : Power → Power) : (s.modPw f).prot = s.prot := rfl
@[simp] theorem State.modPw_capturing (s : State) (f : Power → Power) : (s.modPw f).capturing = s.capturing := rfl
@[simp] theorem State.modPw_devValid (s : State) (f : Power → Power) : (s.modPw f).devValid = s.devValid := rfl
@[simp] theorem State.modPw_devId (s : State) (f : Power → Power) : (s.modPw f).devId = s.devId := rfl
@[simp] theorem State.modPw_events (s : State) (f : Power → Power) : (s.modPw f).events = s.events := rfl
@[simp] theorem State.modPw_evtSeq (s : State) (f : Power → Power) : (s.modPw f).evtSeq = s.evtSeq := rfl
@[simp] theorem State.modPw_evtLost (s : State) (f : Power → Power) : (s.modPw f).evtLost = s.evtLost := rfl
@[simp] theorem State.modPw_evtFirstLost (s : State) (f : Power → Power) : (s.modPw f).evtFirstLost = s.evtFirstLost := rfl
@[simp] theorem State.modPw_jobs (s : State) (f : Power → Power) : (s.modPw f).jobs = s.jobs := rfl
@[simp] theorem State.modPw_wellJob (s : State) (f : Power → Power) : (s.modPw f).wellJob = s.wellJob := rfl
@[simp] theorem State.modPw_counters (s : State) (f : Power → Power) : (s.modPw f).counters = s.counters := rfl
@[simp] theorem State.modPw_inflight (s : State) (f : Power → Power) : (s.modPw f).inflight = s.inflight := rfl
@[simp] theorem State.modPw_sync (s : State) (f : Power → Power) : (s.modPw f).sync = s.sync := rfl
@[simp] theorem State.modPw_hw (s : State) (f : Power → Power) : (s.modPw f).hw = s.hw := rfl
@[simp] theorem State.modPw_by_ (s : State) (f : Power → Power) : (s.modPw f).by_ = s.by_ := rfl
@[simp] theorem State.modPw_bf (s : State) (f : Power → Power) : (s.modPw f).bf = s.bf := rfl
@[simp] theorem State.modPw_bmc (s : State) (f : Power → Power) : (s.modPw f).bmc = s.bmc := rfl
@[simp] theorem State.modPw_jtag (s : State) (f : Power → Power) : (s.modPw f).jtag = s.jtag := rfl
@[simp] theorem State.modPw_wh (s : State) (f : Power → Power) : (s.modPw f).wh = s.wh := rfl
@[simp] theorem State.modPw_su (s : State) (f : Power → Power) : (s.modPw f).su = s.su := rfl

/-! modWh -/

@[simp] theorem State.modWh_pending (s : State) (f : Wellhead → Wellhead) : (s.modWh f).pending = s.pending := rfl
@[simp] theorem State.modWh_free (s : State) (f : Wellhead → Wellhead) : (s.modWh f).free = s.free := rfl
@[simp] theorem State.modWh_mem (s : State) (f : Wellhead → Wellhead) : (s.modWh f).mem = s.mem := rfl
@[simp] theorem State.modWh_ue (s : State) (f : Wellhead → Wellhead) : (s.modWh f).ue = s.ue := rfl
@[simp] theorem State.modWh_ce (s : State) (f : Wellhead → Wellhead) : (s.modWh f).ce = s.ce := rfl
@[simp] theorem State.modWh_wells (s : State) (f : Wellhead → Wellhead) : (s.modWh f).wells = s.wells := rfl
@[simp] theorem State.modWh_domainOn (s : State) (f : Wellhead → Wellhead) : (s.modWh f).domainOn = s.domainOn := rfl
@[simp] theorem State.modWh_reports (s : State) (f : Wellhead → Wellhead) : (s.modWh f).reports = s.reports := rfl
@[simp] theorem State.modWh_stg (s : State) (f : Wellhead → Wellhead) : (s.modWh f).stg = s.stg := rfl
@[simp] theorem State.modWh_far (s : State) (f : Wellhead → Wellhead) : (s.modWh f).far = s.far := rfl
@[simp] theorem State.modWh_cf (s : State) (f : Wellhead → Wellhead) : (s.modWh f).cf = s.cf := rfl
@[simp] theorem State.modWh_basinMode (s : State) (f : Wellhead → Wellhead) : (s.modWh f).basinMode = s.basinMode := rfl
@[simp] theorem State.modWh_pumps (s : State) (f : Wellhead → Wellhead) : (s.modWh f).pumps = s.pumps := rfl
@[simp] theorem State.modWh_fronts (s : State) (f : Wellhead → Wellhead) : (s.modWh f).fronts = s.fronts := rfl
@[simp] theorem State.modWh_invals (s : State) (f : Wellhead → Wellhead) : (s.modWh f).invals = s.invals := rfl
@[simp] theorem State.modWh_asidBase (s : State) (f : Wellhead → Wellhead) : (s.modWh f).asidBase = s.asidBase := rfl
@[simp] theorem State.modWh_halves (s : State) (f : Wellhead → Wellhead) : (s.modWh f).halves = s.halves := rfl
@[simp] theorem State.modWh_lines (s : State) (f : Wellhead → Wellhead) : (s.modWh f).lines = s.lines := rfl
@[simp] theorem State.modWh_cErr (s : State) (f : Wellhead → Wellhead) : (s.modWh f).cErr = s.cErr := rfl
@[simp] theorem State.modWh_cTagErr (s : State) (f : Wellhead → Wellhead) : (s.modWh f).cTagErr = s.cTagErr := rfl
@[simp] theorem State.modWh_poison (s : State) (f : Wellhead → Wellhead) : (s.modWh f).poison = s.poison := rfl
@[simp] theorem State.modWh_stErr (s : State) (f : Wellhead → Wellhead) : (s.modWh f).stErr = s.stErr := rfl
@[simp] theorem State.modWh_stks (s : State) (f : Wellhead → Wellhead) : (s.modWh f).stks = s.stks := rfl
@[simp] theorem State.modWh_stackMask (s : State) (f : Wellhead → Wellhead) : (s.modWh f).stackMask = s.stackMask := rfl
@[simp] theorem State.modWh_weirs (s : State) (f : Wellhead → Wellhead) : (s.modWh f).weirs = s.weirs := rfl
@[simp] theorem State.modWh_weirRr (s : State) (f : Wellhead → Wellhead) : (s.modWh f).weirRr = s.weirRr := rfl
@[simp] theorem State.modWh_prot (s : State) (f : Wellhead → Wellhead) : (s.modWh f).prot = s.prot := rfl
@[simp] theorem State.modWh_capturing (s : State) (f : Wellhead → Wellhead) : (s.modWh f).capturing = s.capturing := rfl
@[simp] theorem State.modWh_devValid (s : State) (f : Wellhead → Wellhead) : (s.modWh f).devValid = s.devValid := rfl
@[simp] theorem State.modWh_devId (s : State) (f : Wellhead → Wellhead) : (s.modWh f).devId = s.devId := rfl
@[simp] theorem State.modWh_events (s : State) (f : Wellhead → Wellhead) : (s.modWh f).events = s.events := rfl
@[simp] theorem State.modWh_evtSeq (s : State) (f : Wellhead → Wellhead) : (s.modWh f).evtSeq = s.evtSeq := rfl
@[simp] theorem State.modWh_evtLost (s : State) (f : Wellhead → Wellhead) : (s.modWh f).evtLost = s.evtLost := rfl
@[simp] theorem State.modWh_evtFirstLost (s : State) (f : Wellhead → Wellhead) : (s.modWh f).evtFirstLost = s.evtFirstLost := rfl
@[simp] theorem State.modWh_jobs (s : State) (f : Wellhead → Wellhead) : (s.modWh f).jobs = s.jobs := rfl
@[simp] theorem State.modWh_wellJob (s : State) (f : Wellhead → Wellhead) : (s.modWh f).wellJob = s.wellJob := rfl
@[simp] theorem State.modWh_counters (s : State) (f : Wellhead → Wellhead) : (s.modWh f).counters = s.counters := rfl
@[simp] theorem State.modWh_inflight (s : State) (f : Wellhead → Wellhead) : (s.modWh f).inflight = s.inflight := rfl
@[simp] theorem State.modWh_sync (s : State) (f : Wellhead → Wellhead) : (s.modWh f).sync = s.sync := rfl
@[simp] theorem State.modWh_hw (s : State) (f : Wellhead → Wellhead) : (s.modWh f).hw = s.hw := rfl
@[simp] theorem State.modWh_by_ (s : State) (f : Wellhead → Wellhead) : (s.modWh f).by_ = s.by_ := rfl
@[simp] theorem State.modWh_bf (s : State) (f : Wellhead → Wellhead) : (s.modWh f).bf = s.bf := rfl
@[simp] theorem State.modWh_pw (s : State) (f : Wellhead → Wellhead) : (s.modWh f).pw = s.pw := rfl
@[simp] theorem State.modWh_bmc (s : State) (f : Wellhead → Wellhead) : (s.modWh f).bmc = s.bmc := rfl
@[simp] theorem State.modWh_jtag (s : State) (f : Wellhead → Wellhead) : (s.modWh f).jtag = s.jtag := rfl
@[simp] theorem State.modWh_su (s : State) (f : Wellhead → Wellhead) : (s.modWh f).su = s.su := rfl

/-! modSu -/

@[simp] theorem State.modSu_pending (s : State) (f : StartUp → StartUp) : (s.modSu f).pending = s.pending := rfl
@[simp] theorem State.modSu_free (s : State) (f : StartUp → StartUp) : (s.modSu f).free = s.free := rfl
@[simp] theorem State.modSu_mem (s : State) (f : StartUp → StartUp) : (s.modSu f).mem = s.mem := rfl
@[simp] theorem State.modSu_ue (s : State) (f : StartUp → StartUp) : (s.modSu f).ue = s.ue := rfl
@[simp] theorem State.modSu_ce (s : State) (f : StartUp → StartUp) : (s.modSu f).ce = s.ce := rfl
@[simp] theorem State.modSu_wells (s : State) (f : StartUp → StartUp) : (s.modSu f).wells = s.wells := rfl
@[simp] theorem State.modSu_domainOn (s : State) (f : StartUp → StartUp) : (s.modSu f).domainOn = s.domainOn := rfl
@[simp] theorem State.modSu_reports (s : State) (f : StartUp → StartUp) : (s.modSu f).reports = s.reports := rfl
@[simp] theorem State.modSu_stg (s : State) (f : StartUp → StartUp) : (s.modSu f).stg = s.stg := rfl
@[simp] theorem State.modSu_far (s : State) (f : StartUp → StartUp) : (s.modSu f).far = s.far := rfl
@[simp] theorem State.modSu_cf (s : State) (f : StartUp → StartUp) : (s.modSu f).cf = s.cf := rfl
@[simp] theorem State.modSu_basinMode (s : State) (f : StartUp → StartUp) : (s.modSu f).basinMode = s.basinMode := rfl
@[simp] theorem State.modSu_pumps (s : State) (f : StartUp → StartUp) : (s.modSu f).pumps = s.pumps := rfl
@[simp] theorem State.modSu_fronts (s : State) (f : StartUp → StartUp) : (s.modSu f).fronts = s.fronts := rfl
@[simp] theorem State.modSu_invals (s : State) (f : StartUp → StartUp) : (s.modSu f).invals = s.invals := rfl
@[simp] theorem State.modSu_asidBase (s : State) (f : StartUp → StartUp) : (s.modSu f).asidBase = s.asidBase := rfl
@[simp] theorem State.modSu_halves (s : State) (f : StartUp → StartUp) : (s.modSu f).halves = s.halves := rfl
@[simp] theorem State.modSu_lines (s : State) (f : StartUp → StartUp) : (s.modSu f).lines = s.lines := rfl
@[simp] theorem State.modSu_cErr (s : State) (f : StartUp → StartUp) : (s.modSu f).cErr = s.cErr := rfl
@[simp] theorem State.modSu_cTagErr (s : State) (f : StartUp → StartUp) : (s.modSu f).cTagErr = s.cTagErr := rfl
@[simp] theorem State.modSu_poison (s : State) (f : StartUp → StartUp) : (s.modSu f).poison = s.poison := rfl
@[simp] theorem State.modSu_stErr (s : State) (f : StartUp → StartUp) : (s.modSu f).stErr = s.stErr := rfl
@[simp] theorem State.modSu_stks (s : State) (f : StartUp → StartUp) : (s.modSu f).stks = s.stks := rfl
@[simp] theorem State.modSu_stackMask (s : State) (f : StartUp → StartUp) : (s.modSu f).stackMask = s.stackMask := rfl
@[simp] theorem State.modSu_weirs (s : State) (f : StartUp → StartUp) : (s.modSu f).weirs = s.weirs := rfl
@[simp] theorem State.modSu_weirRr (s : State) (f : StartUp → StartUp) : (s.modSu f).weirRr = s.weirRr := rfl
@[simp] theorem State.modSu_prot (s : State) (f : StartUp → StartUp) : (s.modSu f).prot = s.prot := rfl
@[simp] theorem State.modSu_capturing (s : State) (f : StartUp → StartUp) : (s.modSu f).capturing = s.capturing := rfl
@[simp] theorem State.modSu_devValid (s : State) (f : StartUp → StartUp) : (s.modSu f).devValid = s.devValid := rfl
@[simp] theorem State.modSu_devId (s : State) (f : StartUp → StartUp) : (s.modSu f).devId = s.devId := rfl
@[simp] theorem State.modSu_events (s : State) (f : StartUp → StartUp) : (s.modSu f).events = s.events := rfl
@[simp] theorem State.modSu_evtSeq (s : State) (f : StartUp → StartUp) : (s.modSu f).evtSeq = s.evtSeq := rfl
@[simp] theorem State.modSu_evtLost (s : State) (f : StartUp → StartUp) : (s.modSu f).evtLost = s.evtLost := rfl
@[simp] theorem State.modSu_evtFirstLost (s : State) (f : StartUp → StartUp) : (s.modSu f).evtFirstLost = s.evtFirstLost := rfl
@[simp] theorem State.modSu_jobs (s : State) (f : StartUp → StartUp) : (s.modSu f).jobs = s.jobs := rfl
@[simp] theorem State.modSu_wellJob (s : State) (f : StartUp → StartUp) : (s.modSu f).wellJob = s.wellJob := rfl
@[simp] theorem State.modSu_counters (s : State) (f : StartUp → StartUp) : (s.modSu f).counters = s.counters := rfl
@[simp] theorem State.modSu_inflight (s : State) (f : StartUp → StartUp) : (s.modSu f).inflight = s.inflight := rfl
@[simp] theorem State.modSu_sync (s : State) (f : StartUp → StartUp) : (s.modSu f).sync = s.sync := rfl
@[simp] theorem State.modSu_hw (s : State) (f : StartUp → StartUp) : (s.modSu f).hw = s.hw := rfl
@[simp] theorem State.modSu_by_ (s : State) (f : StartUp → StartUp) : (s.modSu f).by_ = s.by_ := rfl
@[simp] theorem State.modSu_bf (s : State) (f : StartUp → StartUp) : (s.modSu f).bf = s.bf := rfl
@[simp] theorem State.modSu_pw (s : State) (f : StartUp → StartUp) : (s.modSu f).pw = s.pw := rfl
@[simp] theorem State.modSu_bmc (s : State) (f : StartUp → StartUp) : (s.modSu f).bmc = s.bmc := rfl
@[simp] theorem State.modSu_jtag (s : State) (f : StartUp → StartUp) : (s.modSu f).jtag = s.jtag := rfl
@[simp] theorem State.modSu_wh (s : State) (f : StartUp → StartUp) : (s.modSu f).wh = s.wh := rfl

/-! modStg -/

@[simp] theorem State.modStg_pending (s : State) (f : Stage → Stage) : (s.modStg f).pending = s.pending := rfl
@[simp] theorem State.modStg_free (s : State) (f : Stage → Stage) : (s.modStg f).free = s.free := rfl
@[simp] theorem State.modStg_mem (s : State) (f : Stage → Stage) : (s.modStg f).mem = s.mem := rfl
@[simp] theorem State.modStg_ue (s : State) (f : Stage → Stage) : (s.modStg f).ue = s.ue := rfl
@[simp] theorem State.modStg_ce (s : State) (f : Stage → Stage) : (s.modStg f).ce = s.ce := rfl
@[simp] theorem State.modStg_wells (s : State) (f : Stage → Stage) : (s.modStg f).wells = s.wells := rfl
@[simp] theorem State.modStg_domainOn (s : State) (f : Stage → Stage) : (s.modStg f).domainOn = s.domainOn := rfl
@[simp] theorem State.modStg_reports (s : State) (f : Stage → Stage) : (s.modStg f).reports = s.reports := rfl
@[simp] theorem State.modStg_far (s : State) (f : Stage → Stage) : (s.modStg f).far = s.far := rfl
@[simp] theorem State.modStg_cf (s : State) (f : Stage → Stage) : (s.modStg f).cf = s.cf := rfl
@[simp] theorem State.modStg_basinMode (s : State) (f : Stage → Stage) : (s.modStg f).basinMode = s.basinMode := rfl
@[simp] theorem State.modStg_pumps (s : State) (f : Stage → Stage) : (s.modStg f).pumps = s.pumps := rfl
@[simp] theorem State.modStg_fronts (s : State) (f : Stage → Stage) : (s.modStg f).fronts = s.fronts := rfl
@[simp] theorem State.modStg_invals (s : State) (f : Stage → Stage) : (s.modStg f).invals = s.invals := rfl
@[simp] theorem State.modStg_asidBase (s : State) (f : Stage → Stage) : (s.modStg f).asidBase = s.asidBase := rfl
@[simp] theorem State.modStg_halves (s : State) (f : Stage → Stage) : (s.modStg f).halves = s.halves := rfl
@[simp] theorem State.modStg_lines (s : State) (f : Stage → Stage) : (s.modStg f).lines = s.lines := rfl
@[simp] theorem State.modStg_cErr (s : State) (f : Stage → Stage) : (s.modStg f).cErr = s.cErr := rfl
@[simp] theorem State.modStg_cTagErr (s : State) (f : Stage → Stage) : (s.modStg f).cTagErr = s.cTagErr := rfl
@[simp] theorem State.modStg_poison (s : State) (f : Stage → Stage) : (s.modStg f).poison = s.poison := rfl
@[simp] theorem State.modStg_stErr (s : State) (f : Stage → Stage) : (s.modStg f).stErr = s.stErr := rfl
@[simp] theorem State.modStg_stks (s : State) (f : Stage → Stage) : (s.modStg f).stks = s.stks := rfl
@[simp] theorem State.modStg_stackMask (s : State) (f : Stage → Stage) : (s.modStg f).stackMask = s.stackMask := rfl
@[simp] theorem State.modStg_weirs (s : State) (f : Stage → Stage) : (s.modStg f).weirs = s.weirs := rfl
@[simp] theorem State.modStg_weirRr (s : State) (f : Stage → Stage) : (s.modStg f).weirRr = s.weirRr := rfl
@[simp] theorem State.modStg_prot (s : State) (f : Stage → Stage) : (s.modStg f).prot = s.prot := rfl
@[simp] theorem State.modStg_capturing (s : State) (f : Stage → Stage) : (s.modStg f).capturing = s.capturing := rfl
@[simp] theorem State.modStg_devValid (s : State) (f : Stage → Stage) : (s.modStg f).devValid = s.devValid := rfl
@[simp] theorem State.modStg_devId (s : State) (f : Stage → Stage) : (s.modStg f).devId = s.devId := rfl
@[simp] theorem State.modStg_events (s : State) (f : Stage → Stage) : (s.modStg f).events = s.events := rfl
@[simp] theorem State.modStg_evtSeq (s : State) (f : Stage → Stage) : (s.modStg f).evtSeq = s.evtSeq := rfl
@[simp] theorem State.modStg_evtLost (s : State) (f : Stage → Stage) : (s.modStg f).evtLost = s.evtLost := rfl
@[simp] theorem State.modStg_evtFirstLost (s : State) (f : Stage → Stage) : (s.modStg f).evtFirstLost = s.evtFirstLost := rfl
@[simp] theorem State.modStg_jobs (s : State) (f : Stage → Stage) : (s.modStg f).jobs = s.jobs := rfl
@[simp] theorem State.modStg_wellJob (s : State) (f : Stage → Stage) : (s.modStg f).wellJob = s.wellJob := rfl
@[simp] theorem State.modStg_counters (s : State) (f : Stage → Stage) : (s.modStg f).counters = s.counters := rfl
@[simp] theorem State.modStg_inflight (s : State) (f : Stage → Stage) : (s.modStg f).inflight = s.inflight := rfl
@[simp] theorem State.modStg_sync (s : State) (f : Stage → Stage) : (s.modStg f).sync = s.sync := rfl
@[simp] theorem State.modStg_hw (s : State) (f : Stage → Stage) : (s.modStg f).hw = s.hw := rfl
@[simp] theorem State.modStg_by_ (s : State) (f : Stage → Stage) : (s.modStg f).by_ = s.by_ := rfl
@[simp] theorem State.modStg_bf (s : State) (f : Stage → Stage) : (s.modStg f).bf = s.bf := rfl
@[simp] theorem State.modStg_pw (s : State) (f : Stage → Stage) : (s.modStg f).pw = s.pw := rfl
@[simp] theorem State.modStg_bmc (s : State) (f : Stage → Stage) : (s.modStg f).bmc = s.bmc := rfl
@[simp] theorem State.modStg_jtag (s : State) (f : Stage → Stage) : (s.modStg f).jtag = s.jtag := rfl
@[simp] theorem State.modStg_wh (s : State) (f : Stage → Stage) : (s.modStg f).wh = s.wh := rfl
@[simp] theorem State.modStg_su (s : State) (f : Stage → Stage) : (s.modStg f).su = s.su := rfl

/-! modJob -/

@[simp] theorem State.modJob_pending (s : State) (k : Fin 32) (f : Job → Job) : (s.modJob k f).pending = s.pending := rfl
@[simp] theorem State.modJob_free (s : State) (k : Fin 32) (f : Job → Job) : (s.modJob k f).free = s.free := rfl
@[simp] theorem State.modJob_mem (s : State) (k : Fin 32) (f : Job → Job) : (s.modJob k f).mem = s.mem := rfl
@[simp] theorem State.modJob_ue (s : State) (k : Fin 32) (f : Job → Job) : (s.modJob k f).ue = s.ue := rfl
@[simp] theorem State.modJob_ce (s : State) (k : Fin 32) (f : Job → Job) : (s.modJob k f).ce = s.ce := rfl
@[simp] theorem State.modJob_wells (s : State) (k : Fin 32) (f : Job → Job) : (s.modJob k f).wells = s.wells := rfl
@[simp] theorem State.modJob_domainOn (s : State) (k : Fin 32) (f : Job → Job) : (s.modJob k f).domainOn = s.domainOn := rfl
@[simp] theorem State.modJob_reports (s : State) (k : Fin 32) (f : Job → Job) : (s.modJob k f).reports = s.reports := rfl
@[simp] theorem State.modJob_stg (s : State) (k : Fin 32) (f : Job → Job) : (s.modJob k f).stg = s.stg := rfl
@[simp] theorem State.modJob_far (s : State) (k : Fin 32) (f : Job → Job) : (s.modJob k f).far = s.far := rfl
@[simp] theorem State.modJob_cf (s : State) (k : Fin 32) (f : Job → Job) : (s.modJob k f).cf = s.cf := rfl
@[simp] theorem State.modJob_basinMode (s : State) (k : Fin 32) (f : Job → Job) : (s.modJob k f).basinMode = s.basinMode := rfl
@[simp] theorem State.modJob_pumps (s : State) (k : Fin 32) (f : Job → Job) : (s.modJob k f).pumps = s.pumps := rfl
@[simp] theorem State.modJob_fronts (s : State) (k : Fin 32) (f : Job → Job) : (s.modJob k f).fronts = s.fronts := rfl
@[simp] theorem State.modJob_invals (s : State) (k : Fin 32) (f : Job → Job) : (s.modJob k f).invals = s.invals := rfl
@[simp] theorem State.modJob_asidBase (s : State) (k : Fin 32) (f : Job → Job) : (s.modJob k f).asidBase = s.asidBase := rfl
@[simp] theorem State.modJob_halves (s : State) (k : Fin 32) (f : Job → Job) : (s.modJob k f).halves = s.halves := rfl
@[simp] theorem State.modJob_lines (s : State) (k : Fin 32) (f : Job → Job) : (s.modJob k f).lines = s.lines := rfl
@[simp] theorem State.modJob_cErr (s : State) (k : Fin 32) (f : Job → Job) : (s.modJob k f).cErr = s.cErr := rfl
@[simp] theorem State.modJob_cTagErr (s : State) (k : Fin 32) (f : Job → Job) : (s.modJob k f).cTagErr = s.cTagErr := rfl
@[simp] theorem State.modJob_poison (s : State) (k : Fin 32) (f : Job → Job) : (s.modJob k f).poison = s.poison := rfl
@[simp] theorem State.modJob_stErr (s : State) (k : Fin 32) (f : Job → Job) : (s.modJob k f).stErr = s.stErr := rfl
@[simp] theorem State.modJob_stks (s : State) (k : Fin 32) (f : Job → Job) : (s.modJob k f).stks = s.stks := rfl
@[simp] theorem State.modJob_stackMask (s : State) (k : Fin 32) (f : Job → Job) : (s.modJob k f).stackMask = s.stackMask := rfl
@[simp] theorem State.modJob_weirs (s : State) (k : Fin 32) (f : Job → Job) : (s.modJob k f).weirs = s.weirs := rfl
@[simp] theorem State.modJob_weirRr (s : State) (k : Fin 32) (f : Job → Job) : (s.modJob k f).weirRr = s.weirRr := rfl
@[simp] theorem State.modJob_prot (s : State) (k : Fin 32) (f : Job → Job) : (s.modJob k f).prot = s.prot := rfl
@[simp] theorem State.modJob_capturing (s : State) (k : Fin 32) (f : Job → Job) : (s.modJob k f).capturing = s.capturing := rfl
@[simp] theorem State.modJob_devValid (s : State) (k : Fin 32) (f : Job → Job) : (s.modJob k f).devValid = s.devValid := rfl
@[simp] theorem State.modJob_devId (s : State) (k : Fin 32) (f : Job → Job) : (s.modJob k f).devId = s.devId := rfl
@[simp] theorem State.modJob_events (s : State) (k : Fin 32) (f : Job → Job) : (s.modJob k f).events = s.events := rfl
@[simp] theorem State.modJob_evtSeq (s : State) (k : Fin 32) (f : Job → Job) : (s.modJob k f).evtSeq = s.evtSeq := rfl
@[simp] theorem State.modJob_evtLost (s : State) (k : Fin 32) (f : Job → Job) : (s.modJob k f).evtLost = s.evtLost := rfl
@[simp] theorem State.modJob_evtFirstLost (s : State) (k : Fin 32) (f : Job → Job) : (s.modJob k f).evtFirstLost = s.evtFirstLost := rfl
@[simp] theorem State.modJob_wellJob (s : State) (k : Fin 32) (f : Job → Job) : (s.modJob k f).wellJob = s.wellJob := rfl
@[simp] theorem State.modJob_counters (s : State) (k : Fin 32) (f : Job → Job) : (s.modJob k f).counters = s.counters := rfl
@[simp] theorem State.modJob_inflight (s : State) (k : Fin 32) (f : Job → Job) : (s.modJob k f).inflight = s.inflight := rfl
@[simp] theorem State.modJob_sync (s : State) (k : Fin 32) (f : Job → Job) : (s.modJob k f).sync = s.sync := rfl
@[simp] theorem State.modJob_hw (s : State) (k : Fin 32) (f : Job → Job) : (s.modJob k f).hw = s.hw := rfl
@[simp] theorem State.modJob_by_ (s : State) (k : Fin 32) (f : Job → Job) : (s.modJob k f).by_ = s.by_ := rfl
@[simp] theorem State.modJob_bf (s : State) (k : Fin 32) (f : Job → Job) : (s.modJob k f).bf = s.bf := rfl
@[simp] theorem State.modJob_pw (s : State) (k : Fin 32) (f : Job → Job) : (s.modJob k f).pw = s.pw := rfl
@[simp] theorem State.modJob_bmc (s : State) (k : Fin 32) (f : Job → Job) : (s.modJob k f).bmc = s.bmc := rfl
@[simp] theorem State.modJob_jtag (s : State) (k : Fin 32) (f : Job → Job) : (s.modJob k f).jtag = s.jtag := rfl
@[simp] theorem State.modJob_wh (s : State) (k : Fin 32) (f : Job → Job) : (s.modJob k f).wh = s.wh := rfl
@[simp] theorem State.modJob_su (s : State) (k : Fin 32) (f : Job → Job) : (s.modJob k f).su = s.su := rfl

/-! modFront -/

@[simp] theorem State.modFront_pending (s : State) (x : FrontId) (f : Front → Front) : (s.modFront x f).pending = s.pending := rfl
@[simp] theorem State.modFront_free (s : State) (x : FrontId) (f : Front → Front) : (s.modFront x f).free = s.free := rfl
@[simp] theorem State.modFront_mem (s : State) (x : FrontId) (f : Front → Front) : (s.modFront x f).mem = s.mem := rfl
@[simp] theorem State.modFront_ue (s : State) (x : FrontId) (f : Front → Front) : (s.modFront x f).ue = s.ue := rfl
@[simp] theorem State.modFront_ce (s : State) (x : FrontId) (f : Front → Front) : (s.modFront x f).ce = s.ce := rfl
@[simp] theorem State.modFront_wells (s : State) (x : FrontId) (f : Front → Front) : (s.modFront x f).wells = s.wells := rfl
@[simp] theorem State.modFront_domainOn (s : State) (x : FrontId) (f : Front → Front) : (s.modFront x f).domainOn = s.domainOn := rfl
@[simp] theorem State.modFront_reports (s : State) (x : FrontId) (f : Front → Front) : (s.modFront x f).reports = s.reports := rfl
@[simp] theorem State.modFront_stg (s : State) (x : FrontId) (f : Front → Front) : (s.modFront x f).stg = s.stg := rfl
@[simp] theorem State.modFront_far (s : State) (x : FrontId) (f : Front → Front) : (s.modFront x f).far = s.far := rfl
@[simp] theorem State.modFront_cf (s : State) (x : FrontId) (f : Front → Front) : (s.modFront x f).cf = s.cf := rfl
@[simp] theorem State.modFront_basinMode (s : State) (x : FrontId) (f : Front → Front) : (s.modFront x f).basinMode = s.basinMode := rfl
@[simp] theorem State.modFront_pumps (s : State) (x : FrontId) (f : Front → Front) : (s.modFront x f).pumps = s.pumps := rfl
@[simp] theorem State.modFront_invals (s : State) (x : FrontId) (f : Front → Front) : (s.modFront x f).invals = s.invals := rfl
@[simp] theorem State.modFront_asidBase (s : State) (x : FrontId) (f : Front → Front) : (s.modFront x f).asidBase = s.asidBase := rfl
@[simp] theorem State.modFront_halves (s : State) (x : FrontId) (f : Front → Front) : (s.modFront x f).halves = s.halves := rfl
@[simp] theorem State.modFront_lines (s : State) (x : FrontId) (f : Front → Front) : (s.modFront x f).lines = s.lines := rfl
@[simp] theorem State.modFront_cErr (s : State) (x : FrontId) (f : Front → Front) : (s.modFront x f).cErr = s.cErr := rfl
@[simp] theorem State.modFront_cTagErr (s : State) (x : FrontId) (f : Front → Front) : (s.modFront x f).cTagErr = s.cTagErr := rfl
@[simp] theorem State.modFront_poison (s : State) (x : FrontId) (f : Front → Front) : (s.modFront x f).poison = s.poison := rfl
@[simp] theorem State.modFront_stErr (s : State) (x : FrontId) (f : Front → Front) : (s.modFront x f).stErr = s.stErr := rfl
@[simp] theorem State.modFront_stks (s : State) (x : FrontId) (f : Front → Front) : (s.modFront x f).stks = s.stks := rfl
@[simp] theorem State.modFront_stackMask (s : State) (x : FrontId) (f : Front → Front) : (s.modFront x f).stackMask = s.stackMask := rfl
@[simp] theorem State.modFront_weirs (s : State) (x : FrontId) (f : Front → Front) : (s.modFront x f).weirs = s.weirs := rfl
@[simp] theorem State.modFront_weirRr (s : State) (x : FrontId) (f : Front → Front) : (s.modFront x f).weirRr = s.weirRr := rfl
@[simp] theorem State.modFront_prot (s : State) (x : FrontId) (f : Front → Front) : (s.modFront x f).prot = s.prot := rfl
@[simp] theorem State.modFront_capturing (s : State) (x : FrontId) (f : Front → Front) : (s.modFront x f).capturing = s.capturing := rfl
@[simp] theorem State.modFront_devValid (s : State) (x : FrontId) (f : Front → Front) : (s.modFront x f).devValid = s.devValid := rfl
@[simp] theorem State.modFront_devId (s : State) (x : FrontId) (f : Front → Front) : (s.modFront x f).devId = s.devId := rfl
@[simp] theorem State.modFront_events (s : State) (x : FrontId) (f : Front → Front) : (s.modFront x f).events = s.events := rfl
@[simp] theorem State.modFront_evtSeq (s : State) (x : FrontId) (f : Front → Front) : (s.modFront x f).evtSeq = s.evtSeq := rfl
@[simp] theorem State.modFront_evtLost (s : State) (x : FrontId) (f : Front → Front) : (s.modFront x f).evtLost = s.evtLost := rfl
@[simp] theorem State.modFront_evtFirstLost (s : State) (x : FrontId) (f : Front → Front) : (s.modFront x f).evtFirstLost = s.evtFirstLost := rfl
@[simp] theorem State.modFront_jobs (s : State) (x : FrontId) (f : Front → Front) : (s.modFront x f).jobs = s.jobs := rfl
@[simp] theorem State.modFront_wellJob (s : State) (x : FrontId) (f : Front → Front) : (s.modFront x f).wellJob = s.wellJob := rfl
@[simp] theorem State.modFront_counters (s : State) (x : FrontId) (f : Front → Front) : (s.modFront x f).counters = s.counters := rfl
@[simp] theorem State.modFront_inflight (s : State) (x : FrontId) (f : Front → Front) : (s.modFront x f).inflight = s.inflight := rfl
@[simp] theorem State.modFront_sync (s : State) (x : FrontId) (f : Front → Front) : (s.modFront x f).sync = s.sync := rfl
@[simp] theorem State.modFront_hw (s : State) (x : FrontId) (f : Front → Front) : (s.modFront x f).hw = s.hw := rfl
@[simp] theorem State.modFront_by_ (s : State) (x : FrontId) (f : Front → Front) : (s.modFront x f).by_ = s.by_ := rfl
@[simp] theorem State.modFront_bf (s : State) (x : FrontId) (f : Front → Front) : (s.modFront x f).bf = s.bf := rfl
@[simp] theorem State.modFront_pw (s : State) (x : FrontId) (f : Front → Front) : (s.modFront x f).pw = s.pw := rfl
@[simp] theorem State.modFront_bmc (s : State) (x : FrontId) (f : Front → Front) : (s.modFront x f).bmc = s.bmc := rfl
@[simp] theorem State.modFront_jtag (s : State) (x : FrontId) (f : Front → Front) : (s.modFront x f).jtag = s.jtag := rfl
@[simp] theorem State.modFront_wh (s : State) (x : FrontId) (f : Front → Front) : (s.modFront x f).wh = s.wh := rfl
@[simp] theorem State.modFront_su (s : State) (x : FrontId) (f : Front → Front) : (s.modFront x f).su = s.su := rfl

/-! modPump -/

@[simp] theorem State.modPump_pending (s : State) (p : PumpId) (f : Pump → Pump) : (s.modPump p f).pending = s.pending := rfl
@[simp] theorem State.modPump_free (s : State) (p : PumpId) (f : Pump → Pump) : (s.modPump p f).free = s.free := rfl
@[simp] theorem State.modPump_mem (s : State) (p : PumpId) (f : Pump → Pump) : (s.modPump p f).mem = s.mem := rfl
@[simp] theorem State.modPump_ue (s : State) (p : PumpId) (f : Pump → Pump) : (s.modPump p f).ue = s.ue := rfl
@[simp] theorem State.modPump_ce (s : State) (p : PumpId) (f : Pump → Pump) : (s.modPump p f).ce = s.ce := rfl
@[simp] theorem State.modPump_wells (s : State) (p : PumpId) (f : Pump → Pump) : (s.modPump p f).wells = s.wells := rfl
@[simp] theorem State.modPump_domainOn (s : State) (p : PumpId) (f : Pump → Pump) : (s.modPump p f).domainOn = s.domainOn := rfl
@[simp] theorem State.modPump_reports (s : State) (p : PumpId) (f : Pump → Pump) : (s.modPump p f).reports = s.reports := rfl
@[simp] theorem State.modPump_stg (s : State) (p : PumpId) (f : Pump → Pump) : (s.modPump p f).stg = s.stg := rfl
@[simp] theorem State.modPump_far (s : State) (p : PumpId) (f : Pump → Pump) : (s.modPump p f).far = s.far := rfl
@[simp] theorem State.modPump_cf (s : State) (p : PumpId) (f : Pump → Pump) : (s.modPump p f).cf = s.cf := rfl
@[simp] theorem State.modPump_basinMode (s : State) (p : PumpId) (f : Pump → Pump) : (s.modPump p f).basinMode = s.basinMode := rfl
@[simp] theorem State.modPump_fronts (s : State) (p : PumpId) (f : Pump → Pump) : (s.modPump p f).fronts = s.fronts := rfl
@[simp] theorem State.modPump_invals (s : State) (p : PumpId) (f : Pump → Pump) : (s.modPump p f).invals = s.invals := rfl
@[simp] theorem State.modPump_asidBase (s : State) (p : PumpId) (f : Pump → Pump) : (s.modPump p f).asidBase = s.asidBase := rfl
@[simp] theorem State.modPump_halves (s : State) (p : PumpId) (f : Pump → Pump) : (s.modPump p f).halves = s.halves := rfl
@[simp] theorem State.modPump_lines (s : State) (p : PumpId) (f : Pump → Pump) : (s.modPump p f).lines = s.lines := rfl
@[simp] theorem State.modPump_cErr (s : State) (p : PumpId) (f : Pump → Pump) : (s.modPump p f).cErr = s.cErr := rfl
@[simp] theorem State.modPump_cTagErr (s : State) (p : PumpId) (f : Pump → Pump) : (s.modPump p f).cTagErr = s.cTagErr := rfl
@[simp] theorem State.modPump_poison (s : State) (p : PumpId) (f : Pump → Pump) : (s.modPump p f).poison = s.poison := rfl
@[simp] theorem State.modPump_stErr (s : State) (p : PumpId) (f : Pump → Pump) : (s.modPump p f).stErr = s.stErr := rfl
@[simp] theorem State.modPump_stks (s : State) (p : PumpId) (f : Pump → Pump) : (s.modPump p f).stks = s.stks := rfl
@[simp] theorem State.modPump_stackMask (s : State) (p : PumpId) (f : Pump → Pump) : (s.modPump p f).stackMask = s.stackMask := rfl
@[simp] theorem State.modPump_weirs (s : State) (p : PumpId) (f : Pump → Pump) : (s.modPump p f).weirs = s.weirs := rfl
@[simp] theorem State.modPump_weirRr (s : State) (p : PumpId) (f : Pump → Pump) : (s.modPump p f).weirRr = s.weirRr := rfl
@[simp] theorem State.modPump_prot (s : State) (p : PumpId) (f : Pump → Pump) : (s.modPump p f).prot = s.prot := rfl
@[simp] theorem State.modPump_capturing (s : State) (p : PumpId) (f : Pump → Pump) : (s.modPump p f).capturing = s.capturing := rfl
@[simp] theorem State.modPump_devValid (s : State) (p : PumpId) (f : Pump → Pump) : (s.modPump p f).devValid = s.devValid := rfl
@[simp] theorem State.modPump_devId (s : State) (p : PumpId) (f : Pump → Pump) : (s.modPump p f).devId = s.devId := rfl
@[simp] theorem State.modPump_events (s : State) (p : PumpId) (f : Pump → Pump) : (s.modPump p f).events = s.events := rfl
@[simp] theorem State.modPump_evtSeq (s : State) (p : PumpId) (f : Pump → Pump) : (s.modPump p f).evtSeq = s.evtSeq := rfl
@[simp] theorem State.modPump_evtLost (s : State) (p : PumpId) (f : Pump → Pump) : (s.modPump p f).evtLost = s.evtLost := rfl
@[simp] theorem State.modPump_evtFirstLost (s : State) (p : PumpId) (f : Pump → Pump) : (s.modPump p f).evtFirstLost = s.evtFirstLost := rfl
@[simp] theorem State.modPump_jobs (s : State) (p : PumpId) (f : Pump → Pump) : (s.modPump p f).jobs = s.jobs := rfl
@[simp] theorem State.modPump_wellJob (s : State) (p : PumpId) (f : Pump → Pump) : (s.modPump p f).wellJob = s.wellJob := rfl
@[simp] theorem State.modPump_counters (s : State) (p : PumpId) (f : Pump → Pump) : (s.modPump p f).counters = s.counters := rfl
@[simp] theorem State.modPump_inflight (s : State) (p : PumpId) (f : Pump → Pump) : (s.modPump p f).inflight = s.inflight := rfl
@[simp] theorem State.modPump_sync (s : State) (p : PumpId) (f : Pump → Pump) : (s.modPump p f).sync = s.sync := rfl
@[simp] theorem State.modPump_hw (s : State) (p : PumpId) (f : Pump → Pump) : (s.modPump p f).hw = s.hw := rfl
@[simp] theorem State.modPump_by_ (s : State) (p : PumpId) (f : Pump → Pump) : (s.modPump p f).by_ = s.by_ := rfl
@[simp] theorem State.modPump_bf (s : State) (p : PumpId) (f : Pump → Pump) : (s.modPump p f).bf = s.bf := rfl
@[simp] theorem State.modPump_pw (s : State) (p : PumpId) (f : Pump → Pump) : (s.modPump p f).pw = s.pw := rfl
@[simp] theorem State.modPump_bmc (s : State) (p : PumpId) (f : Pump → Pump) : (s.modPump p f).bmc = s.bmc := rfl
@[simp] theorem State.modPump_jtag (s : State) (p : PumpId) (f : Pump → Pump) : (s.modPump p f).jtag = s.jtag := rfl
@[simp] theorem State.modPump_wh (s : State) (p : PumpId) (f : Pump → Pump) : (s.modPump p f).wh = s.wh := rfl
@[simp] theorem State.modPump_su (s : State) (p : PumpId) (f : Pump → Pump) : (s.modPump p f).su = s.su := rfl

@[simp] theorem State.modFar_self (s : State) (f : Far → Far) : (s.modFar f).far = f s.far := rfl
@[simp] theorem State.modCf_self (s : State) (f : Conf → Conf) : (s.modCf f).cf = f s.cf := rfl
@[simp] theorem State.modHw_self (s : State) (f : Headwater → Headwater) : (s.modHw f).hw = f s.hw := rfl
@[simp] theorem State.modBy_self (s : State) (f : ByLink → ByLink) : (s.modBy f).by_ = f s.by_ := rfl
@[simp] theorem State.modBf_self (s : State) (f : Baseflow → Baseflow) : (s.modBf f).bf = f s.bf := rfl
@[simp] theorem State.modPw_self (s : State) (f : Power → Power) : (s.modPw f).pw = f s.pw := rfl
@[simp] theorem State.modWh_self (s : State) (f : Wellhead → Wellhead) : (s.modWh f).wh = f s.wh := rfl
@[simp] theorem State.modSu_self (s : State) (f : StartUp → StartUp) : (s.modSu f).su = f s.su := rfl
@[simp] theorem State.modStg_self (s : State) (f : Stage → Stage) : (s.modStg f).stg = f s.stg := rfl

/-! One element of a component kept in a vector. -/

@[simp] theorem State.modWell_same (s : State) (w : WellId) (f : Well → Well) : (s.modWell w f).wells[w.val] = f s.wells[w.val] := by simp [State.modWell]
@[simp] theorem State.modWell_other (s : State) (w v : WellId) (f : Well → Well) (h : v ≠ w) : (s.modWell w f).wells[v.val] = s.wells[v.val] := by
  have h' : w.val ≠ v.val := fun e => h (Fin.ext e.symm)
  simp [State.modWell, Vector.getElem_set_ne _ _ h']

@[simp] theorem State.modCpu_same_cpu (s : State) (w : WellId) (f : Windlass → Windlass) : ((s.modCpu w f).wells[w.val]).cpu = f s.wells[w.val].cpu := by simp [State.modCpu]
@[simp] theorem State.modCpu_same_flume (s : State) (w : WellId) (f : Windlass → Windlass) : ((s.modCpu w f).wells[w.val]).flume = s.wells[w.val].flume := by simp [State.modCpu]
@[simp] theorem State.modCpu_same_mr (s : State) (w : WellId) (f : Windlass → Windlass) : ((s.modCpu w f).wells[w.val]).mr = s.wells[w.val].mr := by simp [State.modCpu]
@[simp] theorem State.modCpu_same_st (s : State) (w : WellId) (f : Windlass → Windlass) : ((s.modCpu w f).wells[w.val]).st = s.wells[w.val].st := by simp [State.modCpu]
@[simp] theorem State.modCpu_same_mailOut (s : State) (w : WellId) (f : Windlass → Windlass) : ((s.modCpu w f).wells[w.val]).mailOut = s.wells[w.val].mailOut := by simp [State.modCpu]
@[simp] theorem State.modCpu_same_mailIn (s : State) (w : WellId) (f : Windlass → Windlass) : ((s.modCpu w f).wells[w.val]).mailIn = s.wells[w.val].mailIn := by simp [State.modCpu]
@[simp] theorem State.modCpu_other (s : State) (w v : WellId) (f : Windlass → Windlass) (h : v ≠ w) : (s.modCpu w f).wells[v.val] = s.wells[v.val] := by simp [State.modCpu, h]
@[simp] theorem State.modFlume_same_cpu (s : State) (w : WellId) (f : Flume → Flume) : ((s.modFlume w f).wells[w.val]).cpu = s.wells[w.val].cpu := by simp [State.modFlume]
@[simp] theorem State.modFlume_same_flume (s : State) (w : WellId) (f : Flume → Flume) : ((s.modFlume w f).wells[w.val]).flume = f s.wells[w.val].flume := by simp [State.modFlume]
@[simp] theorem State.modFlume_same_mr (s : State) (w : WellId) (f : Flume → Flume) : ((s.modFlume w f).wells[w.val]).mr = s.wells[w.val].mr := by simp [State.modFlume]
@[simp] theorem State.modFlume_same_st (s : State) (w : WellId) (f : Flume → Flume) : ((s.modFlume w f).wells[w.val]).st = s.wells[w.val].st := by simp [State.modFlume]
@[simp] theorem State.modFlume_same_mailOut (s : State) (w : WellId) (f : Flume → Flume) : ((s.modFlume w f).wells[w.val]).mailOut = s.wells[w.val].mailOut := by simp [State.modFlume]
@[simp] theorem State.modFlume_same_mailIn (s : State) (w : WellId) (f : Flume → Flume) : ((s.modFlume w f).wells[w.val]).mailIn = s.wells[w.val].mailIn := by simp [State.modFlume]
@[simp] theorem State.modFlume_other (s : State) (w v : WellId) (f : Flume → Flume) (h : v ≠ w) : (s.modFlume w f).wells[v.val] = s.wells[v.val] := by simp [State.modFlume, h]
@[simp] theorem State.modMr_same_cpu (s : State) (w : WellId) (f : Millrace → Millrace) : ((s.modMr w f).wells[w.val]).cpu = s.wells[w.val].cpu := by simp [State.modMr]
@[simp] theorem State.modMr_same_flume (s : State) (w : WellId) (f : Millrace → Millrace) : ((s.modMr w f).wells[w.val]).flume = s.wells[w.val].flume := by simp [State.modMr]
@[simp] theorem State.modMr_same_mr (s : State) (w : WellId) (f : Millrace → Millrace) : ((s.modMr w f).wells[w.val]).mr = f s.wells[w.val].mr := by simp [State.modMr]
@[simp] theorem State.modMr_same_st (s : State) (w : WellId) (f : Millrace → Millrace) : ((s.modMr w f).wells[w.val]).st = s.wells[w.val].st := by simp [State.modMr]
@[simp] theorem State.modMr_same_mailOut (s : State) (w : WellId) (f : Millrace → Millrace) : ((s.modMr w f).wells[w.val]).mailOut = s.wells[w.val].mailOut := by simp [State.modMr]
@[simp] theorem State.modMr_same_mailIn (s : State) (w : WellId) (f : Millrace → Millrace) : ((s.modMr w f).wells[w.val]).mailIn = s.wells[w.val].mailIn := by simp [State.modMr]
@[simp] theorem State.modMr_other (s : State) (w v : WellId) (f : Millrace → Millrace) (h : v ≠ w) : (s.modMr w f).wells[v.val] = s.wells[v.val] := by simp [State.modMr, h]
@[simp] theorem State.modSt_same_cpu (s : State) (w : WellId) (f : Stores → Stores) : ((s.modSt w f).wells[w.val]).cpu = s.wells[w.val].cpu := by simp [State.modSt]
@[simp] theorem State.modSt_same_flume (s : State) (w : WellId) (f : Stores → Stores) : ((s.modSt w f).wells[w.val]).flume = s.wells[w.val].flume := by simp [State.modSt]
@[simp] theorem State.modSt_same_mr (s : State) (w : WellId) (f : Stores → Stores) : ((s.modSt w f).wells[w.val]).mr = s.wells[w.val].mr := by simp [State.modSt]
@[simp] theorem State.modSt_same_st (s : State) (w : WellId) (f : Stores → Stores) : ((s.modSt w f).wells[w.val]).st = f s.wells[w.val].st := by simp [State.modSt]
@[simp] theorem State.modSt_same_mailOut (s : State) (w : WellId) (f : Stores → Stores) : ((s.modSt w f).wells[w.val]).mailOut = s.wells[w.val].mailOut := by simp [State.modSt]
@[simp] theorem State.modSt_same_mailIn (s : State) (w : WellId) (f : Stores → Stores) : ((s.modSt w f).wells[w.val]).mailIn = s.wells[w.val].mailIn := by simp [State.modSt]
@[simp] theorem State.modSt_other (s : State) (w v : WellId) (f : Stores → Stores) (h : v ≠ w) : (s.modSt w f).wells[v.val] = s.wells[v.val] := by simp [State.modSt, h]
@[simp] theorem State.modCpu_cpu (s : State) (w : WellId) (f : Windlass → Windlass) : (s.modCpu w f).cpu w = f (s.cpu w) := by simp [State.cpu]
@[simp] theorem State.modFlume_cpu (s : State) (w : WellId) (f : Flume → Flume) : (s.modFlume w f).cpu w = s.cpu w := by simp [State.cpu]
@[simp] theorem State.modMr_cpu (s : State) (w : WellId) (f : Millrace → Millrace) : (s.modMr w f).cpu w = s.cpu w := by simp [State.cpu]
@[simp] theorem State.modSt_cpu (s : State) (w : WellId) (f : Stores → Stores) : (s.modSt w f).cpu w = s.cpu w := by simp [State.cpu]
@[simp] theorem State.modHalf_same (s : State) (h : HalfId) (f : CisternHalf → CisternHalf) : (s.modHalf h f).halves[h.val] = f s.halves[h.val] := by simp [State.modHalf]
theorem State.modHalf_other (s : State) (h : HalfId) (f : CisternHalf → CisternHalf) (j : HalfId) (hj : j ≠ h) : (s.modHalf h f).halves[j.val] = s.halves[j.val] := by
  have h' : h.val ≠ j.val := fun e => hj (Fin.ext e.symm)
  simp [State.modHalf, Vector.getElem_set_ne _ _ h']
@[simp] theorem State.modStack_same (s : State) (n : StackId) (f : StackCtl → StackCtl) : (s.modStack n f).stks[n.val] = f s.stks[n.val] := by simp [State.modStack]
theorem State.modStack_other (s : State) (n : StackId) (f : StackCtl → StackCtl) (j : StackId) (hj : j ≠ n) : (s.modStack n f).stks[j.val] = s.stks[j.val] := by
  have h' : n.val ≠ j.val := fun e => hj (Fin.ext e.symm)
  simp [State.modStack, Vector.getElem_set_ne _ _ h']
@[simp] theorem State.modJob_same (s : State) (k : Fin 32) (f : Job → Job) : (s.modJob k f).jobs[k.val] = f s.jobs[k.val] := by simp [State.modJob]
theorem State.modJob_other (s : State) (k : Fin 32) (f : Job → Job) (j : Fin 32) (hj : j ≠ k) : (s.modJob k f).jobs[j.val] = s.jobs[j.val] := by
  have h' : k.val ≠ j.val := fun e => hj (Fin.ext e.symm)
  simp [State.modJob, Vector.getElem_set_ne _ _ h']
@[simp] theorem State.modFront_same (s : State) (x : FrontId) (f : Front → Front) : (s.modFront x f).fronts[x.val] = f s.fronts[x.val] := by simp [State.modFront]
theorem State.modFront_other (s : State) (x : FrontId) (f : Front → Front) (j : FrontId) (hj : j ≠ x) : (s.modFront x f).fronts[j.val] = s.fronts[j.val] := by
  have h' : x.val ≠ j.val := fun e => hj (Fin.ext e.symm)
  simp [State.modFront, Vector.getElem_set_ne _ _ h']
@[simp] theorem State.modPump_same (s : State) (p : PumpId) (f : Pump → Pump) : (s.modPump p f).pumps[p.val] = f s.pumps[p.val] := by simp [State.modPump]
theorem State.modPump_other (s : State) (p : PumpId) (f : Pump → Pump) (j : PumpId) (hj : j ≠ p) : (s.modPump p f).pumps[j.val] = s.pumps[j.val] := by
  have h' : p.val ≠ j.val := fun e => hj (Fin.ext e.symm)
  simp [State.modPump, Vector.getElem_set_ne _ _ h']
@[simp] theorem State.modLink_same (s : State) (l : LinkId) (f : Link → Link) : (s.modLink l f).far.links[l.val] = f s.far.links[l.val] := by simp [State.modLink]
@[simp] theorem State.modGroup_same (s : State) (g : Fin 64) (f : Group → Group) : (s.modGroup g f).far.groups[g.val] = f s.far.groups[g.val] := by simp [State.modGroup]
@[simp] theorem State.modEng_same (s : State) (e : EngineId) (f : Engine → Engine) : (s.modEng e f).cf.engines[e.val] = f s.cf.engines[e.val] := by simp [State.modEng]

end Sys2Proof.Machine
end

