-- ==== Sys2Proof/Laws/Issue.lean ====
section
/-! SUPPORT. What issuing one instruction does when nothing stands in its way. -/

namespace Sys2Proof.Machine

/-- The parts of `ready`. -/
theorem ready_parts {w : WellId} {s : State} (h : ready w s = true) :
    canIssue w s = true ∧ (s.cpu w).deferred = [] ∧ (s.cpu w).loads = [] ∧ (s.cpu w).modeWins = [] ∧ (s.cpu w).skipNext = false ∧
      (s.cpu w).fetchFault = none ∧ (s.cpu w).badRegs = [] ∧ (s.cpu w).getPend = [] ∧ s.wells[w].flume.window = [] ∧
      (s.cpu w).lineBad = false := by
  simp only [ready, Bool.and_eq_true, List.isEmpty_iff, Bool.not_eq_true', Option.isNone_iff_eq_none] at h
  obtain ⟨⟨⟨⟨⟨⟨⟨⟨⟨h1, h2⟩, h3⟩, h4⟩, h5⟩, h6⟩, h7⟩, h8⟩, hl⟩, h9⟩ := h
  exact ⟨h1, h2, h3, h4, h5, h6, h7, h8, h9, hl⟩

/-- Writing back what a well holds changes nothing. -/
theorem State.modCpu_of_eq {s : State} {w : WellId} {f : Windlass → Windlass} (h : f (s.cpu w) = s.cpu w) : s.modCpu w f = s := by
  have h' : ({ s.wells[w] with cpu := f s.wells[w].cpu } : Well) = s.wells[w] := by
    have : f s.wells[w].cpu = s.wells[w].cpu := h
    rw [this]
  show { s with wells := s.wells.set w { s.wells[w] with cpu := f s.wells[w].cpu } } = s
  rw [h']
  simp

/-- The same of a whole well. -/
theorem State.modWell_of_eq {s : State} {w : WellId} {f : Well → Well} (h : f s.wells[w.val] = s.wells[w.val]) : s.modWell w f = s := by
  show { s with wells := s.wells.set w (f s.wells[w.val]) } = s
  rw [h]
  simp

/-- Two changes of one Windlass are one. -/
theorem State.modCpu_modCpu (s : State) (w : WellId) (f g : Windlass → Windlass) : (s.modCpu w f).modCpu w g = s.modCpu w (fun c => g (f c)) := by
  simp [State.modCpu, State.modWell]

/-- Two changes that agree on what the well holds are the same change. -/
theorem State.modCpu_congr {s : State} {w : WellId} {f g : Windlass → Windlass} (h : f (s.cpu w) = g (s.cpu w)) : s.modCpu w f = s.modCpu w g := by
  have h' : f s.wells[w.val].cpu = g s.wells[w.val].cpu := h
  simp [State.modCpu, State.modWell, h']

theorem Windlass.closeDue_of_empty {c : Windlass} (h : c.loads = []) : c.closeDue = c := by
  cases c; simp_all [Windlass.closeDue]

/-- With no window open none is due. -/
theorem State.closeDue_of_empty {s : State} {w : WellId} (h : (s.cpu w).loads = []) : s.closeDue w = s := by
  have h1 : s.wells[w.val].cpu.loads = [] := h
  refine State.modWell_of_eq ?_
  simp [Well.dropLoads, h1, Windlass.closeDue_of_empty h1]

/-- The line in use stands apart from the windows. -/
@[simp] theorem Windlass.useLine_loads (c : Windlass) (a : BitVec 16) (p : BitVec 56) : (c.useLine a p).loads = c.loads := by
  simp only [Windlass.useLine]; split <;> rfl
@[simp] theorem Windlass.useLine_modeWins (c : Windlass) (a : BitVec 16) (p : BitVec 56) : (c.useLine a p).modeWins = c.modeWins := by
  simp only [Windlass.useLine]; split <;> rfl
@[simp] theorem Windlass.useLine_instret (c : Windlass) (a : BitVec 16) (p : BitVec 56) : (c.useLine a p).instret = c.instret := by
  simp only [Windlass.useLine]; split <;> rfl
@[simp] theorem Windlass.useLine_wasid (c : Windlass) (a : BitVec 16) (p : BitVec 56) : (c.useLine a p).wasid = c.wasid := by
  simp only [Windlass.useLine]; split <;> rfl

theorem Windlass.countWindows_of_empty {c : Windlass} (h : c.loads = []) (h' : c.modeWins = []) : c.countWindows = c := by
  cases c; simp_all [Windlass.countWindows]

/-- A legal word of the row, issued in a ready state, does what its body answers. -/
theorem issue_ready {w : WellId} {i : W64} {row : Row} {uses : Windlass → Uses} {body : State → CpuRes} {s : State} (h : ready w s = true)
    (hc : row.covers i = true) (hl : row.legal i = true) : issue w i row uses body s = .next (conclude w s (body s)) := by
  obtain ⟨h1, h2, h3, h4, h5, h6, h7, h8, h9, hl'⟩ := ready_parts h
  have hb : (s.cpu w).badDue = none := by simp [Windlass.badDue, h3]
  have hs : s.closeDue w = s := State.closeDue_of_empty h3
  have hf : ∀ l : List RegRef, l.find? (fun _ => false) = none := by
    intro l
    induction l <;> simp_all
  have h9' : s.wells[w.val].flume.window = [] := h9
  simp [issue, issueState, h1, h2, h5, h6, h7, h8, h9', hb, hs, hc, hl, hl', lateRefs, windowOpen, h3, h4, hf]

/-- Completing in a state whose windows are all closed. -/
theorem retire1_of_empty {w : WellId} {pc : BitVec 56} {s : State} (h : (s.cpu w).loads = []) (h' : (s.cpu w).modeWins = []) :
    retire1 w pc s = s.modCpu w (fun c => { fetched c with pc := pc, stall := none, instret := countUp c.instret 1 }) := by
  have e : (fetched (s.cpu w)).countWindows = fetched (s.cpu w) :=
    Windlass.countWindows_of_empty (by simpa [fetched] using h) (by simpa [fetched] using h')
  refine State.modCpu_congr ?_
  show ({ (fetched (s.cpu w)).countWindows with pc := pc, stall := none, instret := countUp (s.cpu w).instret 1 } : Windlass) = _
  rw [e]

/-- An instruction whose body changes its own Windlass alone, opening no window, retires. -/
theorem conclude_done_mod {w : WellId} {s : State} {f : Windlass → Windlass} (h1 : (f (s.cpu w)).loads = []) (h2 : (f (s.cpu w)).modeWins = [])
    (h3 : (f (s.cpu w)).pc = (s.cpu w).pc) : conclude w s (.done (s.modCpu w f)) = s.modCpu w (fun c => retired (f c)) := by
  have e1 : ((s.modCpu w f).cpu w).loads = [] := by simpa using h1
  have e2 : ((s.modCpu w f).cpu w).modeWins = [] := by simpa using h2
  show retire1 w ((s.cpu w).pc + 8) (s.modCpu w f) = _
  rw [retire1_of_empty e1 e2, State.modCpu_modCpu]
  exact State.modCpu_congr (by simp [retired, h3])

@[simp] theorem Windlass.wr__loads (c : Windlass) (n : Fin 32) (v : W64) : (c.wr_ n v).loads = c.loads := by
  simp only [Windlass.wr_, Windlass.gSet]
  split
  · rfl
  · split <;> rfl
@[simp] theorem Windlass.wr__modeWins (c : Windlass) (n : Fin 32) (v : W64) : (c.wr_ n v).modeWins = c.modeWins := by
  simp only [Windlass.wr_, Windlass.gSet]
  split
  · rfl
  · split <;> rfl
@[simp] theorem Windlass.wr__pc (c : Windlass) (n : Fin 32) (v : W64) : (c.wr_ n v).pc = c.pc := by
  simp only [Windlass.wr_, Windlass.gSet]
  split
  · rfl
  · split <;> rfl
@[simp] theorem Windlass.wr__eff (c : Windlass) (n : Fin 32) (v : W64) : (c.wr_ n v).eff = c.eff := by
  simp only [Windlass.wr_, Windlass.gSet]
  split
  · rfl
  · split <;> rfl

/-- With no result under way, a write to a g register writes it and nothing else. -/
theorem Well.gWrite_of_empty {u : Well} (h1 : u.cpu.getPend = []) (h2 : u.flume.window = []) (sh : Bool) (n : Fin 32) (v : W64) :
    u.gWrite sh n v = { u with cpu := u.cpu.gSet sh n v } := by
  have e : u.dropLate sh n = u := by
    unfold Well.dropLate
    split
    · rfl
    · simp only [h1, h2, List.map_nil]
      obtain ⟨cpu, fl, _, _, _, _⟩ := u
      cases cpu; cases fl; simp_all
  simp [Well.gWrite, e]

theorem setG_of_empty {w : WellId} {n : Fin 32} {v : W64} {s : State} (h1 : (s.cpu w).getPend = []) (h2 : s.wells[w].flume.window = []) :
    setG w n v s = s.modCpu w (fun c => c.wr_ n v) := by
  have e := Well.gWrite_of_empty (u := s.wells[w.val]) h1 h2 s.wells[w.val].cpu.eff.bank n v
  simp [setG, State.modCpu, State.modWell, e, Windlass.wr_]

/-- A legal word whose body writes one g register: the result, and nothing else but the pc and INSTRET. -/
theorem issue_setG {w : WellId} {i : W64} {row : Row} {uses : Windlass → Uses} {n : Fin 32} {v : W64} {body : State → CpuRes} {s : State}
    (h : ready w s = true) (hc : row.covers i = true) (hl : row.legal i = true) (hb : body s = .done (setG w n v s)) :
    issue w i row uses body s = .next (s.modCpu w (fun c => retired (c.wr_ n v))) := by
  obtain ⟨_, _, h3, h4, _, _, _, h8, h9, _⟩ := ready_parts h
  rw [issue_ready h hc hl, hb, setG_of_empty h8 h9, conclude_done_mod (by simpa using h3) (by simpa using h4) (by simp)]

end Sys2Proof.Machine
end

