-- ==== Sys2Proof/Laws/Memory.lean ====
section
/-! SUPPORT. Device memory: every operation keeps the canonical form, and what a read answers after a write or a clear. -/

namespace Sys2Proof.Machine

/-- The canonical form as two facts about the list. -/
theorem memWf_iff (m : List Host.Cell) : memWf m = true ↔ (∀ c ∈ m, c.2 ≠ memDefault) ∧ m.Pairwise (fun a b => a.1 < b.1) := by
  induction m with
  | nil => simp [memWf]
  | cons x r ih =>
    obtain ⟨a, b⟩ := x
    cases r with
    | nil => simp [memWf]
    | cons y r =>
      obtain ⟨c, d⟩ := y
      simp only [memWf, Bool.and_eq_true, bne_iff_ne, ne_eq, decide_eq_true_eq]
      rw [ih]
      simp only [List.mem_cons, List.pairwise_cons, forall_eq_or_imp]
      constructor
      · rintro ⟨⟨h1, h2⟩, ⟨h3, h4⟩, h5, h6⟩
        exact ⟨⟨h1, h3, h4⟩, ⟨h2, fun x hx => lt_trans h2 (h5 x hx)⟩, h5, h6⟩
      · rintro ⟨⟨h1, h3, h4⟩, ⟨h2, _⟩, h5, h6⟩
        exact ⟨⟨h1, h2⟩, ⟨h3, h4⟩, h5, h6⟩

theorem memWrite_mem (m : List Host.Cell) (x : Nat) (v : Byte) : ∀ c ∈ memWrite m x v, c ∈ m ∨ (c = (x, v) ∧ v ≠ memDefault) := by
  induction m with
  | nil => intro c; simp only [memWrite]; split <;> simp_all
  | cons y r ih =>
    obtain ⟨a, b⟩ := y
    intro c
    simp only [memWrite]
    split
    · split
      · exact fun h => Or.inl h
      · intro h
        rcases List.mem_cons.mp h with h | h
        · exact Or.inr ⟨h, ‹_›⟩
        · exact Or.inl h
    · split
      · split
        · exact fun h => Or.inl (List.mem_cons_of_mem _ h)
        · intro h
          rcases List.mem_cons.mp h with h | h
          · exact Or.inr ⟨h, ‹_›⟩
          · exact Or.inl (List.mem_cons_of_mem _ h)
      · simp only [List.mem_cons]
        rintro (h | h)
        · simp [h]
        · rcases ih c h with h | h <;> simp_all

/-- A byte write keeps the canonical form. -/
theorem memWrite_wf (m : List Host.Cell) (x : Nat) (v : Byte) (h : memWf m = true) : memWf (memWrite m x v) = true := by
  rw [memWf_iff] at h ⊢
  obtain ⟨h1, h2⟩ := h
  refine ⟨fun c hc => ?_, ?_⟩
  · rcases memWrite_mem m x v c hc with h | ⟨h, hv⟩
    · exact h1 c h
    · simpa [h] using hv
  · clear h1
    induction m with
    | nil => simp only [memWrite]; split <;> simp
    | cons y r ih =>
      obtain ⟨a, b⟩ := y
      have hr := (List.pairwise_cons.mp h2).2
      have ha := (List.pairwise_cons.mp h2).1
      simp only [memWrite]
      split
      · rename_i hx
        split
        · exact h2
        · exact List.pairwise_cons.mpr ⟨fun c hc => by
            rcases List.mem_cons.mp hc with h | h
            · simpa [h] using hx
            · exact lt_trans hx (ha c h), h2⟩
      · split
        · rename_i hx
          split
          · exact hr
          · exact List.pairwise_cons.mpr ⟨fun c hc => by simpa [hx] using ha c hc, hr⟩
        · rename_i hx hne
          refine List.pairwise_cons.mpr ⟨fun c hc => ?_, ih hr⟩
          rcases memWrite_mem r x v c hc with h | ⟨h, _⟩
          · exact ha c h
          · simp only [h]; omega

/-- Writing bytes keeps the canonical form. -/
theorem memWrites_wf (bs : List Byte) : ∀ (m : List Host.Cell) (x : Nat), memWf m = true → memWf (memWrites m x bs) = true := by
  induction bs with
  | nil => intro m x h; exact h
  | cons b r ih => intro m x h; exact ih _ _ (memWrite_wf m x b h)

/-- Clearing a range keeps the canonical form. -/
theorem memClear_wf (m : List Host.Cell) (lo hi : Nat) (h : memWf m = true) : memWf (memClear m lo hi) = true := by
  rw [memWf_iff] at h ⊢
  exact ⟨fun c hc => h.1 c (List.mem_filter.mp hc).1, h.2.filter _⟩

/-- A cell that lies after every address of the rest is not in the rest. -/
theorem memRead_above (m : List Host.Cell) (x : Nat) (h : ∀ c ∈ m, x < c.1) : memRead m x = memDefault := by
  induction m with
  | nil => rfl
  | cons y r ih =>
    obtain ⟨a, b⟩ := y
    have := h (a, b) (by simp)
    simp only [memRead]
    rw [if_neg (by simp at this; omega)]
    exact ih (fun c hc => h c (by simp [hc]))

/-- A byte reads as what was written to it; every other byte reads as before. -/
theorem memRead_memWrite (m : List Host.Cell) (x : Nat) (v : Byte) (h : memWf m = true) (y : Nat) :
    memRead (memWrite m x v) y = if y = x then v else memRead m y := by
  replace h := ((memWf_iff m).mp h).2
  induction m with
  | nil =>
    by_cases hv : v = memDefault <;> by_cases hy : y = x
    all_goals simp_all [memWrite, memRead, eq_comm]
  | cons z r ih =>
    obtain ⟨a, b⟩ := z
    have hr := (List.pairwise_cons.mp h).2
    have ha := (List.pairwise_cons.mp h).1
    have hab : ∀ k, k < a → memRead ((a, b) :: r) k = memDefault := fun k hk =>
      memRead_above _ k (fun c hc => by
        rcases List.mem_cons.mp hc with e | e
        · simpa [e] using hk
        · exact lt_trans hk (ha c e))
    have hra : memRead r a = memDefault := memRead_above r a ha
    simp only [memWrite]
    split
    · rename_i hx
      split
      · rename_i hv
        split
        · rename_i hy; rw [hy, hab x hx, hv]
        · rfl
      · by_cases hy : y = x
        · simp [memRead, hy]
        · simp only [memRead, if_neg hy]; rw [if_neg (fun e => hy e.symm)]
    · split
      · rename_i _ hx
        split
        · rename_i hv
          by_cases hy : y = x
          · rw [if_pos hy, hy, hx, hra, hv]
          · simp only [if_neg hy, memRead]; rw [if_neg (by omega)]
        · by_cases hy : y = x
          · simp [memRead, hy]
          · simp only [memRead, if_neg hy]
            rw [if_neg (fun e => hy e.symm), if_neg (by omega)]
      · rename_i hx hne
        have := ih hr
        simp only [memRead]
        by_cases hay : a = y
        · rw [if_pos hay, if_neg (by omega), if_pos hay]
        · rw [if_neg hay, if_neg hay, this]

/-- Reading after writing bytes: inside the range the byte written there, outside it the byte of before. -/
theorem memRead_memWrites (bs : List Byte) : ∀ (m : List Host.Cell) (x : Nat), memWf m = true → ∀ y,
    memRead (memWrites m x bs) y = if x ≤ y ∧ y < x + bs.length then bs.getD (y - x) 0 else memRead m y := by
  induction bs with
  | nil => intro m x _ y; rw [if_neg (by simp)]; rfl
  | cons b r ih =>
    intro m x h y
    rw [memWrites, ih _ _ (memWrite_wf m x b h) y, memRead_memWrite m x b h y]
    by_cases hy : y = x
    · subst hy; simp
    · by_cases h1 : x + 1 ≤ y ∧ y < x + 1 + r.length
      · rw [if_pos h1, if_pos (by simp; omega)]
        obtain ⟨k, hk⟩ : ∃ k, y - x = k + 1 := ⟨y - x - 1, by omega⟩
        rw [hk, List.getD_cons_succ, show y - (x + 1) = k by omega]
      · rw [if_neg h1, if_neg hy, if_neg (by simp; omega)]

/-- Outside the written bytes every byte reads as before, whatever the memory. -/
theorem memRead_memWrites_other (m : List Host.Cell) (x : Nat) (bs : List Byte) (h : memWf m = true) (y : Nat) (hy : y < x ∨ x + bs.length ≤ y) :
    memRead (memWrites m x bs) y = memRead m y := by
  rw [memRead_memWrites bs m x h y, if_neg (by omega)]

/-- Reading after a clear. -/
theorem memRead_memClear (m : List Host.Cell) (lo hi y : Nat) :
    memRead (memClear m lo hi) y = if lo ≤ y ∧ y < hi then memDefault else memRead m y := by
  induction m with
  | nil => simp [memClear, memRead]
  | cons z r ih =>
    obtain ⟨a, b⟩ := z
    simp only [memClear, List.filter_cons] at ih ⊢
    by_cases hc : lo ≤ a ∧ a < hi
    · simp only [hc, decide_true, Bool.and_self, Bool.not_true, Bool.false_eq_true, if_false]
      rw [ih]
      split
      · rfl
      · rename_i hy
        have : a ≠ y := fun e => hy (by rw [← e]; exact hc)
        simp only [memRead, if_neg this]
    · have : (!(decide (lo ≤ a) && decide (a < hi))) = true := by simp; omega
      simp only [this, if_true, memRead]
      rw [ih]
      by_cases hay : a = y
      · subst hay; simp [hc]
      · simp [hay]

end Sys2Proof.Machine
end

