-- ==== Sys2Proof/Laws/Shared.lean ====
section
/-! SUPPORT. What the operations that several commands share can do: crossing a weir, an engine's access, ending an operation, and answering
the host. Each is said once here, so that a proof about a command need not unfold it. -/

namespace Sys2Proof.Machine

/-- A fold whose steps change nothing that `p` reads changes nothing that `p` reads. -/
theorem foldl_keeps {α β γ : Type} (p : α → γ) (f : α → β → α) (h : ∀ a b, p (f a b) = p a) : ∀ (l : List β) (a : α), p (l.foldl f a) = p a
  | [], _ => rfl
  | b :: l, a => (foldl_keeps p f h l (f a b)).trans (h a b)

/-- With one basin no weir holds anything (R318). -/
theorem weirCross_one_basin (u : WeirUser) (need : List WeirNeed) (s : State) (h : s.basinMode = 0) : weirCross u need s = (true, s) := by
  simp [weirCross, h]

/-- Crossing weirs touches the weirs alone. -/
theorem weirCross_frame (u : WeirUser) (need : List WeirNeed) (s : State) : ∃ ws, (weirCross u need s).2 = { s with weirs := ws } := by
  have key : ∀ (f : State → WeirNeed → State), (∀ s x, ∃ ws, f s x = { s with weirs := ws }) → ∀ (l : List WeirNeed) (s : State),
      ∃ ws, l.foldl f s = { s with weirs := ws } := by
    intro f hf l
    induction l with
    | nil => exact fun s => ⟨s.weirs, rfl⟩
    | cons x l ih =>
      intro s
      obtain ⟨a, ha⟩ := hf s x
      obtain ⟨b, hb⟩ := ih (f s x)
      exact ⟨b, by rw [List.foldl_cons, hb, ha]⟩
  unfold weirCross
  dsimp only
  split
  · exact ⟨s.weirs, rfl⟩
  · split
    · exact key _ (fun s x => ⟨_, rfl⟩) _ _
    · refine key _ (fun s x => ?_) _ _
      split
      · exact ⟨s.weirs, rfl⟩
      · exact ⟨_, rfl⟩

/-- An access that is held at a weir is held because the device has several basins. -/
theorem weirCross_held {u : WeirUser} {need : List WeirNeed} {s : State} (h : (weirCross u need s).1 = false) : s.basinMode ≠ 0 := by
  intro h0
  simp [weirCross_one_basin u need s h0] at h

/-- An access of an engine in two parts is answered when both are, the second from the state that the first leaves. -/
theorem EngRes.bind_ok {α β : Type} {r : EngRes α} {f : α → State → EngRes β} {b : β} {t : State} :
    r.bind f = .ok b t ↔ ∃ a s, r = .ok a s ∧ f a s = .ok b t := by
  cases r with
  | ok a s => exact ⟨fun h => ⟨a, s, rfl, h⟩, fun ⟨_, _, h, h'⟩ => by cases h; exact h'⟩
  | _ => simp [EngRes.bind]

/-- It waits where its first part waits, or where its second does. -/
theorem EngRes.bind_hold {α β : Type} {r : EngRes α} {f : α → State → EngRes β} {t : State} :
    r.bind f = .hold t ↔ r = .hold t ∨ ∃ a s, r = .ok a s ∧ f a s = .hold t := by
  cases r with
  | ok a s => exact ⟨fun h => .inr ⟨a, s, rfl, h⟩, fun h => by obtain h | ⟨_, _, h, h'⟩ := h <;> cases h; exact h'⟩
  | _ => simp [EngRes.bind]

/-- It ends with a status likewise. -/
theorem EngRes.bind_bad {α β : Type} {r : EngRes α} {f : α → State → EngRes β} {st : BitVec 8} {t : State} :
    r.bind f = .bad st t ↔ r = .bad st t ∨ ∃ a s, r = .ok a s ∧ f a s = .bad st t := by
  cases r with
  | ok a s => exact ⟨fun h => .inr ⟨a, s, rfl, h⟩, fun h => by obtain h | ⟨_, _, h, h'⟩ := h <;> cases h; exact h'⟩
  | _ => simp [EngRes.bind]

/-- Leaving the queues of the weirs moves no memory. -/
@[simp] theorem dropWeirs_mem (u : WeirUser) (s : State) : (dropWeirs u s).mem = s.mem := by unfold dropWeirs; split <;> rfl
@[simp] theorem dropWeirs_cf (u : WeirUser) (s : State) : (dropWeirs u s).cf = s.cf := by unfold dropWeirs; split <;> rfl
@[simp] theorem dropWeirs_inflight (u : WeirUser) (s : State) : (dropWeirs u s).inflight = s.inflight := by unfold dropWeirs; split <;> rfl

/-- Ending an operation (R385, R240): its phase and status in `cf`, its claims and its places at the weirs; no memory moves and no
increment is sent. -/
theorem endOp_frame (e : EngineId) (id : Nat) (st : BitVec 8) (s : State) : (endOp e id st s).mem = s.mem ∧
    (endOp e id st s).inflight = s.inflight ∧ (endOp e id st s).cf = (s.modOp e id (fun o => { o with phase := .written, status := st, got := none })).cf := by
  refine ⟨?_, ?_, ?_⟩ <;> simp only [endOp, dropWeirs_mem, dropWeirs_inflight, dropWeirs_cf, releaseEverywhere] <;> rfl

/-- A note goes into the job's history alone (R433). -/
theorem note_frame (k : Fin 32) (code : BitVec 8) (word : W64) (s : State) : ∃ js, note k code word s = { s with jobs := js } := ⟨_, rfl⟩

/-- Answering a command of the host (R413) moves no memory and stops no job. -/
theorem complete_mem (s : State) (r : Fin 4) (cseq : W64) (status : BitVec 8) (result : BitVec 56) :
    (s.complete r cseq status result).mem = s.mem ∧ (s.complete r cseq status result).jobs = s.jobs := by
  unfold State.complete State.event
  repeat' split
  all_goals exact ⟨rfl, rfl⟩

/-- Taking a command off its ring likewise. -/
theorem ringTake_mem (r : Fin 4) (cseq : W64) (s : State) : (ringTake r cseq s).mem = s.mem ∧ (ringTake r cseq s).jobs = s.jobs := ⟨rfl, rfl⟩

/-- Completing the reserved commands at the front of a ring (R416) moves no memory and stops no job. -/
theorem refuseOthers_mem (r : Fin 4) (s : State) : (refuseOthers r s).mem = s.mem ∧ (refuseOthers r s).jobs = s.jobs := by
  have h (s : State) (c : W64 × HostCmd) : ((ringTake r c.1 s).complete r c.1 hsInvalid 0).mem = s.mem ∧
      ((ringTake r c.1 s).complete r c.1 hsInvalid 0).jobs = s.jobs := by
    rw [(complete_mem _ _ _ _ _).1, (complete_mem _ _ _ _ _).2]
    exact ringTake_mem r c.1 s
  unfold refuseOthers
  exact ⟨foldl_keeps (·.mem) _ (fun s c => (h s c).1) _ s, foldl_keeps (·.jobs) _ (fun s c => (h s c).2) _ s⟩

/-- Where no reserved command stands in the ring nothing happens. -/
theorem refuseOthers_none (r : Fin 4) (s : State) (h : ∀ c ∈ s.hw.rings[r].cmds, reservedCmd c.2 = false) : refuseOthers r s = s := by
  unfold refuseOthers
  have : ∀ l : List (W64 × HostCmd), (∀ c ∈ l, reservedCmd c.2 = false) → l.takeWhile (fun c => reservedCmd c.2) = []
    | [], _ => rfl
    | c :: l, hl => by simp [hl c List.mem_cons_self]
  rw [this _ (fun c hc => h c (List.mem_filter.mp hc).1)]
  rfl

/-- Before a write to memory that no job protects nothing is captured (R428). -/
theorem captureFor_unprotected (pa n : Nat) (s : State) (h : s.prot = []) : captureFor pa n s = (false, s) := by
  simp [captureFor, h]

end Sys2Proof.Machine
end

