-- ==== Sys2Proof/Tests/Slice0.lean ====
section
/-! SUPPORT. Tests: what well-formedness refuses, states and operands that meet the hypotheses of each statement, and single steps on
small states with results from the spec. -/

namespace Sys2Proof.Tests
open Sys2Proof.Machine

/-- Every domain on, well 0 running, and a change of its Windlass. -/
def on (f : Windlass → Windlass) : State := { State.reset with domainOn := 0xFFFFFFFFFFF }.modCpu 0 (fun c => f { c with running := true })

/-- A running well changed as a whole. -/
def onWell (f : Well → Well) : State := (on id).modWell 0 f

/-- An instruction word from its fields (R158). -/
def ins (cls op d s1 s2 s3 imm : Nat) : W64 :=
  putN 60 cls ||| putN 50 op ||| putN 45 d ||| putN 40 s1 ||| putN 35 s2 ||| putN 30 s3 ||| putN 0 imm

/-- A g register of well 0 after a command. -/
def gAfter (o : Out) (n : Fin 32) : Option W64 := match o with | .next t => some (t.cpu 0).gN[n] | _ => none

/-- A property of the state after a command. -/
def after (o : Out) (p : State → Bool) : Bool := match o with | .next t => p t | _ => false

/-! Well-formedness: one term that each check refuses, beside one that it takes. -/

theorem test_wf_word : (Instr.addSub 0 (ins 0 2 3 1 2 0 0)).wellFormed = true ∧ (Instr.addSub 0 (ins 0 3 3 1 2 0 0)).wellFormed = false ∧
    (Instr.addSub 0 (ins 1 2 3 1 2 0 0)).wellFormed = false := by decide
theorem test_wf_access : (Instr.cisternAccess { addr := 60, kind := .read 4, cls := .normal }).wellFormed = true ∧
    (Instr.cisternAccess { addr := 60, kind := .read 5, cls := .normal }).wellFormed = false ∧
    (Instr.cisternAccess { addr := 63, kind := .write [1, 2], cls := .normal }).wellFormed = false ∧
    (Instr.cisternAccess { addr := 4, kind := .atomic .add 1 0, cls := .normal }).wellFormed = false := by decide
theorem test_wf_fill : (Instr.cisternMissFill 0x1FFFFFFFFFF).wellFormed = true ∧ (Instr.cisternMissFill 0x20000000000).wellFormed = false := by decide
theorem test_wf_path : (Instr.weirCfgWrite { path := { half := 0, point := 3, dir := 0 }, basin := 0 } 0).wellFormed = true ∧
    (Instr.weirCfgWrite { path := { half := 1, point := 3, dir := 0 }, basin := 0 } 0).wellFormed = false ∧
    (Instr.weirRegulatorCycle { half := 1, point := 3, dir := 0 }).wellFormed = false := by decide
theorem test_wf_message : (Instr.stageMessageAdvance { w0 := 1, w1 := 0, w2 := 0, w3 := 0 }).wellFormed = true ∧
    (Instr.stageMessageAdvance { w0 := 2, w1 := 0, w2 := 0, w3 := 0 }).wellFormed = false ∧
    (Instr.repeatReq { w0 := 3, w1 := 0, w2 := 0, w3 := 0 }).wellFormed = false := by decide
set_option maxRecDepth 20000 in
theorem test_wf_flit : (Instr.idleFlit 0 { hdr := 0x2000000000000000, body := List.replicate 244 0, crc := 0, fecBad := false }).wellFormed = true ∧
    (Instr.idleFlit 0 { hdr := 0x1000000000000000, body := List.replicate 244 0, crc := 0, fecBad := false }).wellFormed = false ∧
    (Instr.idleFlit 0 { hdr := 0x2000000000000000, body := List.replicate 243 0, crc := 0, fecBad := false }).wellFormed = false := by decide
theorem test_wf_packet : (Instr.writePacket { w0 := 0x2000000000000000, w1 := putN 54 3, data := [1, 2, 3] }).wellFormed = true ∧
    (Instr.writePacket { w0 := 0x2000000000000000, w1 := putN 54 3, data := [1, 2] }).wellFormed = false ∧
    (Instr.readPacket { w0 := 0x1000000000000000, w1 := putN 54 3, data := [1] }).wellFormed = false ∧
    (Instr.respPacket { w0 := 0x5000000000000000, w1 := 0, data := [] }).wellFormed = false := by decide
theorem test_wf_rill : (Instr.rillPacket ⟨0, 0, 0, 0, 0, 0, false, .or, List.replicate 9 0⟩).wellFormed = false := by decide
set_option maxRecDepth 20000 in
theorem test_wf_rest : (Instr.faultRecordExpire 16384).wellFormed = false ∧ (Instr.wwrite 0 []).wellFormed = false ∧
    (Instr.wwrite 0 (List.replicate 513 0)).wellFormed = false ∧ (Instr.credit 7 1).wellFormed = false ∧
    (Instr.byvorDataFlit { hdr := 0, body := List.replicate 247 0, crc := 0, fecBad := false }).wellFormed = false ∧
    (Instr.getCerts 0x0200000000000000).wellFormed = false ∧ (Instr.flashCommit 0x0900000000000000).wellFormed = true := by decide
theorem test_no_word_spells_a_command : decodeTableWord 64 (ins 0 1 3 1 2 0 0).toNat = none := by decide

/-! The Windlass. -/

theorem witness_ScalarResults : ready 0 (on id) = true ∧ (∀ op ∈ [1, 6, 8, 0xA, 0x10, 0x15, 0x20, 0x27], ∀ imm ∈ [0, 0x20000000, 0x200FFFFF],
      aluLegal (ins 0 op 31 1 0 0 imm) = true ∧ wClass (ins 0 op 31 1 0 0 imm) = 0 ∧ wOp (ins 0 op 31 1 0 0 imm) = op) ∧
    countLegal (ins 0 0x1A 3 1 0 0 0) = true ∧ extLegal (ins 0 0x1C 3 1 0 0 2) = true ∧ wOp (ins 0 0x30 3 0 0 0 0x3FFFFFFF) = 0x30 ∧
    wS1 (ins 0 0x30 3 0 0 0 0x3FFFFFFF) = 0 := by decide
/-- R169: div of -2^63 by -1, and division by zero. -/
theorem test_div_corner : gAfter (exec (.divDivuRemRemu 0 (ins 0 0x24 3 1 2 0 0))
      (on (fun c => { c with gN := (c.gN.set 1 0x8000000000000000).set 2 0xFFFFFFFFFFFFFFFF }))) 3 = some 0x8000000000000000 ∧
    gAfter (exec (.divDivuRemRemu 0 (ins 0 0x26 3 1 2 0 0)) (on (fun c => { c with gN := c.gN.set 1 7 }))) 3 = some 7 := by decide
/-- R169: `li` then `lsh` builds a constant; a write to g0 is discarded. -/
theorem test_lsh : gAfter (exec (.lsh 0 (ins 0 0x31 3 3 0 0 0x3FFFFFFF)) (on (fun c => { c with gN := c.gN.set 3 1 }))) 3 = some 0x7FFFFFFF ∧
    gAfter (exec (.li 0 (ins 0 0x30 0 0 0 0 5)) (on id)) 0 = some 0 := by decide

/-- A load of data RAM at its last aligned word, a quad load, and a load of g0. -/
theorem witness_LoadOpensWindow :
    let i := ins 1 4 3 1 0 0 0
    let s := on (fun c => { c with gN := c.gN.set 1 0x71FFF8 })
    ready 0 s = true ∧ wClass i = 1 ∧ noS2 i = true ∧ noS3 i = true ∧ immZero i 20 10 = true ∧
      addressFault (s.cpu 0) 0x71FFF8 8 false = none ∧ accessHold s 0 0x71FFF8 8 false = none ∧
      checkFault s.wells[0] (halves 0x71FFF8 8 false) = none ∧ (s.cpu 0).storeBuf = [] ∧ s.ue ++ s.ce = [] ∧
      addressFault (s.cpu 0) 0x71FFF0 16 true = none ∧ accessHold s 0 0x71FFF0 16 false = none ∧
      checkFault s.wells[0] (halves 0x71FFF0 16 true) = none := by decide
theorem witness_StoreEntersBuffer :
    let i := ins 1 0x14 0 1 2 0 0
    let s := on (fun c => { c with gN := c.gN.set 1 0x700000 })
    ready 0 s = true ∧ noDest i = true ∧ noS3 i = true ∧ immZero i 20 10 = true ∧ addressFault (s.cpu 0) 0x700000 8 false = none ∧
      accessHold s 0 0x700000 8 true = none ∧ checkFault s.wells[0] (halves 0x700000 8 false) = none ∧
      addressFault (s.cpu 0) 0x700000 16 true = none ∧ accessHold s 0 0x700000 16 true = none ∧
      checkFault s.wells[0] (halves 0x700000 16 true) = none := by decide
/-- R173: the loaded value waits in a window of 2 for data RAM. -/
theorem test_load_window : after (exec (.ld 0 (ins 1 1 3 1 0 0 0)) ((on (fun c => { c with gN := c.gN.set 1 0x700000 })).writeBytes (wellAddr 0 0x700000) [0x80]))
    (fun t => (t.cpu 0).loads.map (fun l => (l.left, l.value)) == [(2, some 0xFFFFFFFFFFFFFF80)] && (t.cpu 0).gN[3] == 0) = true := by decide
theorem witness_BufferedStoresDrainAndLoadsClose :
    ((on id).cpu 0).storeBuf = [] ∧ State.reset.wellOn 0 = false ∧
    (
      let s := on (fun c => { c with storeBuf := storeEntries 0x700004 [1, 2, 3, 4, 5, 6, 7, 8] })
      memWf s.mem = true ∧ s.wellOn 0 = true ∧ (s.cpu 0).storeBuf.length = 2) ∧
    (
      let L : LoadWindow := { dest := .g false 3, value := some 9, ea := 0, left := 0 }
      let Q : LoadWindow := { dest := .q 15, value := some 9, ea := 0, left := 0 }
      L.left = 0 ∧ L.value = some 9 ∧ L.dest ≠ .g true 3 ∧ L.dest ≠ Q.dest ∧ ([L, Q] : List LoadWindow) = [] ++ L :: [Q] ∧
        ((on (fun c => { c with loads := [L, { L with left := 1 }, Q] })).cpu 0).loads.filter (fun L => decide (L.left = 0)) = [L, Q] ∧
        { L with value := none }.value = none) := by decide
theorem test_drain : after (exec (.storeBufferDrain 0) (on (fun c => { c with storeBuf := storeEntries 0x700004 [1, 2, 3, 4, 5, 6, 7, 8] })))
    (fun t => (List.range 8).map (fun k => t.byteAt (wellAddr 0 (0x700000 + k))) == [0, 0, 0, 0, 1, 2, 3, 4] && (t.cpu 0).storeBuf.length == 1) = true := by decide
theorem witness_ICacheFills :
    let e (frame : Nat) : TlbEntry := { asid := 0, big := false, page := 0, frame := frame, rights := 1 }
    let s (frame : Nat) := { (on id).modFront (frontOfWell 0) (fun x => { x with tlb := [e frame] }) with stackMask := 0xFFFFFF }
    let b := (on id).modWell 0 (fun u => { u with st := { u.st with banks := Vector.replicate 28 .open, scoreboard := false } })
    (s 0).wellOn 0 = true ∧ State.reset.wellOn 0 = false ∧
      (∀ f ∈ [0, 0x30000000000], tlbFind (s f).fronts[frontOfWell 0] 0 0x40 = some (e f) ∧ rightsHold (e f).rights rightR = true ∧
        recordFor (s f).fronts[frontOfWell 0] 0 0x40 = none ∧ (e f).addr 0x40 / 64 * 64 / 2 ^ 44 = (s f).devId.toNat) ∧
      placeOf ((e 0).addr 0x40 / 64 * 64 % 2 ^ 44) = .stack 0 ∧ centralRefusal (s 0) 0x40 = none ∧ captureHeld (s 0) 0x40 64 = false ∧
      (s 0).basinMode = 0 ∧ (s 0).stErr = [] ∧ (s 0).cErr = [] ∧ (s 0).cTagErr = [] ∧ (s 0).poison = [] ∧
      placeOf ((e 0x30000000000).addr 0x40 / 64 * 64 % 2 ^ 44) = .well 0 0x40 ∧ storeRefusal b 0 0x40 64 true = none ∧
      ueHit b.ue (wellAddr 0 0x40) 64 = false ∧ tlbFind (s 0).fronts[frontOfWell 0] 1 0x40 = none := by decide +kernel
/-- Condition 0xB with the least immediate, bit 63 of `skip.bs`, and the first reserved code. -/
theorem witness_SkipDecidesAndSuppresses :
    ready 0 (on id) = true ∧ (∀ k ∈ [0, 5, 6, 7, 8, 0xB, 0xC], wClass (ins 2 1 0 1 0 0 (k * 0x4000000)) = 2 ∧ skipCond (ins 2 1 0 1 0 0 (k * 0x4000000)) = k) ∧
      (skipLegal (ins 2 1 0 1 0 0 (0xB * 0x4000000 + 0x80000)) = true ∧ skipLegal (ins 2 1 0 1 0 0 (6 * 0x4000000 + 63)) = true ∧
        skipLegal (ins 2 1 0 1 2 0 (5 * 0x4000000)) = true ∧ skipLegal (ins 2 1 0 1 0 0 (6 * 0x4000000 + 64)) = false ∧
        skipLegal (ins 2 1 0 1 0 0 (0xC * 0x4000000)) = false) ∧
      (let s := on (fun c => { c with skipNext := true })
       ready 0 (s.modCpu 0 (fun c => { c with skipNext := false })) = true ∧ (s.cpu 0).skipNext = true ∧ wordIs 2 0x010 0x010 (ins 2 0x10 0 0 0 0 0) = true ∧
         wordIs 3 8 8 (ins 3 8 0 0 0 0 255) = true) := by decide
theorem test_skip_lt : after (exec (.skip 0 (ins 2 1 0 1 2 0 (2 * 0x4000000))) (on (fun c => { c with gN := c.gN.set 1 0x8000000000000000 })))
    (fun t => (t.cpu 0).skipNext) = true ∧
    after (exec (.skip 0 (ins 2 1 0 1 2 0 (4 * 0x4000000))) (on (fun c => { c with gN := c.gN.set 1 0x8000000000000000 })))
      (fun t => (t.cpu 0).skipNext) = false := by decide
/-- A jump back by one instruction from the pc, a target off 8, and one above 56 bits. -/
theorem witness_JumpsGoToTarget :
    let s := on (fun c => { c with pc := 0x100, gN := (c.gN.set 1 0x104).set 2 0x0100000000000000 })
    let c := s.cpu 0
    ready 0 s = true ∧ noS2 (ins 2 0x10 0 0 0 0 0x3FFFFFFF) = true ∧ (c.pc.setWidth 64 + 8 * imm30 (ins 2 0x10 0 0 0 0 0x3FFFFFFF)).toNat = 0xF8 ∧
      immZero (ins 2 0x12 5 1 0 0 0) 20 10 = true ∧ (c.rd 1 + imm20 (ins 2 0x12 5 1 0 0 0)).toNat % 8 ≠ 0 ∧
      2 ^ 56 ≤ (c.rd 2 + imm20 (ins 2 0x12 5 2 0 0 0)).toNat := by decide
theorem test_jal : after (exec (.jal 0 (ins 2 0x11 5 0 0 0 0x3FFFFFFF)) (on (fun c => { c with pc := 0x100 })))
    (fun t => (t.cpu 0).pc == 0xF8 && (t.cpu 0).gN[5] == 0x108) = true := by decide
theorem witness_CsrReadsAndWrites :
    ready 0 (on id) = true ∧ ((on id).cpu 0).eff.ring = 0 ∧ ((on id).cpu 0).wr.ring = 0 ∧ ((on id).cpu 0).djq = [] ∧
      (∀ a ∈ [0x000, 0x003, 0x012, 0x020, 0x02E, 0x061], csrKnown a = true ∧ 0 ≤ csrReadRing a ∧ csrAddr (ins 3 1 4 0 0 0 a) = a ∧
        immZero (ins 3 2 0 4 0 0 a) 12 18 = true ∧ noDest (ins 3 2 0 4 0 0 a) = true) ∧
      wOp (ins 3 2 0 4 0 0 0x02E) = 2 ∧ wOp (ins 3 3 0 4 0 0 0x003) = 3 ∧ wOp (ins 3 4 0 4 0 0 0x012) = 4 := by decide
theorem test_csrs : after (exec (.csrs 0 (ins 3 3 0 4 0 0 0x028)) (on (fun c => { c with gN := c.gN.set 4 0xFFFF, exc := { c.exc with ienable := 1 } })))
    (fun t => (t.cpu 0).exc.ienable == 0x7FF) = true := by decide
theorem witness_ModeChangesWaitThreeInstructions :
    (let s := on (fun c => { c with gN := c.gN.set 4 1 })
     ready 0 s = true ∧ immN (ins 3 2 0 4 0 0 0x010) 0 30 = 0x010 ∧ (s.cpu 0).eff.ring.toNat ≤ 1 ∧ bitB ((s.cpu 0).rd 4) 0 = !(s.cpu 0).wr.ie) ∧
    (∀ n ∈ [0, 2],
      let s := on (fun c => { c with modeWins := [{ val := .ie true, left := n + 1 }] })
      (s.cpu 0).modeWins = [{ val := .ie true, left := n + 1 }] ∧ ready 0 (s.modCpu 0 (fun c => { c with modeWins := [] })) = true) ∧
    wOp (ins 0 0x30 3 0 0 0 7) = 0x30 := by decide
theorem witness_SystemInstructions :
    (∀ r : BitVec 2, ready 0 (on (fun c => { c with eff := { c.eff with ring := r } })) = true) ∧
      ready 0 (on (fun c => { c with exc := { c.exc with ipend := 1 } })) = true ∧ ((on id).cpu 0).stall ≠ some .icinv ∧
      (let s := on (fun c => { c with stall := some .icinv })
       ready 0 s = true ∧ (s.cpu 0).stall = some .icinv) ∧
      (∀ op ∈ [0x10, 0x11, 0x12, 0x18, 0x19], noS2 (ins 3 op 0 0 0 0 0) = true ∧ immZero (ins 3 op 0 0 0 0 0) 0 30 = true ∧ wOp (ins 3 op 0 0 0 0 0) = op) := by
  decide
/-- R162: in ring 3 `xget` raises PRIVILEGED. -/
theorem test_xget_ring3 : after (exec (.xget 0 (ins 3 0x18 5 6 0 0 0)) (on (fun c => { c with
      eff := { c.eff with ring := 3 }
      wr := { c.wr with ring := 3 }
      exc := { c.exc with entry := 0x8000000000000800 } })))
    (fun t => fieldN (t.cpu 0).exc.cause 0 8 == 2 && (t.cpu 0).pc == 0x800 && (t.cpu 0).eff.ring == 0 && (t.cpu 0).eff.bank) = true := by decide
theorem witness_ExceptionIsTaken :
    let s := on (fun c => { c with exc := { c.exc with entry := 0x8000000000000800 } })
    ready 0 s = true ∧ bareLegal (ins 3 0xB 0 0 0 0 0) = true ∧ wOp (ins 3 0xB 0 0 0 0 0) = 0xB ∧ entryClear 0 s = true ∧
      handlerSet (s.cpu 0) (handlerRing (s.cpu 0) false 0x06) = true ∧ handlerSet (s.cpu 0) (handlerRing (s.cpu 0) false 0x26) = true := by decide
theorem witness_TrapEntersSluice :
    let i := ins 3 8 0 0 0 0 255
    let s := (on (fun c => { c with drlim := 0x710, exc := { c.exc with sltbase := 0x710000 } })).writeWords (wellAddr 0 0x710FF0) [0x8000000000000900, 0x11]
    let e0 := s.readWord (wellAddr 0 0x710FF0)
    let e1 := s.readWord (wellAddr 0 0x710FF8)
    ready 0 s = true ∧ noDest i = true ∧ immZero i 8 22 = true ∧ sluiceTableOk (s.cpu 0) = true ∧ entryClear 0 s = true ∧
      fieldN (s.cpu 0).exc.sltbase 12 12 * 0x1000 + 16 * immN i 0 8 = 0x710FF0 ∧ s.ue ++ s.ce = [] ∧
      bitB e0 63 = true ∧ fieldN e0 60 3 = 0 ∧ fieldN e0 56 2 = 0 ∧ fieldN e0 0 3 = 0 ∧ fieldN e1 5 59 = 0 ∧
      bitB e1 (s.cpu 0).eff.ring.toNat = true ∧ fieldN e0 58 2 ≤ (s.cpu 0).eff.ring.toNat := by decide
theorem test_trap : after (exec (.trap 0 (ins 3 8 0 0 0 0 255))
      ((on (fun c => { c with pc := 0x40, drlim := 0x710, exc := { c.exc with sltbase := 0x710000 } })).writeWords (wellAddr 0 0x710FF0) [0x8000000000000900, 0x11]))
    (fun t => fieldN (t.cpu 0).exc.cause 0 8 == 0x30 && (t.cpu 0).exc.epc == 0x48 && (t.cpu 0).pc == 0x900 && (t.cpu 0).eff.ie) = true := by decide
theorem witness_ReturnRestores :
    let s (e c : W64) : State := on (fun x => { x with exc := { x.exc with estatus := e, cause := c } })
    ready 0 (s 0x1D 0x30) = true ∧ bareLegal (ins 3 0xA 0 0 0 0 0) = true ∧ bareLegal (ins 3 9 0 0 0 0 0) = true ∧
      ((s 0x1D 0x30).cpu 0).wr = ((s 0x1D 0x30).cpu 0).eff ∧ (0x1D : W64).toNat < 32 ∧ bitB (0x1D : W64) 1 = false ∧
      ((s 0x1D 0x30).cpu 0).parityStop = false ∧
      (let p := (s 0x1D 0x30).modCpu 0 (fun c => { c with parityStop := true })
       ready 0 p = true ∧ (p.cpu 0).parityStop = true) ∧
      (0x30 : W64).extractLsb' 0 8 = 0x30#8 ∧ ready 0 (s 0x20 0x31) = true ∧ ¬ (0x20 : W64).toNat < 32 ∧ (0x31 : W64).extractLsb' 0 8 ≠ 0x30#8 := by decide
theorem test_rete : after (exec (.rete 0 (ins 3 0xA 0 0 0 0 0)) (on (fun c => { c with exc := { c.exc with estatus := 0x1D, epc := 0x123450 } })))
    (fun t => (t.cpu 0).pc == 0x123450 && (t.cpu 0).eff.ring == 3 && (t.cpu 0).eff.ie && (t.cpu 0).skipNext && !(t.cpu 0).eff.bank) = true := by decide
theorem witness_InterruptLines :
    let s := on (fun c => { c with
      exc := { c.exc with timecmp := 5, ipend := 0x600, ienable := 0x7FF, entry := 0x8000000000000800 }
      cycle := { ovf := true, count := 5 }
      instret := { ovf := true, count := 0 }
      eff := { c.eff with ie := true }
      wr := { c.wr with ie := true } })
    let c := s.cpu 0
    s.wellOn 0 = true ∧ c.exc.timecmp ≠ 0 ∧ c.exc.timecmp.toNat ≤ c.cycle.count.toNat ∧ c.instret.ovf = true ∧ c.cycle.ovf = true ∧ ready 0 s = true ∧
      c.eff.ie = true ∧ (c.exc.ipend &&& c.exc.ienable).getLsbD 9 = true ∧ (∀ k : Fin 11, k < 9 → (c.exc.ipend &&& c.exc.ienable).getLsbD k.val = false) ∧
      entryClear 0 s = true ∧ handlerSet c (handlerRing c true 0x49) = true ∧
      (let t := { s with sync := [{ well := 1, line := 0 }, { well := 0, line := 10 }] }
       t.sync = [{ well := 1, line := 0 }] ++ { well := 0, line := 10 } :: [] ∧ (∀ x ∈ s.sync, x.well ≠ 0)) := by decide
theorem test_interrupt : after (exec (.interruptTake 0) (on (fun c => { c with
      pc := 0x40
      exc := { c.exc with ipend := 0x600, ienable := 0x7FF, entry := 0x8000000000000800 }
      eff := { c.eff with ie := true }
      wr := { c.wr with ie := true } })))
    (fun t => fieldN (t.cpu 0).exc.cause 0 8 == 0x49 && bitB (t.cpu 0).exc.cause 63 && (t.cpu 0).exc.epc == 0x40 && (t.cpu 0).exc.ipend == 0x600) = true := by decide
/-- The last place of a frame: XSP + 512 at XLIMIT. -/
theorem witness_FrameRoundTrip :
    let s := on (fun c => { c with exc := { c.exc with xsp := 0x701000 - 512, xbase := 0x700000, xlimit := 0x701000, edepth := 0xFFFE } })
    memWf s.mem = true ∧ pushOk (s.cpu 0).exc = true ∧ (s.cpu 0).exc.edepth ≠ 0xFFFF := by decide
theorem witness_DjqResults :
    ready 0 (on id) = true ∧ (∀ op ∈ [1, 7, 8, 0xA, 0x21], q3 (ins 4 op 15 1 2 0 0) = true ∧ wClass (ins 4 op 15 1 2 0 0) = 4 ∧ wOp (ins 4 op 15 1 2 0 0) = op) ∧
      q2 (ins 4 0xB 3 1 0 0 63) = true ∧ immZero (ins 4 0xB 3 1 0 0 63) 6 22 = true ∧ qOk (wDest (ins 4 0x22 15 1 0 0 0)) = true ∧
      laneOk (ins 4 0x23 3 1 0 0 (3 * 2 ^ 28 + 1)) = true ∧ q2 (ins 4 0x25 3 1 0 0 0) = true ∧
      qArithLegal (ins 4 0x10 3 1 2 0 (3 * 2 ^ 28)) = true ∧ qFltOk (ins 4 0x15 3 1 2 0 (3 * 2 ^ 28)) = true ∧ rmOk (qRm (ins 4 0x15 3 1 2 0 (3 * 2 ^ 28))) = true := by
  decide
/-- `qcvt` of binary64 to binary32 and to int32, the compares into g31, and the oldest flags of two that wait. -/
theorem witness_DjqResults_more :
    (∀ df ∈ [(1, Fmt.fp32), (8, Fmt.int32)], let i := ins 4 0x20 15 1 0 0 (3 * 2 ^ 28 + df.1 * 2 ^ 19)
      wClass i = 4 ∧ wOp i = 0x020 ∧ qcvtLegal i = true ∧ Fmt.ofCode (qDf i) = some df.2 ∧ Fmt.ofCode (qSf i) = some .fp64) ∧
      (∀ op ∈ [0x18, 0x1A], let i := ins 4 op 31 1 2 0 (3 * 2 ^ 28)
        wOp i = op ∧ qOk (wS1 i) = true ∧ qOk (wS2 i) = true ∧ noS3 i = true ∧ qFltOk i = true ∧ immZero i 0 27 = true) ∧
      (let i := ins 4 0x17 15 1 2 0 (3 * 2 ^ 28)
       q3 i = true ∧ qFltOk i = true ∧ immZero i 0 27 = true) ∧ ((on (fun c => { c with djq := [1, 2] })).cpu 0).djq = 1 :: [2] := by decide

/-! The Flume. -/

/-- Well 0 with VTYPE of 4-byte elements, VL at its greatest value of 512 and element 0 of v1 set. -/
def onFlume (f : Well → Well) : State := onWell (fun u => f { u with
  cpu := { u.cpu with
    eff := { u.cpu.eff with vtype := { tset := true, falt := false, ebytes := 4 } }
    wr := { u.cpu.wr with vtype := { tset := true, falt := false, ebytes := 4 } } }
  flume := { u.flume with vl := 512, v := (u.flume.v.set 1 0x40000000).set 2 0x3F800000 } })

/-- Selector 0 and selector 16 + 7; the last op of each group; `vcvt` of fp32 to fp64 and to e2m1. -/
theorem witness_FlumeElementResults :
    ready 0 (onFlume id) = true ∧ vIssueFault ((onFlume id).cpu 0) (onFlume id).wells[0].flume fpNeed = none ∧
      vIssueFault ((onFlume id).cpu 0) (onFlume id).wells[0].flume anyNeed = none ∧ 2047 < 16384 / 8 ∧
      (∀ s3 ∈ [0, 23], ∀ op ∈ [0x10, 0x13, 0x15, 0x17, 0x18, 0x1C, 0x40, 0x4E],
        let i := ins 5 op 3 1 2 s3 0
        selOk i = true ∧ wClass i = 5 ∧ wOp i = op ∧ rmOk (vRm i) = true ∧ immZero i 0 29 = true) ∧
      (let i := ins 5 0x14 3 1 0 0 0
       wOp i = 0x010 + 4 ∧ noS2 i = true ∧ bitB i 29 = false) ∧
      (∀ df ∈ [(2, Fmt.fp16), (4, Fmt.e4m3)],
        let i := ins 5 0x30 3 1 0 0 (df.1 * 2 ^ 21 + 1 * 2 ^ 17)
        vcvtLegal i = true ∧ Fmt.ofCode (vDf i) = some df.2 ∧ Fmt.ofCode (vSf i) = some .fp32 ∧ sewOf ((onFlume id).cpu 0).eff.vtype = max df.2.bits 32) ∧
      (∀ op ∈ [0x10, 0x12, 0x14], let i := ins 6 op 3 1 0 0 0
        wClass i = 6 ∧ immZero i 0 30 = true ∧ noS2 i = true ∧ wDest i ≠ wS1 i ∧ wDest i ≠ wS2 i) := by decide
/-- R131: 2.0 + 1.0 = 3.0 in the only element below VL = 1; element 1 keeps its value. -/
theorem test_vfadd : after (exec (.vfaddVfsubVfmulVfdivVfsqrt 0 (ins 5 0x10 3 1 2 0 0))
      (onFlume (fun u => { u with flume := { u.flume with vl := 1, v := u.flume.v.set 3 0x1111111122222222 } })))
    (fun t => (t.wells[0].flume.v[3]).toNat == 0x1111111140400000) = true := by decide +kernel
theorem test_vsra : after (exec (.vsllVsrlVsra 0 (ins 5 0x4A 3 1 2 0 0))
      (onFlume (fun u => { u with flume := { u.flume with vl := 1, v := (u.flume.v.set 1 0x80000000).set 2 33 } })))
    (fun t => (t.wells[0].flume.v[3]).toNat == 0xC0000000) = true := by decide +kernel
theorem witness_FlumeMaskResults :
    ready 0 (onFlume id) = true ∧ (∀ op ∈ [0x20, 0x22, 0x50, 0x52, 0x60, 0x63],
      let i := ins 5 op 7 1 2 0 0
      wClass i = 5 ∧ wOp i = op ∧ selOk i = true ∧ (wDest i).val < 8 ∧ immZero i 0 30 = true ∧ (wS1 i).val < 8 ∧ (wS2 i).val < 8) ∧
      noS1 (ins 5 0x64 7 0 0 0 0) = true ∧ noS2 (ins 5 0x64 7 0 0 0 0) = true ∧
      vIssueFault ((onFlume id).cpu 0) (onFlume id).wells[0].flume fpNeed = none ∧
      vIssueFault ((onFlume id).cpu 0) (onFlume id).wells[0].flume anyNeed = none := by decide
theorem witness_FlumeScalarResults :
    let s := onFlume id
    let none_ := onFlume (fun u => { u with flume := { u.flume with vl := 0 } })
    ready 0 s = true ∧ ready 0 none_ = true ∧ (∀ op ∈ [0x70, 0x71, 0x72, 0x73, 0x74, 0x7A, 0x80, 0x81],
      let i := ins 5 op 3 1 0 0 0
      wClass i = 5 ∧ wOp i = op ∧ selOk i = true ∧ rmOk (vRm i) = true ∧ bitB i 29 = false ∧ noS2 i = true ∧ immZero i 0 30 = true ∧
        (wS1 i).val < 8) ∧
      (let i := ins 5 0x82 3 1 0 0 511
       immZero i 11 19 = true ∧ vIdx i < vlmax (s.cpu 0).eff.vtype) ∧
      vIssueFault (s.cpu 0) s.wells[0].flume fpNeed = none ∧ vIssueFault (s.cpu 0) s.wells[0].flume anyNeed = none ∧
      vIssueFault (none_.cpu 0) none_.wells[0].flume anyNeed = none ∧
      ((List.range none_.wells[0].flume.vl.toNat).filter (admits none_.wells[0].flume (ins 5 0x72 3 1 0 0 0))) = [] ∧
      sewOf (s.cpu 0).eff.vtype = 32 ∧ admits s.wells[0].flume (ins 5 0x72 3 1 0 0 0) 0 = true ∧
      (let t := onFlume (fun u => { u with flume := { u.flume with m := u.flume.m.set 1 0x8 } })
       (t.wells[0].flume.m[1]).getLsbD 3 = true ∧ ∀ j : Fin 3, (t.wells[0].flume.m[1]).getLsbD j.val = false) := by decide +kernel
theorem test_vtally_min_empty : after (exec (.vtallyInteger 0 (ins 5 0x75 3 1 0 0 0)) (onFlume (fun u => { u with flume := { u.flume with vl := 0 } })))
    (fun t => t.wells[0].flume.window.map (·.gdest) == [some (false, 3, 0xFFFFFFFF80000000)]) = true := by decide
theorem witness_FxSumOrderFree : List.Perm [0x3F800000, 0x4B800000] [0x4B800000, 0x3F800000] := by decide
/-- `vpack` under a mask, `vins` at the last element, `vqmx` to e4m3 and to e2m1, `setvl` at EBYTES 1 with FALT and at 8. -/
theorem witness_FlumeShapeResults :
    ready 0 (onFlume id) = true ∧ vIssueFault ((onFlume id).cpu 0) (onFlume id).wells[0].flume anyNeed = none ∧
      (let i := ins 6 0x15 3 1 0 16 0
       wClass i = 6 ∧ wOp i = 0x015 ∧ selOk i = true ∧ maskSel i ≠ 0 ∧ wDest i ≠ wS1 i ∧ noS2 i = true ∧ immZero i 0 30 = true) ∧
      (let i := ins 6 0x16 3 1 0 0 511
       wOp i = 0x016 ∧ immZero i 11 19 = true ∧ vIdx i < vlmax ((onFlume id).cpu 0).eff.vtype) ∧
      (∀ df ∈ [(4, Fmt.e4m3), (6, Fmt.e2m1)], let i := ins 5 0x31 3 1 0 0 (df.1 * 2 ^ 21 + 4 * 2 ^ 12)
        wClass i = 5 ∧ wOp i = 0x031 ∧ selOk i = true ∧ vqmxLegal i = true ∧ Fmt.ofCode (vDf i) = some df.2 ∧
          vIssueFault ((onFlume id).cpu 0) (onFlume id).wells[0].flume (vqmxNeed i) = none) ∧
      (∀ e ∈ [0x101, 0x008], let i := ins 5 1 3 1 0 0 e
        wOp i = 0x001 ∧ noS2 i = true ∧ noS3 i = true ∧ immZero i 9 21 = true ∧ immZero i 4 4 = true ∧ immN i 0 4 ∈ [1, 2, 4, 8] ∧
          (bitB i 8 = true → immN i 0 4 < 4)) ∧
      (let i := ins 6 0x20 0 0 0 0 0
       wOp i = 0x020 ∧ noDest i = true ∧ noS1 i = true ∧ noS3 i = true) := by decide
theorem test_setvl : after (exec (.setvl 0 (ins 5 1 3 1 0 0 8)) (on (fun c => { c with gN := c.gN.set 1 1000 })))
    (fun t => (t.cpu 0).gN[3] == 256 && t.wells[0].flume.vl == 256 && (t.cpu 0).wr.vtype.ebytes == 8 && (t.cpu 0).eff.vtype.ebytes == 0) = true := by decide
/-- A unit-stride load and store of data RAM at VSTART 511, where the count is 512; and the same load at VSTART 512. -/
theorem witness_FlumeMemoryAccesses :
    let s := onFlume (fun u => { u with
      cpu := { u.cpu with gN := u.cpu.gN.set 1 0x700000 }
      flume := { u.flume with vstart := 511 } })
    let x := s.wells[0]
    let ml : VMem := { kind := .unit, store := false, tag := 0 }
    let ms : VMem := { kind := .unit, store := true, tag := 0 }
    let il := ins 6 1 3 1 0 0 0
    let i := ins 6 4 3 1 0 0 0
    ready 0 s = true ∧ wClass i = 6 ∧ wOp i = 4 ∧ vMemLegal true i = true ∧ noS2 i = true ∧ vMemLegal false il = true ∧ x.cpu.storeBuf = [] ∧
      x.st.pend = false ∧ vIssueFault x.cpu x.flume { fp := false, mem := true, ok := fun _ => true } = none ∧
      ml.count x.flume = 512 ∧ ms.count x.flume = 512 ∧ flumeActive ms i x.flume = [511] ∧
      entriesFree s 0 (vSpan ms i x [511]).toList = true ∧ vCheck ms i x 511 = none ∧
      entriesFree s 0 (vSpan ml il x [511]).toList = true ∧ vCheck ml il x 511 = none ∧ ms.use x.st = none ∧ ml.use x.st = none ∧
      ueHit s.ue (wellAddr 0 (ml.addr il x.cpu x.flume 511)) 4 = false ∧ mMemLegal true (ins 6 9 3 1 0 0 0) = true ∧
      (let y := onFlume (fun u => { u with
        cpu := { u.cpu with gN := u.cpu.gN.set 1 0x720000 }
        flume := { u.flume with vstart := 511 } })
       vCheck ms i y.wells[0] 511 = some 0x22 ∧ (y.cpu 0).eff.vtype.ebytes.toNat ∈ [1, 2, 4, 8]) := by decide +kernel
/-- An indexed load from element 3, with no interrupt and with one: element 4 opens the next group; and VSTART at the count. -/
theorem witness_FlumeMemoryAccesses_indexed :
    let s (ie : Bool) := onFlume (fun u => { u with
      cpu := { u.cpu with gN := u.cpu.gN.set 1 0x700000, exc := { u.cpu.exc with ipend := 1, ienable := 1 }, eff := { u.cpu.eff with ie := ie } }
      flume := { u.flume with vl := 5, vstart := 3, v := u.flume.v.set 2 0 } })
    let m : VMem := { kind := .indexed, store := false, tag := 0 }
    let i := ins 6 3 3 1 2 0 0
    (∀ b, ready 0 (s b) = true ∧ interruptDue ((s b).cpu 0) = b ∧ (s b).wells[0].st.pend = false) ∧
      (let x := (s true).wells[0]
       wClass i = 6 ∧ wOp i = 3 ∧ vMemLegal false i = true ∧ vIssueFault x.cpu x.flume { fp := false, mem := true, ok := fun _ => true } = none ∧
         flumeActive m i x.flume = [3, 4] ∧ 4 * (x.flume.vstart.toNat / 4 + 1) = 4 ∧ m.use x.st = none ∧ x.flume.vstart.toNat < m.count x.flume ∧
         entriesFree (s true) 0 (vSpan m i x [3, 4]).toList = true ∧ vCheck m i x 3 = none ∧
         ueHit (s true).ue (wellAddr 0 (m.addr i x.cpu x.flume 3)) (m.size x.cpu) = false ∧ m.count { x.flume with vl := 3 } ≤ x.flume.vstart.toNat) := by
  decide +kernel
theorem test_vst : after (exec (.vstVstsVstx 0 (ins 6 4 1 1 0 0 0)) (onFlume (fun u => { u with
      cpu := { u.cpu with gN := u.cpu.gN.set 1 0x700000 }
      flume := { u.flume with vl := 1 } })))
    (fun t => (List.range 5).map (fun k => t.byteAt (wellAddr 0 (0x700000 + k))) == [0, 0, 0, 0x40, 0]) = true := by decide +kernel
theorem witness_FlumeCompletes :
    let a : FlumeEntry := { addr := 8, flags := 1, gdest := some (false, 3, 9), span := none, err := none, unit := .fma, reads := [.v 1], writes := [],
                            whole := true, bytes := 2048, seq := 0 }
    let b : FlumeEntry := { a with addr := 16, gdest := none, err := some (0x21, 7), unit := .load, reads := [], writes := [.v 1], seq := 1 }
    let x : FlumeEntry := { b with err := none, unit := .integer, writes := [.v 1] }
    let s (q : List FlumeEntry) := onFlume (fun u => { u with flume := { u.flume with window := q } })
    (s [a, b]).wells[0].flume.window[(0 : Fin 8).val]? = some a ∧ (s [a, b]).wells[0].flume.window[(1 : Fin 8).val]? = some b ∧ a.err = none ∧
      a.gdest = some (false, 3, 9) ∧ b.err = some (0x21, 7) ∧ b.gdest = none ∧
      (a.unit ≠ b.unit ∧ (∀ r ∈ a.writes, r ∉ b.writes) ∧ ∀ r ∈ a.writes, r ∉ b.reads) ∧
      ([a, a][(1 : Nat)]? = some a ∧ ∃ y ∈ [a, a].take 1, y.unit = a.unit) ∧ (∃ r ∈ x.writes, r ∈ a.reads) ∧ a.whole = true ∧
      (∃ r ∈ x.writes, r ∈ b.writes) := by decide

/-! The Millrace. -/

/-- Well 0 with every bank OPEN, in scoreboard mode, and a change of its Millrace. -/
def onMr (f : Millrace → Millrace) : State := onWell (fun u => { u with
  cpu := { u.cpu with gN := (((u.cpu.gN.set 1 (putN 55 1 ||| putN 32 64)).set 4 (putN 55 1 ||| putN 32 1024 ||| putN 0 0x380000)).set 5 0x380000).set 6 0x80000 }
  st := { u.st with banks := Vector.replicate 28 .open }
  mr := f u.mr })

/-- A queue entry with the operands of `onMr`. -/
def entry (word s1 s2 s3 : W64) : MrEntry :=
  { word := word, s1 := s1, s2 := s2, s3 := s3, addr := 0x40, rm := 1, pass := 0, ctr := 0, flags := 0, fseq := 0 }

/-- `mclr`, `mmac` of tile 15 in mode 0, `mfin`, `mcomb`, `mtsave`, `mtload`; and each at-issue fault on one of them. -/
theorem witness_MillraceQueues :
    let s := onMr id
    let c := s.cpu 0
    let m := s.wells[0].mr
    let ok (i a b d : W64) : Bool := mrIssueFault m s.wells[0].st i a b d == none && entriesFree s 0 (mrSpans (modeAfter m (mrTile i)) i a b d)
    let mmac := ins 7 2 15 1 2 0 1
    ready 0 s = true ∧ c.storeBuf = [] ∧ s.wells[0].st.pend = false ∧ m.queue.length < 8 ∧ wClass mmac = 7 ∧ bitB mmac 49 = false ∧
      wOp mmac = 2 ∧ immZero mmac 8 3 = true ∧ ok mmac (c.rd 1) (c.rd 2) (c.rd 3) = true ∧
      ok (ins 7 1 0 0 0 0 0) 0 0 0 = true ∧ ok (ins 7 3 0 4 0 0 0x8000000) (c.rd 4) 0 0 = true ∧ immN (ins 7 3 0 4 0 0 0x4000000) 24 3 = 4 ∧
      ok (ins 7 4 0 0 0 0 15) 0 0 0 = true ∧ ok (ins 7 6 0 5 0 0 0) (c.rd 5) 0 0 = true ∧ ok (ins 7 7 0 6 0 0 0) (c.rd 6) 0 0 = true ∧
      mrIssueFault m s.wells[0].st (ins 7 1 0 0 0 0 (0xC * 0x4000000)) 0 0 0 = some 0x28 ∧
      mrIssueFault m s.wells[0].st (ins 7 1 1 0 0 0 (9 * 0x4000000)) 0 0 0 = some 0x29 ∧
      mrIssueFault m s.wells[0].st (ins 7 6 0 5 0 0 0) 0x6FF040 0 0 = some 0x2A ∧
      mrIssueFault { m with frozen := true } s.wells[0].st (ins 7 1 0 0 0 0 0) 0 0 0 = some 0x2F := by decide
theorem witness_MillraceControl :
    let q := [entry (ins 7 6 0 5 0 0 0) 0x380000 0 0]
    let s := onMr (fun m => { m with queue := q })
    let r2 := s.modCpu 0 (fun c => { c with eff := { c.eff with ring := 2 } })
    let f := onMr (fun m => { m with queue := q, frozen := true })
    ready 0 s = true ∧ ready 0 r2 = true ∧ (s.cpu 0).eff.ring.toNat ≤ 1 ∧ 2 ≤ (r2.cpu 0).eff.ring.toNat ∧ s.wells[0].mr.queue ≠ [] ∧
      s.wells[0].mr.frozen = false ∧ f.wells[0].mr.frozen = true ∧ s.wells[0].mr.inPass = false ∧ s.wells[0].mr.loaded = [] ∧
      (onMr (fun m => { m with queue := q, inPass := true })).wells[0].mr.inPass = true ∧
      (let i := ins 7 5 3 0 0 0 0x7F
       wClass i = 7 ∧ wOp i = 5 ∧ noS1 i = true ∧ noS2 i = true ∧ noS3 i = true ∧ immZero i 8 22 = true ∧ immN i 4 4 < 8) ∧
      (∀ k ∈ [8, 13], 8 ≤ immN (ins 7 5 3 0 0 0 (k * 16)) 4 4 ∧ immN (ins 7 5 3 0 0 0 (k * 16)) 4 4 < 0xE) ∧
      immN (ins 7 5 3 0 0 0 0xF0) 4 4 = 0xF ∧ (onMr id).wells[0].mr.queue = [] ∧
      (∀ op ∈ [8, 0x10, 0x11, 0x12, 0x13, 0x14], let i := ins 7 op 0 0 0 0 0
        wOp i = op ∧ noDest i = true ∧ noS1 i = true ∧ immZero i 0 30 = true) ∧
      (s.cpu 0).storeBuf = [] ∧ memWf s.mem = true ∧
      (let v : W64 := 0x6FFE00
       resD v = false ∧ fieldN v 0 24 % 64 = 0 ∧ fieldN v 0 24 + 512 ≤ 0x700000 ∧ banksOpen s.wells[0].st 0x6FFE00 512 = true ∧
         hitsBusy s.wells[0].mr 0x6FFE00 512 = false ∧ rangeHeld s 0 (mkSpan 0x6FFE00 512 true) = false) ∧
      (let v : W64 := 0x1FFE00
       resS v = false ∧ fieldN v 0 21 % 64 = 0 ∧ 0x300000 + fieldN v 0 21 + 512 ≤ 0x500000 ∧ banksOpen s.wells[0].st 0x4FFE00 512 = true ∧
         ueHit s.ue (wellAddr 0 0x4FFE00) 512 = false ∧ rangeHeld f 0 (mkSpan 0x4FFE00 512 false) = false ∧
         queueOfImage 0 (f.readWords (wellAddr 0 0x4FFE00) 64) = some []) := by decide +kernel
theorem witness_SavedImagesRoundTrip :
    (∀ e ∈ List.replicate 8 (entry (ins 7 7 15 6 0 0 0) 0x80000 0 0), wClass e.word = 7 ∧ wOp e.word ∈ [1, 2, 3, 4, 6, 7] ∧ bitB e.word 49 = false ∧
      e.addr.toNat % 8 = 0 ∧ e.rm.toNat ≤ 4 ∧ e.flags = 0 ∧ e.fseq = 0) ∧
    (let t := { Tile.reset with st := .active, mode := 1 }
     t.mode.toNat < 12 ∧ floatMode t.mode.toNat = false ∧ t.nan = 0 ∧ t.posInf = 0 ∧ t.negInf = 0) ∧
    (let t := { Tile.reset with st := .active, mode := 11, nan := 1 }
     t.mode.toNat < 12 ∧ floatMode t.mode.toNat = true) := by decide +kernel
/-- One row in mode 0 on an EMPTY tile, as an only pass and as the first of two; and one row of binary64 on an anchored tile. -/
theorem witness_MmacPasses :
    (∀ np ∈ [1, 2],
      let e := entry (ins 7 2 0 1 2 0 np) (putN 55 1 ||| putN 32 64) 0 0
      let s := onMr (fun m => { m with queue := [e], tiles := m.tiles.set 0 { Tile.reset with st := .empty } })
      memWf s.mem = true ∧ s.wells[0].mr.queue = [e] ∧ s.wells[0].mr.frozen = false ∧ mrOp e.word = 2 ∧ tileFault s.wells[0] e = none ∧
        mrMode e.word = 0 ∧ (opA 0 e.s1).rows = 1 ∧ 1 ≤ tileHeight 0 ∧ npassOf e.word = np) ∧
    (
      let e := entry (ins 7 2 0 1 2 0 (9 * 0x4000000 + 1)) (putN 55 1 ||| putN 32 64) 0 0
      let x := { Tile.reset with st := .active, mode := 9, anchored := true, anchor := 0 }
      let s := (onMr (fun m => { m with queue := [e], tiles := m.tiles.set 0 x }))
      memWf s.mem = true ∧ tileFault s.wells[0] e = none ∧ mrMode e.word = 9 ∧ 2 ≤ mrMode e.word ∧ (opA 9 e.s1).rows ≤ 64 ∧ x.anchored = true ∧
        (
          let d := loadPass e (ofBytes (passImage 0 e e.pass.toNat s)) 1
          ∀ r, r < 1 → ∀ c, c < 128 → ∀ p ∈ (d.a.getD r []).zip (d.b.getD c []), ∀ v ∈ panelSum 9 p.1 p.2, v.2.2 ≤ x.anchor.toInt + 222)) := by
  decide +kernel
/-- The same passes have nothing to wait for, in an integer and in a binary64 mode. -/
theorem witness_MmacPasses_clear : ∀ m ∈ [0, 9],
    let e := entry (ins 7 2 0 1 2 0 (m * 0x4000000 + 1)) (putN 55 1 ||| putN 32 64) 0 0
    passClear 0 e (onMr (fun u => { u with queue := [e], tiles := u.tiles.set 0 { Tile.reset with st := .active } })) := by
  unfold passClear tileSound; decide +kernel
/-- Each queued instruction at the head with a tile fit for it, and one whose tile is not. -/
theorem witness_MillraceStartsAndSidebandWrites :
    (
      let e := entry (ins 7 3 0 4 0 0 0x8000000) (putN 55 1 ||| putN 32 512 ||| putN 0 0x380000) 0 0
      let s := onMr (fun m => { m with queue := [e] })
      memWf s.mem = true ∧ s.wells[0].mr.queue = e :: [] ∧ s.wells[0].mr.frozen = false ∧ tileFault s.wells[0] e = some 0x29 ∧ mrOp e.word ≠ 2 ∧
        s.wells[0].flume.window = [] ∧ s.wells[0].mr.finDone = 0 ∧ s.ue = [] ∧ (opA 0 e.s1).rows ≤ tileHeight 0 ∧
        (∀ r, r < (opA 0 e.s1).rows → fieldN e.s1 0 24 + r * (opA 0 e.s1).stride + 128 * 4 ≤ 0x700000) ∧
        (
          let t := onMr (fun m => { m with queue := [e], tiles := m.tiles.set 0 { Tile.reset with st := .active } })
          tileFault t.wells[0] e = none ∧ mrOp e.word = 3 ∧ 128 * ((dfmtOf e.word).bits / 8) ≤ (opA 0 e.s1).stride ∧
            t.wells[0].st.scoreboard = true)) ∧
    tileFault (onMr id).wells[0] (entry (ins 7 1 0 0 0 0 0) 0 0 0) = none ∧ mrOp (entry (ins 7 1 0 0 0 0 0) 0 0 0).word = 1 ∧
    (∀ y ∈ [{ Tile.reset with st := .empty }, { Tile.reset with st := .active, sc := 3 }],
      let e := entry (ins 7 4 0 0 0 0 15) 0 0 0
      let u := (onMr (fun m => { m with queue := [e], tiles := (m.tiles.set 0 { Tile.reset with st := .active }).set 15 y })).wells[0]
      tileFault u e = none ∧ mrOp e.word = 4 ∧ fieldN e.word 0 4 = 15) ∧
    (
      let e := entry (ins 7 4 0 0 0 0 14) 0 0 0
      let x := { Tile.reset with st := .active, mode := 9, anchored := true, anchor := 64 }
      let u := (onMr (fun m => { m with queue := [e], tiles := (m.tiles.set 0 x).set 14 { x with anchor := 0 } })).wells[0]
      tileFault u e = none ∧ floatMode x.mode.toNat = true ∧ x.anchored = true ∧ mrTile e.word % 2 = 0 ∧ fieldN e.word 0 4 % 2 = 0) ∧
    (
      let e := entry (ins 7 6 0 5 0 0 0) 0x380000 0 0
      tileFault (onMr id).wells[0] e = none ∧ mrOp e.word = 6) ∧
    (
      let e := entry (ins 7 7 2 6 0 0 0) 0x80000 0 0
      let s := { onMr (fun m => { m with queue := [e] }) with mem := [(wellAddr 0 0x380005, 0x02)] }
      memWf s.mem = true ∧ mrOp e.word = 7 ∧ ueHit s.ue (wellAddr 0 (0x300000 + fieldN e.s1 0 21)) 4096 = false ∧
        tileOfImage (s.readWords (wellAddr 0 (0x300000 + fieldN e.s1 0 21)) 512) = some { Tile.reset with st := .active } ∧
        mrTile e.word % 2 = 0) ∧
    (∀ off ∈ [0xF08040, 0xF16C38],
      let n := (off - 0xF08000) / 0x1000
      let m := (onMr (fun m => { m with tiles := Vector.replicate 16 { Tile.reset with st := .active, mode := 6 } })).wells[0].mr
      (m.tiles.getD n Tile.reset).st ≠ .uninit ∧ floatMode (m.tiles.getD n Tile.reset).mode.toNat = true ∧ tileBusy m n = false ∧ n % 2 = 0 ∧
        8 ≤ off % 0x1000 / 8 ∧ off % 0x1000 / 8 < 392) := by
  decide +kernel

/-! Tags, banks, Pumps and translation. -/

/-- Well 0 with its banks OPEN, a full trigger window, some operands, and a change of its stores. -/
def onSt (scoreboard : Bool) (f : Stores → Stores) : State := onWell (fun u => { u with
  cpu := { u.cpu with gN := ((u.cpu.gN.set 1 0x6FFE00).set 2 512).set 3 0x6F8000 }
  mr := { u.mr with trigCount := 4096 }
  st := f { u.st with banks := Vector.replicate 28 .open, scoreboard := scoreboard } })

/-- The last slot of the P-store, full and empty, in both modes, and held by a queued `mtsave`. -/
theorem witness_TagInstructions :
    let i (op : Nat) := ins 8 op 0 1 2 0 0
    let t := onSt false id
    let u := onSt false (fun st => { st with tags := 2 ^ 14335 })
    let b := onSt true id
    let h := (onSt true id).modWell 0 (fun u => { u with mr := { u.mr with queue := [entry (ins 7 6 0 5 0 0 0) 0x6FF000 0 0] } })
    (∀ s ∈ [t, u, b, h], ready 0 s = true ∧ (s.cpu 0).storeBuf = [] ∧ s.wells[0].st.pend = false ∧ s.wells[0].st.tagBad = []) ∧
      (let p := onSt true (fun st => { st with pend := true })
       ready 0 p = true ∧ (p.cpu 0).storeBuf = [] ∧ p.wells[0].st.pend = true) ∧
      (∀ op ∈ [0x40, 0x44], wClass (i op) = 8 ∧ wOp (i op) = op ∧ noS3 (i op) = true ∧ immZero (i op) 0 30 = true ∧ noDest (i op) = true) ∧
      bankOpenAt t.wells[0].st 0x6FFE00 = true ∧ t.wells[0].st.full 14335 = false ∧
      u.wells[0].st.full 14335 = true ∧ tagReady u.wells[0].st .windlass .consume 14335 = true ∧ heldEntries b 0 = [] ∧
      ((heldEntries h 0).any (fun e => spanOverlap e.2 (mkSpan 0x6FFE00 512 false))) = true := by decide +kernel
/-- The last window of 64 slots; an offset off 512, a range past the stores, and one that is refused nowhere. -/
theorem witness_TagInstructions_ranges :
    let t := onSt false id
    let i (op : Nat) := ins 8 op 0 1 2 0 0
    slotsOf 0x6FFE00 512 = [slotOf 0x6FFE00] ∧
      (let g := ins 8 0x45 4 3 0 0 0
       noS2 g = true ∧ wOp g = 0x045 ∧ 0x6F8000 % 0x8000 = 0 ∧ 0x6F8000 + 0x8000 ≤ 0x700000 ∧
         (slotsOf 0x6F8000 0x8000).all (fun k => bankOpenAt t.wells[0].st (k.val * 512)) = true) ∧
      tagRefusal (t.cpu 0) t.wells[0].st (ins 8 0x40 0 2 2 0 0) = none ∧
      tagRefusal { t.cpu 0 with gN := (t.cpu 0).gN.set 2 1024 } t.wells[0].st (i 0x40) = some 0x700000 ∧
      tagRefusal { t.cpu 0 with gN := (t.cpu 0).gN.set 1 0x100 } t.wells[0].st (i 0x44) = some 0x100 := by decide +kernel
theorem test_tag_fill : after (exec (.tagFill 0 (ins 8 0x40 0 1 2 0 0)) (onSt false id))
    (fun t => t.wells[0].st.full 14335 && !t.wells[0].st.full 14334) = true := by decide +kernel
theorem witness_TagAndModeEvents :
    let x : Waiter := { slot := 5, agent := .flume, use := .produce }
    let s := onSt false (fun st => { st with waiters := [x], limit := 1 })
    let st := s.wells[0].st
    st.tagBad = [] ∧ st.waiters.find? (fun x => x.slot == 5 && x.use != .leaveFull && tagSuits st x.agent x.use 5) = some x ∧
      st.limit ≠ 0 ∧ st.stalled = false ∧ (∃ x ∈ st.waiters, x.slot = 5) ∧ st.scoreboard = false ∧ st.pend = false ∧ wellOfPump 2 ≠ some 0 ∧
      (let h := s.modCpu 0 (fun c => { c with running := false })
       (h.cpu 0).running = false ∧ h.wells[0].mr.queue = [] ∧ h.wells[0].flume.window = [] ∧ h.pumps[wellPump 0 0].queue = [] ∧
         h.pumps[wellPump 0 1].queue = []) ∧
      (s.cpu 0).running = true ∧ (s.cpu 0).wedged = false ∧
      (let b := onSt true (fun st => { st with pend := true, init := 2, image := 0x700000 })
       b.wells[0].st.scoreboard = true ∧ b.wells[0].st.pend = true ∧ heldEntries b 0 = [] ∧ ueHit b.ue (wellAddr 0 0x700000) 1792 = false) ∧
      fieldN 0x6 1 2 = 3 ∧ fieldN 0x2 1 2 = 1 ∧
      (∀ o ∈ [0x700000, 0x71F900], o % 64 = 0 ∧ fieldN (putN 16 o ||| 4) 16 24 = o ∧ fieldN (putN 16 o ||| 4) 1 2 = 2 ∧ 0x700000 ≤ o ∧
        o + 1792 ≤ 0x720000) ∧
      (fieldN (putN 16 0x71F940 ||| 4) 16 24 = 0x71F940 ∧ 0x720000 < 0x71F940 + 1792) := by decide +kernel
theorem witness_BankCommands :
    let s := onSt true id
    let busy := onSt true (fun st => { st with bankOp := some { cmd := .close, mask := 1, drained := false } })
    let held := (onSt true id).modWell 0 (fun u => { u with mr := { u.mr with queue := [entry (ins 7 6 0 5 0 0 0) 0x380000 0 0] } })
    memWf s.mem = true ∧ busy.wells[0].st.bankOp ≠ none ∧ s.wells[0].st.bankOp = none ∧ bankHeld s.wells[0].mr 0xFFFFFFF = false ∧
      bankHeld held.wells[0].mr 0x4000 = true ∧
      (∀ b : Bool, (onSt true (fun st => { st with bankOp := some { cmd := .off, mask := 0x8000000, drained := b } })).wells[0].st.bankOp =
        some { cmd := .off, mask := 0x8000000, drained := b }) := by decide +kernel
theorem test_bank_off : after (exec (.bankCommandComplete 0) ((onSt false (fun st => { st with
      tags := 2 ^ 14335 + 1
      bankOp := some { cmd := .off, mask := 0x8000000, drained := true } })).writeBytes (wellAddr 0 0x6FFFFF) [7]))
    (fun t => t.byteAt (wellAddr 0 0x6FFFFF) == 0 && !t.wells[0].st.full 14335 && t.wells[0].st.full 0 && t.wells[0].st.banks[27] == .off) = true := by
  decide +kernel

/-- A FILL of 8 B at the last word of the P-store and a COPY of 8 B to it, both in the submitting well. -/
def fillD : DWords := #v[0x102, 0x1122334455667788, 0x6FFFF8, 8, 0, 0, 0, 0]
def copyD : DWords := #v[0x141, 0, 0x6FFFF8, 8, 0, 0, 0, 0]
/-- A descriptor as hand-over makes it. -/
def queued (d : DWords) : Desc := mkDesc Millrace.reset d 0 0 0
/-- Well 0's P0 with a queue. -/
def onPump (scoreboard : Bool) (q : List Desc) : State := (onSt scoreboard id).modPump 0 (fun x => { x with queue := q })

/-- A descriptor in the last 64 B that ring 0 may name, the checks passed and failed, and both modes of the stores. -/
theorem witness_PumpInstructions :
    let o := 0x71FFC0
    let g (s : State) : State := (s.modCpu 0 (fun c => { c with gN := ((c.gN.set 1 0x71FFC0).set 2 0x100).set 3 0x6FFF00 })).writeWords
      (wellAddr 0 o) [0x102, 0x1122334455667788, 0x6FFFF8, 8]
    let t := g (onSt false id)
    let b := g (onSt true id)
    let c := t.cpu 0
    let m := t.wells[0].mr
    let full := onPump false (List.replicate 16 (queued fillD))
    ready 0 t = true ∧ ready 0 b = true ∧ ready 0 full = true ∧ c.storeBuf = [] ∧
      (∀ x ∈ [t, b, full], x.wells[0].st.pend = false) ∧
      (∀ op ∈ [1, 2, 0x20, 0x30, 0x31, 0x32], let i := ins 8 op 0 1 0 0 0
        wClass i = 8 ∧ wOp i = op ∧ noS2 i = true ∧ noS3 i = true ∧ noDest i = true ∧ immZero i 0 30 = true) ∧
      o % 64 = 0 ∧ o + 64 ≤ ownLimit c.drlim c.eff.ring ∧ ueHit t.ue (wellAddr 0 o) 64 = false ∧ readDesc 0 o t = fillD ∧
      dRefused fillD c.eff.ring c.drlim m.trigCount = false ∧ dRefused #v[0x100, 0, 0, 0, 0, 0, 0, 0] 0 c.drlim m.trigCount = true ∧
      t.wells[0].st.scoreboard = false ∧ b.wells[0].st.scoreboard = true ∧ t.pumps[wellPump 0 0].queue.length < 16 ∧
      16 ≤ full.pumps[wellPump 0 0].queue.length ∧ b.pumps[wellPump 0 0].abortHand = false ∧ cutPending b 0 = false ∧ dHas fillD false = false ∧
      dMode fillD true ≠ 0 ∧ entriesFree b 0 (endSpans b 0 [] false ++ endSpans b 0 (plainRanges b 0 fillD true) true) = true ∧
      (c.rd 2).toNat % 256 = 0 ∧ c.rd 2 ≠ 0 ∧ dRefused (czeroDesc 0x6FFF00 0x100) c.eff.ring c.drlim m.trigCount = false ∧
      c.eff.ring = 0 ∧ t.invals.length < 4 ∧ (4095 : Nat) < m.trigCount.toNat ∧ m.trigCount.toNat ≤ (4096 : W64).toNat ∧
      (let k := t.counters[(m.trigBase + (0 : BitVec 12)).toFin]
       k.sat = false ∧ (0 : W64).toNat ≤ k.value.toNat ∧ k.value.toNat < (1 : W64).toNat) ∧
      1 ≤ (65535 : W64).toNat ∧ (65535 : W64).toNat ≤ 65535 ∧ 65535 < (65536 : W64).toNat := by decide +kernel
theorem witness_PumpEvents :
    let f : Desc := { queued fillD with started := true }
    let cp : Desc := { queued copyD with started := true }
    let v : Desc := { queued #v[0x002, 0, 0x100, 8, 0, 0, 0, 0] with started := true }
    let e : TlbEntry := { asid := 0, big := false, page := 0, frame := 0, rights := 7 }
    (∀ d ∈ [queued fillD, f, cp, v], memWf (onPump false [d]).mem = true ∧ (onPump false [d]).wellOn 0 = true ∧
      (onPump false [d]).dieClocked = true ∧ issuing (onPump false [d]).pumps[wellPump 0 0] = some d ∧ d.asking false = false ∧
      d.asking true = false ∧ d.waitCut = false) ∧
      (let d := queued fillD
       d.started = false ∧ dWaitc d.words = false ∧ dOrd d.words = false ∧ sideHolds d false (dAddr d.words false 0 0) = true ∧
         sideHolds d true (dAddr d.words true 0 0) = true ∧ startError (onPump false [d]) (wellPump 0 0) d = none ∧
         dVirtual d false = false ∧ dVirtual d true = false) ∧
      (∀ d ∈ [f, cp], let s := onPump false [d]
        let g := nextAccess d
        g.n = 8 ∧ g.dst = 0x6FFFF8 ∧ sideHolds d true g.dst = true ∧ sideHolds d false g.src = true ∧ dMode d.words true = 1 ∧
          g.dst + g.n ≤ 0x700000 ∧ storeRefusal s 0 g.dst g.n true = none ∧ outsideEntries s (wellPump 0 0) d 0 g.dst g.n true = false ∧
          tagUse d.words true = none) ∧
      (let s := onPump false [cp]
       let g := nextAccess cp
       g.src = 0 ∧ dMode cp.words false = 1 ∧ storeRefusal s 0 0 8 true = none ∧ outsideEntries s (wellPump 0 0) cp 0 0 8 false = false ∧
         tagUse cp.words false = none ∧ ueHit s.ue (wellAddr 0 0) 8 = false ∧
         endsOverlap cp g (globalOf s 0 cp false 0) (globalOf s 0 cp true g.dst) = false) ∧
      dKind fillD = 2 ∧ dKind copyD = 1 ∧
      (let s := (onPump false [v]).modFront (frontOfPump (wellPump 0 0)) (fun x => { x with tlb := [e] })
       sideHolds v false (nextAccess v).src = true ∧ sideHolds v true (nextAccess v).dst = false ∧
         recordFor s.fronts[frontOfPump (wellPump 0 0)] 0 0x100 = none ∧ tlbFind s.fronts[frontOfPump (wellPump 0 0)] 0 0x100 = some e ∧ rightsHold e.rights (dNeed v.words true) = true) ∧
      dTotal f.words ≤ ({ f with pos := 8 } : Desc).pos ∧ f.remote = 0 ∧ f.err = none ∧ ({ f with err := some 0x08 } : Desc).err = some 0x08 := by
  decide +kernel
/-- R274: the last 8 B of the P-store take the FILL's pattern. -/
theorem test_pump_fill : after (exec (.pumpAccessIssue 0) (onPump false [{ queued fillD with started := true }]))
    (fun t => t.readBytes (wellAddr 0 0x6FFFF6) 10 == [0, 0, 0x88, 0x77, 0x66, 0x55, 0x44, 0x33, 0x22, 0x11]) = true := by decide +kernel
theorem witness_TranslationEvents :
    let rq : Requester × BitVec 3 := (.pump 0 0 true false, 2)
    let q : Walk := { asid := 0, va := 0, reqs := [rq] }
    let wc : WalkEntry := { asid := 0, level := 2, pre := 0, next := 0 }
    let s (m : List Host.Cell) : State := { ({ (onPump false [queued fillD]) with stackMask := 0xFFFFFF }.modStack 0 (fun c => { c with trained := true })).modFront 0
      (fun x => { x with walks := [q], walkCache := [wc] }) with mem := m }
    let s0 (m : List Host.Cell) : State := (s m).modFront 0 (fun x => { x with walks := [] })
    (s []).fronts[(0 : FrontId)].walks = [q] ∧ q.reqs = [rq] ∧ (s []).basinMode = 0 ∧ (on id).fronts[(0 : FrontId)].walks = [] ∧
      (on id).fronts[(0 : FrontId)].waiters = [] ∧ (on id).invals = [] ∧ (walkTable 0 0 0 (s0 [(0, 0x73)])).1 = .leaf false 0 7 3 ∧ rightsHold 7 2 = true ∧
      (walkTable 0 0 0 (s0 [])).1 = .fail 1 3 ∧ recordFor (walkTable 0 0 0 (s0 [])).2.fronts[(0 : FrontId)] 0 0 = none ∧
      freeRecord (walkTable 0 0 0 (s0 [])).2.fronts[(0 : FrontId)] = some 0 ∧
      (let r : FaultRec := { ftype := 1, rights := 2, level := 3, asid := 5, va := 0x8000000, held := [], fetches := 0, joins := 0 }
       let t := (s []).modFront 0 (fun x => { x with records := x.records.set 63 (some r) })
       t.fronts[(0 : FrontId)].records[(63 : Fin 64)] = some r ∧ granuleOf r.va = 2 ∧ t.fronts[(0 : FrontId)].records[(62 : Fin 64)] = none) ∧
      (let v : Inval := { asid := 0, ctr := none, well := some 0, cut := false, tags := [] }
       { s [] with invals := [v] }.invals.find? (fun v => !v.cut) = some v ∧ { v with cut := true }.cut = true ∧ v.tags = []) := by decide +kernel

/-! The Cistern and the stage time base. -/

/-- The device with every stack trained. -/
def onStacks : State := { on id with stackMask := 0xFFFFFF, stks := (on id).stks.map (fun c => { c with trained := true }) }

/-- The first byte and the last sector of stack memory; a fill there with and without ways in CACHE. -/
theorem witness_CisternAccesses :
    let c : State := onStacks.modHalf 0 (fun x => { x with frames := Vector.replicate 16 .cache })
    let q (sector : Nat) : StackReq := { sector := sector, merge := false, cls := .normal, passed := 0 }
    (∀ s ∈ [onStacks, c], memWf s.mem = true ∧ s.prot = [] ∧ s.capturing = [] ∧ centralRefusal s 0 = none ∧
      centralRefusal s 0x17FFFFFFFC0 = none ∧ (sectorRead .normal 0 s).1 = false ∧ s.stErr = [] ∧ lineAt s 0 = none ∧
      (∀ n : StackId, s.stks[n].queue = [])) ∧
      (sectorRead .normal 0 { onStacks with stErr := [(0, .symbols)] }).1 = true ∧ placeOf 0 = .stack 0 ∧ halfOfStack 0 = 0 ∧
      (c.modStack 0 (fun x => { x with queue := [q 4, q 0] })).stks[(0 : StackId)].queue.filter
        (fun x => pseudoChannel (x.sector * 64) == pseudoChannel (0 / 64 * 64)) = [q 0] ∧ (q 0).sector = 0 / 64 ∧
      cacheWays c.halves[halfOfStack 0] (sliceOf 0) ≠ [] ∧ cacheWays onStacks.halves[halfOfStack 0] (sliceOf 0) = [] := by decide +kernel
/-- R297: fetch-and-add at the last word of a sector. -/
theorem test_cistern_atomic : after (exec (.cisternAccess { addr := 60, kind := .atomic .add 5 0, cls := .normal }) (onStacks.writeBytes 56 [0xFF]))
    (fun t => t.readBytes 55 4 == [0, 4, 1, 0]) = true := by decide +kernel
theorem witness_CisternCommands :
    let s (f : FrameState) : State := (on id).modHalf 1 (fun x => { x with frames := Vector.replicate 16 f })
    let ok (cmd : FrameState → Bool) (f : FrameState) : Bool := decide (∀ k : Fin 16, cmd (s f).halves[(1 : HalfId)].frames[k] = true)
    memWf (s .off).mem = true ∧ ok (fun f => f == .scratch) .scratch = true ∧
      ok (fun f => f == .cache || f == .scratch || f == .closed) .cache = true ∧ ok (fun f => f == .scratch || f == .closed) .closed = true ∧
      ok (fun f => f == .cache || f == .off) .off = true ∧ ok (fun f => f == .closed) .closed = true ∧ ok (fun f => f == .scratch) .off = false ∧
      (s .off).basinMode = 0 ∧ (∀ f, f < 8 → (0x8181 : BitVec 16).getLsbD f = (0x8181 : BitVec 16).getLsbD (8 + f)) ∧
      ¬ (∀ f, f < 8 → (0x8000 : BitVec 16).getLsbD f = (0x8000 : BitVec 16).getLsbD (8 + f)) ∧ (s .off).halves[(1 : HalfId)].op = none ∧
      (s .off).halves[(1 : HalfId)].maint = none ∧ halfOfStack 23 = 1 ∧ halfOfStack 0 ≠ 1 ∧
      (let t := (s .off).modHalf 1 (fun x => { x with op := some { cmd := .clear, mask := 0x8080, drained := true }, maint := some true })
       t.halves[(1 : HalfId)].op = some { cmd := .clear, mask := 0x8080, drained := true } ∧ t.halves[(1 : HalfId)].maint = some true ∧
         t.basinMode ≠ 2) ∧
      (s .off).domain (36 + (23 : StackId).val / 6) = true ∧
      (let a : WeirPath := { half := 0, point := 3, dir := 1 }
       weirExists a = true ∧ { s .off with basinMode := 1 }.basinMode ≠ 0 ∧
         (let w : Weir := { Weir.reset with en := true, ceil := 0x100, floor := 0x100 }
          w.floor.toNat ≤ w.ceil.toNat ∧ w.ceil.toNat ≤ 0x100 ∧ (s .off).weirs[weirIndex a 1].en = false) ∧
         ¬ ({ Weir.reset with ceil := 0x101 } : Weir).ceil.toNat ≤ 0x100 ∧
         (let t := { s .off with weirs := (s .off).weirs.set (weirIndex a 0) { Weir.reset with en := true, queue := [(.walk 0, 4704)] } }
          t.weirs[weirIndex a 0].en = true ∧ t.weirs[weirIndex a 0].queue ≠ [] ∧ t.weirs[weirIndex a 1].en = false)) := by decide +kernel
theorem test_frame_clear_zeroes : after (exec (.frameCommandComplete 1) ((((on id).modHalf 1 (fun x => { x with
      frames := Vector.replicate 16 .changing
      op := some { cmd := .clear, mask := 0x8080, drained := true } })).writeBytes 0x2003FFFFFFF [9]).writeBytes 0x2003BFFFFFF [8]))
    (fun t => t.byteAt 0x2003FFFFFFF == 0 && t.byteAt 0x2003BFFFFFF == 8 && t.halves[(1 : HalfId)].frames[7] == .scratch) = true := by decide +kernel

/-- A member (role 1) or master of stage group 7 in epoch 3, at NUMBER 9 and ATTEMPT 1. -/
def onStage (f : Stage → Stage) : State :=
  let s := on id
  { s with
    stg := f { s.stg with role := 1, group := 7, number := 9, attempt := 1, sync := 2, lastKind := 2, t := 0x1000, marked := true }
    far := { s.far with groups := s.far.groups.set 0 { Group.reset with inUse := true, gid := 7, epoch := 3, members := [0, 5] } } }
/-- A stage message of that group from device 5, one hop away. -/
def msg (kind attempt : Nat) (number : W64) : StageMsg :=
  { w0 := putN 0 kind ||| putN 8 attempt ||| putN 16 5 ||| putN 32 1 ||| putN 40 7, w1 := number, w2 := 3, w3 := 0 }

/-- The next ADVANCE, the next REPEAT, the same mark again and one that is none of these; SYNC SEARCH, SYNCED and LOST; each SOURCE. -/
theorem witness_StageMarks :
    let s := onStage id
    let form (m : StageMsg) (rep : Bool) : Bool := decide (fieldN m.w0 0 4 = (if rep then 2 else 1) ∧ fieldN m.w0 4 4 = 0 ∧ fieldN m.w0 56 8 = 0 ∧
      fieldN m.w2 32 32 = 0 ∧ m.w3 = 0 ∧ m.w0.extractLsb' 40 16 = s.stg.group)
    s.stg.role = 1 ∧ form (msg 1 0 10) false = true ∧ form (msg 2 2 9) true = true ∧ form (msg 1 0 10) true = false ∧
      pendingAt s (msg 1 0 10) = none ∧ epochCurrent s (msg 1 0 10) = true ∧ epochCurrent s { msg 1 0 10 with w2 := 4 } = false ∧ s.stg.source = 0 ∧
      (let g := s.stg
       g.sync = 2 ∧ (10 : W64) = g.number + 1 ∧ (2 : BitVec 8).toNat = g.attempt.toNat + 1 ∧ g.lastKind = 2 ∧ (12 : W64) ≠ g.number + 1 ∧
         (12 : W64) ≠ g.number) ∧
      (onStage (fun g => { g with sync := 1 })).stg.sync = 1 ∧ (onStage (fun g => { g with sync := 3 })).stg.sync = 3 ∧
      (let h := onStage (fun g => { g with source := 2 })
       h.stg.source = 2 ∧ h.stg.byWire = false ∧ pendingAt h (msg 1 0 10) = none ∧ epochCurrent h (msg 1 0 10) = true) ∧
      (onStage (fun g => { g with source := 1 })).stg.source = 1 ∧ (0x1000 : W64) = BitVec.ofNat 64 ((0x1000 : W64).toNat - s.stg.wirecomp.toNat) ∧
      wireCrc ((0 : BitVec 100).extractLsb' 16 76) ≠ (0 : BitVec 100).extractLsb' 0 16 ∧
      (let m : Mark := { rep := false, number := 10, attempt := 0, time := 0x1000 }
       (onStage (fun g => { g with held := [m] })).stg.held = m :: [] ∧ sameMark m m = true ∧ s.stg.held = []) := by decide +kernel
theorem witness_StageMaster :
    let m2 := onStage (fun g => { g with role := 2, expected := [5], ackedBy := [] })
    let all := onStage (fun g => { g with role := 2, expected := [5], ackedBy := [5] })
    let out_ := onStage (fun g => { g with role := 3, attempt := 3, maxrep := 3 })
    (∀ s ∈ [onStage id, m2, all, out_], s.stg.sync = 2 ∧ groupOf s s.stg.group = some 0 ∧ s.far.groups[(0 : Fin 64)].pend = none ∧
      s.stg.halted = false) ∧ (onStage (fun g => { g with role := 2, halted := true })).stg.halted = true ∧
      (onStage id).stg.role = 1 ∧ m2.stg.role = 2 ∧ m2.stg.attempt.toNat + 1 ≤ m2.stg.maxrep.toNat ∧ 5 ∈ m2.stg.expected ∧
      out_.stg.role = 3 ∧ out_.stg.maxrep.toNat < out_.stg.attempt.toNat + 1 ∧
      all.stg.expected ≠ [] ∧ all.stg.expected.all (fun d => all.stg.ackedBy.contains d) = true ∧ 1000 * all.stg.minstep.toNat ≤ all.stg.t.toNat - all.stg.tmark.toNat ∧
      all.stg.deadline = 0 ∧ ¬ 0 < 3 * all.stg.l.toNat ∧
      msgFormOk m2 (msg 3 1 10) = true ∧ mKind (msg 3 1 10) = 3 ∧ epochCurrent m2 (msg 3 1 10) = true ∧ (10 : W64) = m2.stg.number + 1 ∧
      mAttempt (msg 3 1 10) = m2.stg.attempt ∧ mSender (msg 3 1 10) ∈ m2.stg.expected ∧ mAttempt (msg 3 2 10) ≠ m2.stg.attempt ∧
      msgFormOk m2 (msg 4 1 9) = true ∧ mKind (msg 4 1 9) = 4 ∧ (msg 4 1 9).w1 = m2.stg.number ∧ (msg 4 1 8).w1 ≠ m2.stg.number := by decide +kernel
/-- A deadline of 4 us that is due and one of 5 us that is not, at 4,096 ns; and the default of three steps of 1,024 ns. -/
theorem witness_StageMaster_due :
    let g (d : BitVec 24) : Stage := { Stage.reset with role := 2, sync := 2, l := 0x400, deadline := d, t := 0x1000 }
    (g 0).deadline = 0 ∧ 0 < 3 * (g 0).l.toNat ∧ 3 * (g 0).l.toNat ≤ (g 0).t.toNat - (g 0).tmark.toNat ∧ (g 4).deadline ≠ 0 ∧
      1000 * (g 4).deadline.toNat ≤ (g 4).t.toNat - (g 4).tmark.toNat ∧ ¬ 1000 * (g 5).deadline.toNat ≤ (g 5).t.toNat - (g 5).tmark.toNat := by decide
theorem witness_StagePhaseAndSlots :
    let x : Firing := { slot := 255, w0 := putN 56 3, w2 := 0x10005, number := 9, attempt := 1 }
    let s := onStage (fun g => { g with l := 0x100, timeout := 1, tmark := 0xF80, dispatch := [x] })
    s.stg.role ≠ 0 ∧ s.stg.marked = true ∧ s.stg.sync = 2 ∧ s.stg.l ≠ 0 ∧ s.stg.timeout ≠ 0 ∧ s.stg.late = false ∧
      s.stg.timeout.toNat * s.stg.l.toNat < 4 * (s.stg.t.toNat - s.stg.tmark.toNat) ∧ (on id).stg.role = 0 ∧
      (onStage (fun g => { g with late := true })).stg.late = true ∧ (onStage (fun g => { g with l := 0 })).stg.l = 0 ∧
      s.stg.dispatch = x :: [] ∧ fieldN x.w0 56 4 = 3 ∧ (254 : Fin 256) ≠ x.slot ∧
      slotWriteOk 0x7FFFFFFFFFFFFFFF 0 = true ∧ slotWriteOk 0xB000000000000000 0 = false ∧ (onStage (fun g => { g with sync := 1 })).stg.sync ≠ 2 ∧
      s.stg.slots[(255 : Fin 256)].p0 = none ∧ s.stg.slots[(255 : Fin 256)].p2 = none ∧
      (putN 62 1 ||| putN 32 7 : W64).extractLsb' 62 2 = s.stg.role ∧ (putN 62 1 ||| putN 32 7 : W64).extractLsb' 32 16 = s.stg.group ∧
      (onStage (fun g => { g with sync := 3 })).stg.sync = 3 ∧ (putN 62 1 ||| putN 32 8 : W64).extractLsb' 32 16 ≠ s.stg.group := by decide +kernel

/-! Faranaor. -/

/-- A flit of zeros with its CRC. -/
def flit (hdr : W64) : Flit := { hdr := hdr, body := List.replicate 244 0, crc := crc32c (wordBytes hdr ++ List.replicate 244 0), fecBad := false }
/-- Device 4 of its fabric with link 35 changed. -/
def onLink (f : Link → Link) : State := { (on id).modLink 35 f with devValid := true, devId := 4 }
/-- A link in ACTIVE with a credit. -/
def act (k : Link) : Link := { k with state := .active, credits := Vector.replicate 5 8 }
/-- A packet's header. -/
def pkt (kind vc : Nat) (dst : BitVec 16) (len addr : Nat) (data : List Byte) : Packet := mkPacket kind vc 0 5 dst 9 len 0 addr data

set_option maxRecDepth 200000 in
/-- Bad flits of each kind; DATA in and out of order; IDLE and MAINT; a NAK at 7 and at 0; a slot for each kind of flit; a packet of no
data in a flit. -/
theorem witness_FaranaorFlits :
    let s := onLink act
    let k := s.far.links[(35 : LinkId)]
    let good (f : Flit) : Bool := decide (f.fecBad = false ∧ f.crc = crc32c (wordBytes f.hdr ++ f.body) ∧ fType f ≠ 0 ∧ fType f ≤ 4)
    let data := flit (putN 60 1 ||| putN 57 4 ||| putN 14 63)
    let sent : SentFlit := { seq := 0, flit := data }
    s.linkOn 35 = true ∧ k.state = .active ∧ (onLink id).far.links[(35 : LinkId)].state ≠ .active ∧
      (flit 0).fecBad = false ∧ fType (flit 0) = 0 ∧ 4 < fType (flit (putN 60 5)) ∧ good data = true ∧ fType data = 1 ∧ fSeq data = k.expSeq ∧
      fNak data = false ∧ fVc data = (4 : Fin 5).val ∧ k.enc = false ∧ fPstart data = 63 ∧ k.rxRem[(4 : Fin 5)] = [] ∧
      (let f := flit (putN 60 1 ||| putN 45 0xFFF)
       good f = true ∧ fSeq f ≠ k.expSeq) ∧
      (∀ ty ∈ [2, 3], good (flit (putN 60 ty)) = true ∧ fType (flit (putN 60 ty)) = ty ∧ fNak (flit (putN 60 ty)) = false) ∧
      (let f := flit (putN 60 2 ||| putN 32 1)
       good f = true ∧ fNak f = true ∧ fSeq f = k.expSeq ∧ fAck f = sent.seq ∧ k.nakSeq = fAck f) ∧
      (onLink (fun k => { act k with replay := [sent], nakCount := 7, sinceMaint := 511 })).far.links[(35 : LinkId)].nakCount = 7 ∧
      (let g := (onLink (fun k => { act k with replay := [sent], resend := 1, sinceMaint := 510 })).far.links[(35 : LinkId)]
       g.sinceMaint < 511 ∧ g.resend ≠ 0 ∧ g.resend ≤ g.replay.length) ∧
      (let g := (onLink (fun k => { act k with txq := k.txq.set 0 [(0, .packet (pkt 1 0 5 8 0 []))] })).far.links[(35 : LinkId)]
       g.resend = 0 ∧ waits g 0 none = true ∧ 0 < g.credits[(0 : Fin 5)] ∧ g.replay.length < 512 ∧ g.win0 < g.cap0.toNat) ∧
      s.basinMode = 0 ∧ (∀ v : Fin 5, waits k v none = false) ∧ k.retrainDue = false ∧
      (let g := (onLink (fun k => { act k with retrainDue := true })).far.links[(35 : LinkId)]
       g.retrainDue = true ∧ g.replay = [] ∧ ∀ v : Fin 5, g.txq[v] = [] ∧ g.txRem[v].2 = []) ∧
      (∀ st ∈ [LinkState.training, .retrain], let g := (onLink (fun k => { act k with state := st, step := 4 })).far.links[(35 : LinkId)]
       (g.state = .training ∨ g.state = .retrain) ∧ g.step = 4) ∧
      (let q := pkt 1 0 4 8 0 []
       let body := wordBytes q.w0 ++ wordBytes q.w1 ++ q.data ++ List.replicate 228 0
       let hdr := putN 60 1
       let f : Flit := { hdr := hdr, body := body, crc := crc32c (wordBytes hdr ++ body), fecBad := false }
       f.crc = crc32c (wordBytes f.hdr ++ f.body) ∧ fType f = 1 ∧ fVc f = 0 ∧ fPstart f = 0 ∧ pKind q = 1 ∧ forUs s q = true ∧ q.data.length ≤ 228) := by
  decide +kernel
/-- CRC-32C of the nine ASCII digits, the check value of its standard. -/
theorem test_crc32c : crc32c [0x31, 0x32, 0x33, 0x34, 0x35, 0x36, 0x37, 0x38, 0x39] = 0xE3069283 := by decide +kernel
set_option maxRecDepth 200000 in
theorem witness_FaranaorLinks :
    let train (body : List Byte) : Flit :=
      let hdr := putN 60 4
      { hdr := hdr, body := body ++ List.replicate 224 0, crc := crc32c (wordBytes hdr ++ (body ++ List.replicate 224 0)), fecBad := false }
    let b (v dev fab : Byte) : List Byte := [v, 0, dev, 0] ++ List.replicate 12 0 ++ [fab, 0, 0, 0]
    let ok (f : Flit) : Bool := decide (f.crc = crc32c (wordBytes f.hdr ++ f.body) ∧ fType f = 4 ∧ f.body.length = 244)
    let at_ (f : Link → Link) : Link := (onLink f).far.links[(35 : LinkId)]
    (∀ st : Fin 5, (onLink (fun k => { k with step := st })).linkOn 35 = true) ∧ (onLink id).far.links[(35 : LinkId)].state = .disabled ∧
      (at_ (fun k => { k with state := .down })).retryMs ≠ 0 ∧ (at_ (fun k => { k with state := .down, retryMs := 0 })).retryMs = 0 ∧
      (∀ n : Fin 5, (at_ (fun k => { k with state := .training, step := n })).step = n) ∧
      (at_ (fun k => { k with peerTrain := some (true, true, 0), encReq := true })).peerTrain = some (true, true, 0) ∧
      (∀ i : Fin 4, (at_ (fun k => { k with keys := Vector.replicate 4 (some { key := 0, salt := 0 }) })).keys[i].isSome = true) ∧
      (∀ i : Fin 2, (at_ (fun k => { k with peerReady := Vector.replicate 2 true })).peerReady[i] = true) ∧
      (onLink id).far.fabric = 0 ∧ (onLink id).far.cfgId = 0 ∧ ok (train (b 1 7 0)) = true ∧ (train (b 1 7 0)).body.getD 0 0 = 1 ∧
      ofBytes (((train (b 1 7 0)).body.drop 16).take 4) = 0 ∧ ofBytes (((train (b 1 7 0)).body.drop 2).take 2) = 7 ∧
      ok (train (b 2 7 0)) = true ∧ ofBytes (((train (b 1 7 9)).body.drop 16).take 4) ≠ 0 ∧ ofBytes (((train (b 1 0 0)).body.drop 2).take 2) = 0 ∧
      (at_ act).state = .active ∧ (at_ (fun k => { k with state := .retrain })).state = .retrain ∧
      (∀ g : Fin 64, (onLink id).far.groups[g].inUse = false) ∧ (10 : Nat) < 11 ∧ (0xFC7B : BitVec 16).toInt < -900 ∧
      (0xFB4F : BitVec 16).toInt < -1200 ∧ -1200 ≤ (0xFB50 : BitVec 16).toInt := by decide +kernel
/-- Device 4, tag service with open banks in well 0, an ingress window over all its memory for any source, and link 35 to device 6. -/
def onFar : State :=
  let s := onSt false id
  let s := { s with devValid := true, devId := 4, stackMask := 0xFFFFFF, stks := s.stks.map (fun (c : StackCtl) => { c with trained := true }) }
  (s.modLink 35 act).modFar (fun x => { x with
    routes := [(6, putN 62 2 ||| putN 24 35 ||| putN 16 0x3F ||| putN 8 0x3F ||| 0x3F)]
    ingress := x.ingress.set 0 { base := 0, limit := 0xFFFFFFFFFFF, valid := true, rights := 7, basin := 0, anysrc := true, group := 0 } })
theorem witness_FaranaorPacketsMoveMemory :
    let s := onFar
    let pa := wellAddr 0 0x6FFFF8
    let rd := pkt 1 0 4 8 pa []
    let wr := pkt 2 0 4 8 pa [1, 2, 3, 4, 5, 6, 7, 8]
    let at_ := pkt 3 0 4 24 0 (1 :: List.replicate 23 0)
    let rq : RemoteReq := { tag := 9, pump := 0, seq := 0, link := 35, dev := 5, bytes := 8, dest := none, ret := none }
    let r := s.modFar (fun x => { x with remote := [rq] })
    forUs s (pkt 1 0 6 8 0 []) = false ∧ bitB (routeWord s 6) 63 = true ∧ (usable s 6)[0]? = some 35 ∧
      pHops (pkt 1 0 6 8 0 []) + 1 ≤ s.far.maxhop.toNat ∧ forUs s rd = true ∧ s.prot = [] ∧ memWf s.mem = true ∧
      admitted s 1 5 pa 8 = true ∧ admitted s 2 5 pa 8 = true ∧ outsideRefusal s pa 8 = none ∧ outsideRefusal s (wellAddr 1 0) 8 ≠ none ∧
      admitted s 1 5 (wellAddr 1 0) 8 = true ∧ ueHit s.ue pa 8 = false ∧ ueHit s.ce pa 8 = false ∧ placeOf pa = .well 0 0x6FFFF8 ∧
      pAddr rd = pa ∧ pAddr wr = pa ∧ admitted (onLink id) 1 5 pa 8 = false ∧
      placeOf 0 = .stack 0 ∧ admitted s 3 5 0 8 = true ∧ aopOf ((at_.data.headD 0).toNat % 16) = some .add ∧
      (sectorRead .normal 0 s).1 = false ∧ s.basinMode = 0 ∧ outsideRefusal s 0 8 = none ∧ s.domain 41 = true ∧ s.domain 43 = true ∧
      (∀ y ∈ s.far.waiting, pSrc y.2 ≠ 5) ∧
      (let d := { s with domainOn := 0x5FFFFFFFFFF }
       d.domain 41 = false ∧ d.domain 43 = false ∧ forUs d rd = true ∧ admitted d 1 5 pa 8 = true ∧ admitted d 2 5 pa 8 = true) ∧
      (let d := s.modFar (fun x => { x with waiting := [(0, wr)] })
       forUs d rd = true ∧ ∃ y ∈ d.far.waiting, pSrc y.2 = pSrc rd) ∧
      (let d := { s with basinMode := 1 }
       d.domain (if ioOf d wr = 0 then 41 else 43) = true ∧ admitted d 2 (pSrc wr) pa 8 = true ∧ outsideRefusal d pa 8 = none ∧
         (packetCross (ioOf d wr) wr 8 false d).1 = false) ∧ r.far.remote.find? (fun y => y.tag == 9 && y.dev == 5) = some rq ∧
      (∀ f ∈ [0, 1, 2, 3], pFlow (mkPacket 4 2 0 5 4 9 0 f 0 []) = f) ∧ s.far.remote.find? (fun y => y.tag == 9) = none := by decide +kernel
theorem witness_FaranaorMessages :
    let s := onStage (fun g => { g with role := 1 })
    let s := { s with devValid := true, devId := 0 }
    let p : PendEpoch := { epoch := 4, stage := 20, list := 0, members := [0, 5], master := 0, oks := [0], moves := 0 }
    let t := s.modGroup 0 (fun x => { x with pend := some p })
    let q (k : Byte) := pkt 6 3 0 32 0 (k :: List.replicate 31 0)
    let key : CoalKey := { dev := 5, unit := 0x6010, cls := 0x03, stage := s.stageNumber }
    let e : Coal := { delivered := false, evt := none, cls := 3, dev := 5, unit := 0x6010, stage := s.stageNumber, count := 0xFFFFFFFF, firstDev := 0,
                      lastDev := 0, firstT := 0, lastT := 0 }
    (∀ k ∈ [1, 4], forUs s (q (BitVec.ofNat 8 k)) = true ∧ (q (BitVec.ofNat 8 k)).data.length = 32 ∧ mKind (stageOfBytes (q (BitVec.ofNat 8 k)).data) = k) ∧
      forUs s (pkt 5 3 0 8 0 [0x11, 0, 0, 5, 0, 0, 0, 0]) = true ∧ s.stg.role ≠ 2 ∧ s.stg.role ≠ 3 ∧
      (let u := s.modCf (fun c => { c with coal := c.coal.set 0 (some e) })
       coalFind u key = some 0 ∧ u.cf.coal[(0 : Fin 4096)] = some e) ∧
      s.cf.coal[(4095 : Fin 4096)] = none ∧ groupOf s 7 = some 0 ∧ s.far.groups[(0 : Fin 64)].epoch + 1 = 4 ∧ s.far.groups[(0 : Fin 64)].epoch + 1 ≠ 5 ∧
      s.far.groups[(0 : Fin 64)].pend = none ∧ groupOf s 8 = none ∧ s.devId ∈ [(0 : BitVec 16), 5] ∧ s.devId ∉ [(5 : BitVec 16)] ∧
      s.far.groups[(63 : Fin 64)].inUse = false ∧ groupOf t 7 = some 0 ∧ t.far.groups[(0 : Fin 64)].master = s.devId ∧
      t.far.groups[(0 : Fin 64)].pend = some p ∧ p.epoch = 4 ∧ (5 : BitVec 16) ∉ p.oks ∧ t.far.groups[(0 : Fin 64)].members ≠ [] := by decide +kernel

/-! Confluence. -/

/-- An access of an engine that is answered. -/
def isOk {α : Type} (r : EngRes α) : Bool := match r with | .ok _ _ => true | _ => false
/-- An access of an engine that waits, and one that ends with a status. -/
def isHold {α : Type} (r : EngRes α) : Bool := match r with | .hold _ => true | _ => false
def isBad {α : Type} (r : EngRes α) : Bool := match r with | .bad _ _ => true | _ => false
/-- The state after an access that is answered. -/
def okState {α : Type} (r : EngRes α) (d : State) : State := match r with | .ok _ s => s | _ => d

/-- A descriptor for group 7 of one INT32 sum, with source at VA 0, destination 64 and status record 128. -/
def collD (kind op ty chan count : Nat) : OWords :=
  #v[putN 0 kind ||| putN 4 op ||| putN 8 ty ||| putN 12 1 ||| putN 24 chan ||| putN 32 7, w64 count, 0, 64, putN 32 1, 0, 128, 0]
def collOp (phase : OpPhase) (d : OWords) : CollOp :=
  { id := 0, words := d, queue := 0, wthr := 1, phase := phase, status := 0, word1 := 0, seq := 0, ran := (9, 1), got := none, round := 0,
    agreed := [], passed := [], sig0 := 0 }
/-- Group 7 of two members, this device at rank 0, VA page 0 mapped to stack memory for the engines, and engine 0 with one operation. -/
def onEng (ops : List CollOp) (f : Group → Group) : State :=
  let e : TlbEntry := { asid := 0, big := false, page := 0, frame := 0, rights := 7 }
  let s := { (onStage id) with devValid := true, stackMask := 0xFFFFFF, stks := (onStage id).stks.map (fun (c : StackCtl) => { c with trained := true }) }
  ((s.modGroup 0 f).modEng 0 (fun x => { x with
    ops := ops
    queues := x.queues.set 15 { w0 := 0xC000000000000000 ||| 0x700000, w1 := 0xFFF, consumed := 0 } })).modFront 4 (fun x => { x with tlb := [e] })

/-- A counter that takes an addition, one that reaches its top, one that is SAT and one of no job; the last entry of a post queue's
descriptor space; a threshold reached. -/
theorem witness_CountersAndQueues :
    let job (s : State) : State := { s with jobs := s.jobs.set 31 { Job.reset with state := .running, ctrBase := 0, ctrCount := 1 } }
    let s := { job (onEng [] id) with inflight := [.inc (.well 1) 5 1, .inc (.well 0) 0 0xFFFFFFFF, .get 0 0] }
    let c (v : BitVec 32) (sat : Bool) : State := { s with counters := s.counters.set 0 { value := v, sat := sat, staged := false } }
    s.inflight = [.inc (.well 1) 5 1] ++ .inc (.well 0) 0 0xFFFFFFFF :: [.get 0 0] ∧
      s.inflight = [.inc (.well 1) 5 1, .inc (.well 0) 0 0xFFFFFFFF] ++ .get 0 0 :: [] ∧ grantOf s 0 = some 31 ∧ grantOf s 1 = none ∧
      s.counters[(0 : BitVec 12).toFin].sat = false ∧ s.counters[(0 : BitVec 12).toFin].value.toNat + (0xFFFFFFFF : BitVec 32).toNat < 2 ^ 32 ∧
      (c 1 false).counters[(0 : BitVec 12).toFin].value.toNat + (0xFFFFFFFF : BitVec 32).toNat = 2 ^ 32 ∧
      (c 0xFFFFFFFF true).counters[(0 : BitVec 12).toFin].sat = true ∧
      ((s.modCpu 0 (fun c => { c with getPend := [(false, 31)] })).cpu 0).getPend = [(false, 31)] ∧
      (
        let t := c 1 false
        let y := t.cf.engines[(0 : EngineId)].queues[(15 : Fin 16)]
        let w := (t.modCpu 0 (fun c => { c with drlim := 0x700 })).writeWords (wellAddr 0 0x700000) ((collD 7 0 0xF 0xFF 0).toList)
        bitB y.w0 63 = true ∧ y.consumed.toNat < t.counters[(qPctr y).toFin].value.toNat ∧ fieldN y.w1 60 4 + 4 ≤ 12 ∧ bitB y.w0 62 = true ∧
          engOn t 0 = true ∧ engOn { t with domainOn := 0 } 0 = false ∧ engOn { t with domainOn := 0 } (engOfCtr 0) = false ∧
          engOn s (engOfCtr 0) = true ∧ engBridgeOn w 0 = true ∧ w.basinMode = 0 ∧
          (w.cf.engines[(0 : EngineId)].ops.filter (fun o => !o.aborted)).length < 256 ∧
          256 ≤ ((onEng (List.replicate 256 (collOp .armed (collD 7 0 0xF 0xFF 0))) id).cf.engines[(0 : EngineId)].ops.filter
            (fun o => !o.aborted)).length ∧
          w.wellOn 0 = true ∧ max 0x700000 ((w.cpu 0).drlim.toNat * 0x1000) ≤ 0x700000 ∧ ueHit w.ue (wellAddr 0 0x700000) 64 = false ∧
          Vector.ofFn (fun (i : Fin 8) => w.readWord (wellAddr 0 0x700000 + 8 * i.val)) = collD 7 0 0xF 0xFF 0 ∧
          oValid w y (collD 7 0 0xF 0xFF 0) = true ∧ oValid w y (collD 7 0 0xF 0xFF 1) = false ∧
          (let r := engWrite 0 (2 ^ 32 + 15) (qAsid y) none 128 
             (statusBytes { collOp .armed (collD 7 0 0xF 0xFF 1) with status := 2, ran := (w.stageNumber, w.stg.attempt) }) w
           isOk r = true)) ∧
      (let t := { onEng [collOp .armed (collD 7 0 0xF 0xFF 0)] id with counters := (c 1 false).counters }
       let all (t : State) (p : EngineId → CollOp → Bool) : Bool := (List.finRange 4).all (fun e => t.cf.engines[e].ops.all (p e))
       (t.cf.engines[(0 : EngineId)].ops.any (fun y => y == collOp .armed (collD 7 0 0xF 0xFF 0))) = true ∧
         mayFire t 0 0 (collOp .armed (collD 7 0 0xF 0xFF 0)) = true ∧ groupOf t 7 = some 0 ∧
         all t (fun e y => !mayFire t e 0 y || (e == 0 && y == collOp .armed (collD 7 0 0xF 0xFF 0))) = true ∧ ¬ 4 ≤ runningIn t 7 ∧
         all t (fun _ y => y.phase != .fired) = true ∧ all t (fun e y => !mayFire t e 1 y) = true) ∧
      (let o := collOp .armed (collD 7 0 0xF 0xFF 0)
       let t := { onEng (o :: (List.range 4).map (fun i => { collOp .signature (collD 7 0 0xF 0xFF 0) with id := i + 1 })) id with
         counters := (c 1 false).counters }
       4 ≤ runningIn t 7 ∧ mayFire t 0 0 o = true ∧
         (t.cf.engines[(0 : EngineId)].ops.all (fun y => !mayFire t 0 0 y || y == o)) = true) ∧
      (let o := collOp .armed (collD 9 0 0xF 7 1)
       let t := { onEng [o] id with counters := (c 1 false).counters }
       mayFire t 0 0 o = true ∧ oKind o.words = 9) := by
  decide +kernel
/-- R376: an addition that would pass the top leaves 0xFFFF_FFFF with SAT. -/
theorem test_counter_sat : after (exec (.triggerIncrement .gauge)
      (let s := { (on id) with jobs := (on id).jobs.set 0 { Job.reset with state := .running, ctrBase := 0, ctrCount := 1 } }
       { s with inflight := [.inc .gauge 0 1], counters := s.counters.set 0 { value := 0xFFFFFFFF, sat := false, staged := false } }))
    (fun t => t.counters[(0 : Fin 4096)].value == 0xFFFFFFFF && t.counters[(0 : Fin 4096)].sat && t.inflight.isEmpty) = true := by decide +kernel
/-- Each kind in its data phase with the other member's block; a written operation that is armed again and one that is dropped. -/
theorem witness_CollectivesMoveData :
    let d (k : Nat) : OWords := if k = 7 then collD 7 0 0xF 0xFF 0 else if k = 9 then collD 9 0 0xF 7 1 else if k = 6 then collD 6 0 8 0 1
      else if k = 4 ∨ k = 5 then collD k 0 8 0xFF 1 else collD k 1 8 0xFF 1
    let o (k : Nat) : CollOp := collOp .data (d k)
    let s (k : Nat) : State := onEng [o k] (fun g => { g with chanValid := 1, chanCap := g.chanCap.set 0 8 })
    let read (k : Nat) := readSource 0 (o k) (s k)
    let put (va : Nat) (bs : List Byte) (k : Nat) (t : State) := engWrite 0 0 0 (dstUse (d k)) va bs t
    (∀ k ∈ [1, 2, 3, 4, 5, 8], (s k).cf.engines[(0 : EngineId)].ops[0]? = some (o k) ∧ engOn (s k) 0 = true ∧ groupOf (s k) (oGroup (d k)) = some 0 ∧
      (s k).far.groups[(0 : Fin 64)].members.length = 2 ∧ oKind (d k) = k ∧ (o k).got = none ∧ isOk (read k) = true ∧ sourceBytes (d k) = 4 ∧
      isOk (put 64 [0, 0, 0, 0] k (okState (read k) (s k))) = true) ∧
      (∀ k ∈ [1, 2, 3, 8], (match reduceAll (d k) [[1, 0, 0, 0], [2, 0, 0, 0]] with | .ok _ => true | .error _ => false) = true) ∧
      (∀ c ∈ [1, 2, 3, 8], oKind ((d 1).set 0 ((d 1)[0] - 1 + BitVec.ofNat 64 c)) = c) ∧
      oRoot (d 2) = (s 2).far.groups[(0 : Fin 64)].rank.toNat ∧ (onEng [] (fun g => { g with rank := 1 })).far.groups[(0 : Fin 64)].rank.toNat ≠ oRoot (d 2) ∧
      ({ o 1 with got := some [(4, [1, 0, 0, 0])] } : CollOp).got.isSome = true ∧
      (∀ k ∈ [1, 2, 3], sourceBytes (collD k 1 0xD 0xFF 1) = 4224 ∧
        (match reduceAll (collD k 1 0xD 0xFF 1) [List.replicate 4224 0, 1 :: List.replicate 4223 0] with
         | .ok _ => false | .error c => c == 0) = true) ∧
      sourceBytes (collD 8 1 0xD 0xFF 1) = 8 ∧
      (match reduceAll (collD 8 1 0xD 0xFF 1) [List.replicate 7 0xFF ++ [0x7F], List.replicate 7 0xFF ++ [0x7F]] with
       | .ok _ => false | .error c => c == 0) = true ∧
      (let t := onEng [o 1] id
       isHold (put 64 [0, 0, 0, 0] 1 (t.modFront 4 (fun x => { x with tlb := [] }))) = true ∧
         isBad (put 64 [0, 0, 0, 0] 1 { t with domainOn := 0x5FFFFFFFFFF }) = true) ∧
      (let r := sendBlocks 0 (o 6) 2 8 (s 6)
       isOk r = true ∧ isOk (engWriteAll 0 0 0 [(dstUse (d 6), 64, List.replicate 8 0)] (okState r (s 6))) = true ∧
         isOk (engWriteAll 0 0 0 [(dstUse (d 6), 64, []), (none, 144, List.replicate 24 0)] (okState r (s 6))) = true ∧
         (s 6).far.groups[(0 : Fin 64)].chanKind.getLsbD (oChan (d 6)) = false ∧
         (onEng [] (fun g => { g with chanKind := 1 })).far.groups[(0 : Fin 64)].chanKind.getLsbD 0 = true ∧ oKind (d 6) = 6) ∧
      oKind (d 7) = 7 ∧ oKind (d 9) = 9 ∧ oChan (d 9) < 8 ∧
      (let o := collOp .written (d 1)
       let t := onEng [o] id
       let r := engWrite 0 0 0 none 128 (statusBytes o) t
       isOk r = true ∧ oRearm (d 1) = false ∧ engOn t 0 = true ∧ engOn { t with domainOn := 0 } 0 = false ∧ allArrived t { o with status := 4 } = true ∧
         allArrived t { o with passed := arrivals t o } = true ∧
         (let e : OWords := (d 1).set 0 ((d 1)[0] ||| putN 16 1)
          oRearm e = true ∧ (collOp .written e).wthr.toNat + oTstep e < 2 ^ 32)) ∧
      (o 1).phase ≠ .armed ∧ (o 1).phase ≠ .written := by decide +kernel
theorem test_allreduce : after (exec (.allreduce 0 0 [[0xFF, 0xFF, 0xFF, 0x7F]]) ((onEng [collOp .data (collD 1 1 8 0xFF 1)] id).writeBytes 0 [2]))
    (fun t => t.readBytes 64 4 == [1, 0, 0, 0x80] && t.cf.engines[(0 : EngineId)].ops.map (·.phase) == [.written]) = true := by decide +kernel
theorem witness_CollectivesMoveData_cf :
    let o := collOp .written (collD 1 1 8 0xFF 1)
    let t := onEng [o] id
    (okState (engWrite 0 0 0 none 128 (statusBytes o) t) t).cf = t.cf := by with_unfolding_all rfl
theorem witness_RillAndReports :
    let m : RillMsg := { group := 7, epoch := 3, attempt := 1, stage := 9, round := 4, fromRank := 1, down := false, op := .signature,
                         lanes := [5, 0, 5, 0, 0, 0] }
    let r : RillRound := { round := 4, op := .signature, own := some [5, 0, 5, 0, 0, 0], kids := [], result := none }
    let o := { collOp .signature (collD 7 0 0xF 0xFF 0) with round := 4 }
    let s := onEng [] id
    let t := ({ onEng [o] (fun g => { g with rounds := [r] }) with devId := 0 }.modLink 35 act).modFar (fun x => { x with
      routes := [(5, putN 62 2 ||| putN 24 35 ||| putN 16 0x3F ||| putN 8 0x3F ||| 0x3F)] })
    (∀ u ∈ [s, t], groupOf u 7 = some 0 ∧ u.far.groups[(0 : Fin 64)].epoch = m.epoch ∧ u.stg.attempt = m.attempt ∧ u.stageNumber = m.stage ∧
      u.far.groups[(0 : Fin 64)].rank = 0 ∧ u.far.groups[(0 : Fin 64)].members.length = 2) ∧
      s.far.groups[(0 : Fin 64)].rounds = [] ∧ (nextRound s.far.groups[(0 : Fin 64)]).isNone = true ∧ t.far.maxhop ≠ 0 ∧
      t.far.groups[(0 : Fin 64)].rounds = [r] ∧ (5 : W64) &&& 5 = 5 ||| 5 ∧
      pickLink t 0 t.devId 5 0 ≠ none ∧
      t.cf.engines[(0 : EngineId)].ops.find? (fun o => oGroup o.words == 7 && o.round == m.round && (o.phase == .signature || o.phase == .key)) =
        some o ∧ s.stg.attempt ≠ 2 ∧
      (let u := onEng [collOp .data (collD 1 1 8 0xFF 1)] id
       u.cf.engines[(0 : EngineId)].ops = [collOp .data (collD 1 1 8 0xFF 1)] ∧ oGroup (collD 1 1 8 0xFF 1) = 7 ∧ residueOf [] = (0 : BitVec 16).toNat ∧
         residueOf [] ≠ (1 : BitVec 16).toNat) ∧
      (let key : CoalKey := { dev := 5, unit := 0x5001, cls := 1, stage := 9 }
       let c : Coal := { delivered := true, evt := none, cls := 1, dev := 5, unit := 0x5001, stage := 9, count := 1, firstDev := 0, lastDev := 0,
                         firstT := 0, lastT := 0 }
       let u := s.modCf (fun x => { x with coal := x.coal.set 0 (some c) })
       let v := u.modLink 35 (fun k => { k with rptTokens := 0, rptTime := 0x1000 })
       coalFind u key = some 0 ∧ v.far.links[(35 : LinkId)].rptTokens = 0 ∧ v.far.links[(35 : LinkId)].rptTime = v.stg.t ∧
         u.cf.coal[(0 : Fin 4096)] = some c ∧ u.cf.coal[(4095 : Fin 4096)] = none ∧
         c.stage.toNat + 64 ≤ (onStage (fun g => { g with number := 73 })).stageNumber.toNat ∧ u.stageNumber.toNat < c.stage.toNat + 64) := by
  decide +kernel
theorem witness_CountersAndQueues_cf :
    let s := onEng [] id
    let a := { collOp .armed (collD 7 0 0xF 0xFF 1) with status := 2, ran := (s.stageNumber, s.stg.attempt) }
    (okState (engWrite 0 (2 ^ 32 + 15) 0 none 128 (statusBytes a) s) s).cf = s.cf := by with_unfolding_all rfl

/-! Headwater and baseflow. -/

/-- The device in service with the host link ACTIVE, a command at the front of ring 3, stacks trained, and job slot 31 in a state. -/
def onHw (c : HostCmd) (f : Job → Job) : State :=
  { onStacks with
    by_ := { onStacks.by_ with state := .active }
    su := { onStacks.su with st := 1 }
    hw := { onStacks.hw with rings := onStacks.hw.rings.set 3 { last := 9, cmds := [(9, c)] } }
    jobs := onStacks.jobs.set 31 (f { Job.reset with vmap := [0] }) }

/-- Each command at the front of ring 3 with an operand that is refused and one that is served, job slot 31 in each state that matters.
The image check of `jobLoad` rests on hash functions that the model leaves opaque, so no concrete image is shown to pass it. -/
theorem witness_HeadwaterCommands :
    let serves (c : HostCmd) (s : State) : Bool := ringFront 3 (fastCmd c) s == some (9, c) && !s.wh.recovery && !s.hw.jobHalted &&
      !s.hw.faultHalted && s.su.st == 1 && s.by_.state == .active
    let hws (c : HostCmd) := onHw c (fun j => { j with state := .loaded })
    (∀ c ∈ [HostCmd.jobLoad 0, .jobStart 31, .jobKill 31, .stageCfg [(0x010, 0)] [], .retire [127], .faultAck [3], .eventAck 5, .eventFetch 0,
        .sound 1 4096, .mgmt false 0xF0000000000 0], serves c (hws c) = true) ∧
      (let s := hws (.jobLoad 0)
       let g := s.writeWords 0 [putN 2 1, 0, 0x1000, 0, 0, 0]
       let rd (s : State) := hwRead 0 128 (ringTake 3 9 s)
       let d (s : State) := descriptorWords ((rd s).1.getD [])
       (rd s).1.isSome = true ∧ (rd { s with stackMask := 0 }).1 = none ∧ descriptorOk (rd s).2 (d s) = false ∧ (rd g).1.isSome = true ∧
         descriptorOk (rd g).2 (d g) = true ∧ otherBasin (rd g).2 0 0 = false ∧ otherBasin (rd g).2 0 0x1000 = false ∧
         (d g)[2].toNat = 0x1000 ∧ (imageAt 0x1000 (rd g).2).1.isSome = true ∧
         (imageAt 0x1000 { (rd g).2 with stackMask := 0 }).1.isSome = false ∧
         (match place (imageAt 0x1000 (rd g).2).2 (d g) with | .ok p => p.slot == 0 | .error _ => false) = true ∧
         (match place { g with domainOn := 0 } (d g) with | .ok _ => false | .error _ => true) = true ∧
         otherBasin { g with basinMode := 2 } 0 0x17FFFFFFFFF = true) ∧
      (let s (st : JobState) := onHw (.jobKill 31) (fun j => { j with state := st })
       serves (.jobKill 31) (s .clearing) = true ∧ (s .stopping).jobs[(31 : Fin 32)].state = .stopping ∧ hwBusy (s .running) = false ∧
         (jobWells (s .running) 31).all (fun w => wellDrained (s .running) w) = true ∧ jobWells (s .running) 31 = [0]) ∧
      (let x : FaultRec := { ftype := 1, rights := 1, level := 0, asid := 31, va := 0, held := [], fetches := 0, joins := 0 }
       let t := (hws (.xlateResp 5 true 63 31 0)).modFront 5 (fun f => { f with records := f.records.set 63 (some x) })
       serves (.xlateResp 5 true 63 31 0) t = true ∧ (respMatch t 5 63 31 0).isSome = true ∧ (respMatch t 5 62 31 0).isSome = false) ∧
      serves (.basinCfg 2 []) (hws (.basinCfg 2 [])) = true ∧
      (let s := hws (.jobStart 31)
       slotOfHandle s 31 = some 31 ∧ slotOfHandle s 63 = none ∧ s.jobs[(31 : Fin 32)].state = .loaded ∧ s.jobs[(31 : Fin 32)].nprot = 0 ∧
         s.prot.length ≤ 1024 ∧ (onHw (.jobStart 31) (fun j => { j with state := .paused })).jobs[(31 : Fin 32)].state ≠ .loaded ∧
         s.jobs[(31 : Fin 32)].state ≠ .clearing) ∧
      (let s := hws (.map 31 [] [])
       let l (va : BitVec 56) : LeafReq := { va := va, pa := 0, rights := 1, big := false, valid := true }
       let x : IngressReq := { index := 15, w0 := 0, w1 := 0xFFFFFFFFFFF, w2 := putB 63 true }
       leafRefusal s 31 (l 0x4000000) = none ∧ leafRefusal s 31 (l 0x4000001) = some 1 ∧ ingressRefusal s 31 x = none ∧
         ingressRefusal s 31 { x with w2 := putN 16 1 } = some 1) ∧
      (1 : BitVec 2) ≠ 3 ∧ (hws (.faultAck [3])).hw.ledger = [] ∧ (hws (.eventAck 5)).evtLost = 0 ∧
      (∀ k : Fin 32, (hws (.eventAck 5)).jobs[k].paused = false) ∧ (4096 : W64).toNat % 4096 = 0 ∧ (4097 : W64).toNat % 4096 ≠ 0 ∧
      (hws (.sound 1 4096)).hw.sounds.length < 4 ∧
      (let a : BitVec 44 := 0xF0500000018
       (a.toNat - 0xF0000000000) / 0x100000000 = 5 ∧ (readControl 0xF0FFFFFFFF0 (hws (.mgmt false a 0))).isSome = false) := by decide +kernel
set_option maxRecDepth 200000 in
theorem test_job_kill : after (exec (.jobKill 3) (onHw (.jobKill 31) (fun j => { j with state := .running })))
    (fun t => t.jobs[(31 : Fin 32)].state == .clearing && !(t.cpu 0).running && t.by_.stream.getLast? == some (.cpl 3 9 0 0)) = true := by decide +kernel
theorem witness_HeadwaterGateSoundingAndEvents :
    let s := onHw (.jobKill 31) id
    let j (st : JobState) (m : W64) : State :=
      let t := { onHw (.jobKill 31) (fun j => { j with state := st, reach := 5 }) with
        stg := { s.stg with role := 1, number := 9, attempt := 2, sync := 2 }
        wellJob := s.wellJob.set 0 (some 31) }
      t.modWell 0 (fun u => { u with mailOut := some m })
    ringFront 3 false s = some (9, .jobKill 31) ∧ (∀ b : Bool, { s with hw := { s.hw with jobHalted := true, faultHalted := b } }.hw.jobHalted = true) ∧
      s.wh.recovery = false ∧ { s with wh := { s.wh with recovery := true } }.wh.recovery = true ∧ { s with su := { s.su with st := 0 } }.su.st ≠ 1 ∧
      ringFront 2 false s = none ∧ s.hw.sounds = [] ∧
      (let q : SoundReq := { ring := 3, cseq := 9, token := 1, buffer := 4096, start := 0 }
       { s with hw := { s.hw with sounds := [q] } }.hw.sounds = [q] ∧ s.by_.state = .active) ∧
      (let t := j .running (putN 56 1 ||| 5)
       t.wells[0].mailOut = some (putN 56 1 ||| 5) ∧ t.wellJob[0] = some 31 ∧ fieldN (putN 56 1 ||| 5) 56 8 = 1 ∧
         t.jobs[(31 : Fin 32)].state = .running ∧ fieldN (putN 56 1 ||| 5) 0 48 = t.jobs[(31 : Fin 32)].reach.toNat % 2 ^ 48 ∧
         t.jobs[(31 : Fin 32)].reachDone.length + 1 = t.jobs[(31 : Fin 32)].vmap.length ∧ t.events.length < 65536 ∧
         (onHw (.jobKill 31) (fun j => { j with vmap := [0, 1] })).jobs[(31 : Fin 32)].vmap.length = 2) ∧
      (let m : W64 := putN 56 2 ||| putN 48 2 ||| 9
       let t := j .running m
       fieldN m 56 8 = 2 ∧ m.extractLsb' 0 48 = t.stg.number.truncate 48 ∧ m.extractLsb' 48 8 = t.stg.attempt ∧ t.stg.role ≠ 0 ∧ t.stg.sync = 2) ∧
      fieldN (putN 56 3) 56 8 = 3 ∧ (j .paused (putN 56 3)).jobs[(31 : Fin 32)].state = .paused ∧
      fieldN (putN 56 4 ||| 0x2D) 56 8 = 4 ∧ fieldN (putN 56 4 ||| 0x2D) 0 8 ∈ [0x15, 0x16, 0x24, 0x25, 0x2C, 0x2D] ∧
      fieldN (putN 56 4 ||| 0x02) 0 8 ∉ [0x15, 0x16, 0x24, 0x25, 0x2C, 0x2D] ∧ s.wells[0].mailOut = none ∧ s.reports = [] ∧
      (let r : Report := { unit := 0x5000, cls := 0x0D, stage := 0, detail := 0, job := 0xFFFF, joined := [] }
       let t := { s with reports := [r] }
       t.reports = r :: [] ∧ t.hw.ledger = [] ∧ t.hw.ledger.length < 16384) ∧
      (let r : Report := { unit := pumpUnit 0, cls := 0x05, stage := 0, detail := putN 32 9, job := 0xFFFF, joined := [] }
       let t := j .running 0
       r.detail.toNat / 2 ^ 32 % 256 ≠ 0x08 ∧ reportJobs t r = [31] ∧ 31 ∉ r.joined ∧ t.jobs[(31 : Fin 32)].escaped = false ∧
         t.jobs[(31 : Fin 32)].reachReplays < 3 ∧ hwBusy t = false ∧ jobWells t 31 = [0] ∧ wellDrained t 0 = true) ∧
      (let x : FaultRec := { ftype := 1, rights := 1, level := 0, asid := 31, va := 0, held := [], fetches := 0, joins := 0 }
       let t := (j .running 0).modFront 5 (fun f => { f with records := f.records.set 63 (some x) })
       t.fronts[(5 : FrontId)].records[(63 : Fin 64)] = some x ∧ slotOfHandle t x.asid ≠ none ∧ t.fronts[(5 : FrontId)].records[(62 : Fin 64)] = none) ∧
      memWf s.mem = true ∧ clearingDone s 31 = false ∧
      clearingDone (onHw (.jobKill 31) (fun j => { j with state := .clearing })) 31 = true := by decide +kernel
/-- Messages out of place: another reach, another attempt, a job that is stopping to go on otherwise. -/
theorem witness_HeadwaterGateSoundingAndEvents_noted :
    let at_ (m : W64) (c : Option JobCont) : State :=
      { onHw (.jobKill 31) (fun j => { j with state := .running, reach := 5, cont := c }) with
        wellJob := State.reset.wellJob.set 0 (some 31) }.modWell 0 (fun u => { u with mailOut := some m })
    let ok (m : W64) (c : Option JobCont) : Bool := decide ((at_ m c).jobs[(31 : Fin 32)].cont = c ∧ (at_ m c).wells[0].mailOut = some m ∧
      (at_ m c).wellJob[0] = some 31 ∧ fieldN m 0 48 ≠ (at_ m c).jobs[(31 : Fin 32)].reach.toNat % 2 ^ 48 ∧
      m.extractLsb' 48 8 ≠ (at_ m c).stg.attempt)
    ok (putN 56 1 ||| putN 48 1 ||| 4) none = true ∧ ok (putN 56 2 ||| putN 48 1) none = true ∧
      (∀ k : Fin 3, ok (putN 56 (k.val + 1) ||| putN 48 1) (some .replay) = true) := by decide +kernel
theorem witness_BaseflowDoesItsWork :
    let s := onStacks
    let p : ScrubPass := { core := 0, mem := .stackMem, start := 0, late := false, counted := false }
    let q := { s with bf := { s.bf with passes := [p] } }
    memWf s.mem = true ∧ passOf s 1 .stores = none ∧ bitB s.bf.ctl (scrubBit .stackMem) = true ∧ bitB 0 (scrubBit .stackMem) = false ∧
      passOf q 0 .stackMem = some p ∧ p.late = false ∧ q.stg.t.toNat < p.start.toNat + scrubPeriod q .stackMem ∧
      p.start.toNat + scrubPeriod q .stackMem ≤ (w64 (24 * 3600000000000)).toNat ∧ bfWindowOpen q = true ∧ bfWindowOpen { s with bf := { s.bf with ctl := 0x1F, phasewin := putN 32 0xFFFF ||| putN 48 0xFFFF }, stg := { s.stg with role := 1, sync := 2, phase := 0 } } = false ∧
      placeOf 0 = .stack 0 ∧ centralRefusal q 0 = none ∧ lastRead q 0 .stackMem 0 = false ∧ q.bf.weak = [] ∧ q.stks[(0 : StackId)].queue = [] ∧
      (∀ k ∈ [StackErr.poison, .oneSymbol], { q with stErr := [(0, k)] }.stErr.find? (fun e => e.1 == 0) = some (0, k)) ∧
      s.linkOn 35 = true ∧ ((s.modLink 35 act).far.links[(35 : LinkId)].state ≠ .disabled) ∧ (31 : BitVec 16).toInt - (0 : BitVec 16).toInt > 30 ∧
      s.domain (36 + (23 : StackId).val / 6) = true ∧ s.domain 43 = true ∧ s.pw.rail[(43 : Fin 44)] + 5 ≤ 840 ∧ 760 + 5 ≤ s.pw.rail[(43 : Fin 44)] ∧
      840 < { s with pw := { s.pw with rail := s.pw.rail.set 43 840 } }.pw.rail[(43 : Fin 44)] + 5 ∧
      { s with pw := { s.pw with rail := s.pw.rail.set 43 760 } }.pw.rail[(43 : Fin 44)] < 765 ∧ s.bf.samples = [] ∧
      (let x : TelSample := { w0 := 1, w1 := 2, entries := [] }
       let t := { s with bf := { s.bf with samples := [x], telHead := 0xFFFFE0 } }
       t.bf.samples = x :: [] ∧ centralRefusal t (0x00FF000000 + t.bf.telHead.toNat) = none ∧
         t.bf.telHead.toNat + (32 + 16 * x.entries.length + 31) / 32 * 32 ≤ 0x1000000) := by decide +kernel

/-! The host link, power, management, start-up, resets and registers. -/

/-- A Byvor flit of zeros with its CRC. -/
def byflit (hdr : BitVec 32) (body : List Byte) : ByFlit :=
  let b := body ++ List.replicate (248 - body.length) 0
  { hdr := hdr, body := b, crc := crc32c (toBytes 4 hdr.toNat ++ b), fecBad := false }
/-- The device with its Byvor Link changed. -/
def onBy (f : ByLink → ByLink) : State := let s := onFar; { s with by_ := f { s.by_ with state := .active, linkCred := 4, hostCred := 4 } }

set_option maxRecDepth 200000 in
/-- Bad flits, DATA in and out of order, IDLE, MAINT; each slot; each step of training with lane results at their bounds. -/
theorem witness_ByvorLinkCarriesFlits :
    let s := onBy id
    let b := s.by_
    let ty (n : Nat) : BitVec 32 := BitVec.ofNat 32 (n * 2 ^ 30)
    let data := byflit (ty 0 ||| 62) []
    let good (f : ByFlit) : Bool := decide (f.fecBad = false ∧ f.crc = crc32c (toBytes 4 f.hdr.toNat ++ f.body))
    (∀ st ∈ [LinkState.disabled, .training, .active, .retrain, .down], byOn (onBy (fun b => { b with state := st })) = true) ∧ b.state = .active ∧
      good data = true ∧ good { data with crc := ~~~data.crc } = false ∧ bType data = 0 ∧ bSeq data = b.expSeq ∧ bNak data = false ∧ b.enc = false ∧
      bPstart data = 31 ∧ b.rxRem = [] ∧ bSeq (byflit (BitVec.ofNat 32 (0x7FF * 2 ^ 19)) []) ≠ b.expSeq ∧
      bType (byflit (ty 1) []) = 1 ∧ bType (byflit (ty 2) []) = 2 ∧ good (byflit (ty 1) []) = true ∧ good (byflit (ty 2) []) = true ∧
      511 ≤ (onBy (fun b => { b with sinceMaint := 511 })).by_.sinceMaint ∧ b.sinceMaint < 511 ∧ b.sinceIdle < 2047 ∧
      (let r := (onBy (fun b => { b with replay := [(0, data)], resend := 1 })).by_
       r.resend ≠ 0 ∧ r.resend ≤ r.replay.length) ∧
      (let r := (onBy (fun b => { b with owed := b.owed.set 0 65535 })).by_
       r.resend = 0 ∧ r.txRem = [] ∧ 0 < r.owed[0] ∧ 0 < r.linkCred ∧ r.replay.length < 512) ∧
      (∀ c : Fin 7, b.owed[c] = 0) ∧ b.resps = [] ∧ b.stream = [] ∧ b.retryMs ≠ 0 ∧ b.encReq = false ∧ b.peerTrain = none ∧
      (∀ n : Fin 6, (onBy (fun b => { b with state := .training, step := n })).by_.step = n) ∧
      (∀ l ∈ ([0xFF, 0x0F, 0xF0, 0xEE] : List (BitVec 8)), (l &&& 0x0F = 0x0F ∨ l &&& 0xF0 = 0xF0 ∨ l = 0xEE)) ∧
      (onBy (fun b => { b with state := .retrain, width := 1 })).by_.width ≠ 3 ∧
      (∀ i : Fin 4, (onBy (fun b => { b with keys := Vector.replicate 4 (some { key := 0, salt := 0 }) })).by_.keys[i].isSome = true) ∧
      (let t := byflit (ty 3) ([1, 0, 1] ++ List.replicate 17 0 ++ [0])
       good t = true ∧ bType t = 3 ∧ t.body.getD 0 0 = 1 ∧ t.body.getD 2 0 = 1 ∧ (t.body.getD 20 0).getLsbD 0 = false) ∧
      (byflit (ty 3) []).body.getD 0 0 ≠ 1 ∧ ((byflit (ty 3) ([1, 0, 1] ++ List.replicate 17 0 ++ [1])).body.getD 20 0).getLsbD 0 = true := by
  decide +kernel
set_option maxRecDepth 200000 in
/-- MAINT in the KEY step: a slot's confirmation, and flits that are bad. -/
theorem witness_ByvorLinkCarriesFlits_keying :
    let s := onBy (fun b => { b with state := .retrain, step := 5, keys := b.keys.set 2 (some { key := 0, salt := 0 }) })
    let f := byflit (BitVec.ofNat 32 (2 * 2 ^ 30)) []
    s.by_.state = .retrain ∧ s.by_.step = 5 ∧ byOn s = true ∧ bType f = 2 ∧ f.crc = crc32c (toBytes 4 f.hdr.toNat ++ f.body) ∧ f.fecBad = false ∧
      s.by_.keys[(2 : Fin 4)].isSome = true ∧ s.by_.keys[(3 : Fin 4)].isSome = false ∧ ({ f with fecBad := true } : ByFlit).fecBad = true := by
  decide +kernel
/-- Window 15 over the last page of well 0's P-store; each order of a command's number; a lost link and a capture. -/
theorem witness_HostTrafficIsServed :
    let pa := wellAddr 0 0x6FF000
    let w : Window := { w0 := w64 pa, w1 := w64 (pa + 4095), w2 := putN 61 7 }
    let s := onBy (fun b => { b with windows := b.windows.set 15 w })
    byLive s = true ∧ behindWrite s.by_ = false ∧ memWf s.mem = true ∧ s.hw.rings[(3 : Fin 4)].last = 0 ∧ windowAt s 4095 = some 15 ∧
      0 < 1 ∧ 4095 % 4096 + 1 ≤ 4096 ∧ s.prot = [] ∧ s.capturing = [] ∧ outsideRefusal s (pa + 4095) 1 = none ∧
      placeOf (pa + 4095) = .well 0 0x6FFFFF ∧ bitB w.w2 62 = true ∧ bitB w.w2 61 = true ∧ ueHit s.ue (pa + 4095) 1 = false ∧
      ueHit s.ce (pa + 4095) 1 = false ∧ bitB (putN 63 1) 62 = false ∧ windowAt s 4096 = none ∧
      (let u := onBy (fun b => { b with state := .down, stream := [.cpl 3 9 0 0] })
       u.by_.state ≠ .active ∧ u.by_.state ≠ .retrain ∧ u.by_.stream = [.cpl 3 9 0 0] ∧ u.events.length < 65536) ∧
      (let u := { onBy (fun b => { b with held := [.write 0 [1]] }) with capturing := [7] }
       byLive u = true ∧ (0x7FFF : BitVec 44).toNat / 4096 ∈ u.capturing ∧ u.by_.held = [.write 0 [1]] ∧ (0x8000 : BitVec 44).toNat / 4096 ∉ u.capturing) := by
  decide +kernel
/-- A write that a weir holds, and a ring whose commands so far are fast ones. -/
theorem witness_HostTrafficIsServed_weir :
    let pa := wellAddr 0 0x6FF000
    let s : State := { onBy (fun b => { b with windows := b.windows.set 15 { w0 := w64 pa, w1 := w64 (pa + 4095), w2 := putN 61 7 } }) with basinMode := 1 }
    (hostCross 15 none (pa + 4095) 1 false s).1 = false ∧ windowAt s 4095 = some 15 ∧ (onBy id).basinMode = 0 ∧
      (s.hw.rings[(3 : Fin 4)].cmds.all (fun x => fastCmd x.2 && x.1 != 1)) = true ∧ fastCmd (.eventAck 5) = true ∧
      (1 : W64).toNat = s.hw.rings[(3 : Fin 4)].last.toNat + 1 := by decide +kernel
theorem test_wwrite : after (exec (.wwrite 4095 [7]) (onBy (fun b =>
      let w : Window := { w0 := w64 (wellAddr 0 0x6FF000), w1 := w64 (wellAddr 0 0x6FFFFF), w2 := putN 61 7 }
      { b with windows := b.windows.set 15 w })))
    (fun t => t.byteAt (wellAddr 0 0x6FFFFF) == 7 && t.by_.owed[6] == 1) = true := by decide +kernel
theorem witness_PowerAndThermalLimits :
    let s := onStacks
    let p (f : Power → Power) : State := { s with pw := f s.pw }
    memWf s.mem = true ∧ s.pw.inputOn = true ∧ (p (fun p => { p with inputOn := false })).pw.inputOn = false ∧ s.pw.capAt = none ∧
      (p (fun p => { p with duty := 63 })).pw.duty.toNat < 64 ∧ 64 ≤ s.pw.duty.toNat ∧ s.pw.pend = none ∧
      (p (fun p => { p with pend := some (true, 1) })).pw.pend ≠ none ∧
      (let off := { s with domainOn := 0x8FF00000000 }
       (List.range 44).all (fun d => !(0x4F000000001 : BitVec 44).getLsbD d || off.domain d ||
          ((!(decide (36 ≤ d ∧ d < 40)) || (off.domain (32 + 2 * ((d - 36) / 2)) && off.domain (33 + 2 * ((d - 36) / 2)))) &&
            (d != 42 || off.domain 43))) = true) ∧
      (List.range 44).all (fun d => !(0x80000000 : BitVec 44).getLsbD d || decide (offErr s d = 0)) = true ∧
      (let o := { s with wellJob := s.wellJob.set 127 (some 0) }
       o.domain 31 = true ∧ (31 : Nat) = (127 : WellId).val / 4 ∧ o.wellJob[(127 : WellId)] ≠ none) ∧
      (∀ b : Bool, (p (fun p => { p with pend := some (b, 0x80000000) })).pw.pend = some (b, 0x80000000)) ∧
      s.domain 43 = true ∧ State.reset.domain 43 = false ∧ s.pw.refALost = false ∧ s.pw.refBLost = false ∧ (s.modLink 35 act).far.links[(35 : LinkId)].state = .active ∧
      (∀ c ∈ [(900, false), (899, true)], decide ((c.1 : Int) < 900) = c.2) ∧ s.pw.warn = [] ∧ (1050 : BitVec 16).toInt = 900 + 150 ∧ hwBusy s = false := by decide +kernel
/-- R506: a stack sensor at 80.0 degrees warns and at 75.1 keeps its warning. -/
theorem test_thermal : after (exec (.thermalSensorRead (.stack 23) 800) onStacks) (fun t =>
    t.pw.warn == [stackUnit 23] && after (exec (.thermalSensorRead (.stack 23) 751) t) (fun u => u.pw.warn == [stackUnit 23])) = true := by decide +kernel
theorem witness_EndpointAndScanPort :
    State.reset.pw.inputOn = true ∧ { State.reset with pw := { State.reset.pw with inputOn := false } }.pw.inputOn = false ∧
      (2 : BitVec 7) ≠ 0 ∧ (0x3B : BitVec 7) ≠ 0x3A ∧ (120 : Nat) < 121 ∧ (∀ w ∈ [400, 2800], 400 ≤ (BitVec.ofNat 16 w).toNat ∧ (BitVec.ofNat 16 w).toNat ≤ 2800) ∧
      (399 : BitVec 16).toNat < 400 ∧ 2800 < (2801 : BitVec 16).toNat ∧ State.reset.su.porLow = true ∧
      { State.reset with su := { State.reset.su with porLow := false } }.su.porLow = false ∧
      (let r : Report := { unit := 0x5000, cls := 0x10, stage := 0, detail := 0, job := 0xFFFF, joined := [] }
       let b : Bmc := { Bmc.reset with receiver := some 1, events := [r] }
       b.receiver ≠ none ∧ b.events ≠ [] ∧ Bmc.reset.receiver = none) := by decide
/-- Every request code in progress. The values of the hash, signature and key functions, and of the fuses, are opaque, so no concrete request
is shown to meet a clause on one of those values. -/
theorem witness_WellheadServes :
    let s := { (on id) with su := { (on id).su with step := 4, porLow := false } }
    let c : Challenge := { bytes := List.replicate 128 0, scope := 1, basin := 0, expiry := 5 }
    let q (req : W64) : State := { s with wh := { s.wh with req := some req, challenge := some c } }
    memWf s.wh.buf = true ∧ whRuns s = true ∧ s.wh.req = none ∧
      (∀ op ∈ [1, 9], fieldN (putN 56 op) 56 8 = op ∧ (q (putN 56 op)).wh.req = some (putN 56 op) ∧ whRuns (q (putN 56 op)) = true) ∧
      whRuns { s with hw := { s.hw with coreStopped := 16 } } = false ∧ (q 0).wh.challenge = some c ∧ s.wh.oldChallenges = [] ∧
      c.expiry.toNat < { q 0 with stg := { s.stg with t := 6 } }.stg.t.toNat ∧ (q 0).stg.t.toNat ≤ c.expiry.toNat ∧
      fieldN (putN 56 4 ||| putN 48 4) 48 8 % 4 = 0 ∧ fieldN (putN 56 4 ||| putN 48 7) 48 8 % 4 ≠ 0 ∧ fieldN (putN 56 7 ||| putN 48 128) 48 8 / 128 % 2 = 1 ∧
      1024 ≤ fieldN (putN 56 8 ||| 1024) 0 32 ∧ fieldN (putN 56 8 ||| 1023) 0 32 < 1024 ∧ 9 < fieldN (putN 56 10) 56 8 := by decide +kernel
/-- A challenge of scope 3 with a job in its way and without, and one that waits for the clearing. -/
theorem witness_WellheadServes_opening :
    let c : Challenge := { bytes := List.replicate 128 0, scope := 3, basin := 0, expiry := 5 }
    let s (st : JobState) : State := onHw (.sound 0 0) (fun j => { j with state := st })
    let jobs (s : State) : List (Fin 32) := slots.filter (fun k => s.jobs[k].state != .free &&
      (c.scope == 3 || c.scope == 2 && (s.basinMode == 0 || s.jobs[k].basin == c.basin)))
    jobs (s .free) = [] ∧ jobs (s .running) = [31] ∧ hwBusy (s .running) = false ∧
      (∀ st ∈ [JobState.free, .clearing], let t : State := { s st with wh := { (s st).wh with opening := some (c, 0), req := some (putN 56 5) } }
        t.wh.opening = some (c, 0) ∧ t.wh.req = some (putN 56 5) ∧ fieldN (putN 56 5) 56 8 = 5) ∧ (s .free).wh.opening = none := by decide +kernel
theorem witness_DeviceStarts :
    let r := State.reset
    let p (good hw : Bool) : State := { r with pw := { r.pw with pwrGood := good, hwtrip := hw } }
    let at_ (n : BitVec 4) : State := { onBy id with su := { r.su with porLow := false, step := n } }
    memWf r.mem = true ∧ r.su.porLow = true ∧ (∀ b : Bool, (p true b).pw.hwtrip = b) ∧ (p true false).pw.pwrGood = true ∧ r.pw.pwrGood = false ∧
      (∀ n ∈ ([2, 3, 4, 5, 6, 7, 8, 9] : List (BitVec 4)), (at_ n).su.step = n ∧ (at_ n).su.porLow = false ∧ (at_ n).pw.inputOn = true ∧ (at_ n).su.st = 0 ∧
        memWf (at_ n).mem = true) ∧
      linksSettled (at_ 7) = true ∧ linksSettled { at_ 7 with far := ((at_ 7).modLink 35 (fun k => { k with state := .training })).far } = false ∧
      (at_ 8).by_.state = .active ∧ { at_ 8 with by_ := r.by_ }.by_.state ≠ .active ∧ (at_ 9).stackMask.getLsbD 0 = true ∧ wholeGroup (at_ 9) 0 32 = true := by
  decide +kernel
theorem witness_ResetsKeepAndClear :
    let s := { (onHw (.sound 0 0) id) with su := { State.reset.su with porLow := false, st := 1 } }
    memWf s.mem = true ∧ s.su.porLow = false ∧ s.pw.inputOn = true ∧ s.pw.hwtrip = false ∧ State.reset.su.porLow = true ∧ s.su.st = 1 ∧ State.reset.su.st ≠ 1 ∧
      (∀ k : Fin 32, s.jobs[k].state = .free) ∧ (onHw (.sound 0 0) (fun j => { j with state := .loaded })).jobs[(31 : Fin 32)].state ≠ .free ∧
      layoutOk s (s.hw.basinCfg.getD (s.basinMode, [])).1 = true ∧
      layoutOk { s with stackMask := 1, hw := { s.hw with basinCfg := some (2, []) } } 2 = false ∧
      (s.wellOn 127 && s.wellJob[(127 : WellId)].isNone && !s.hw.retired.getLsbD 127) = true ∧
      ({ s with wellJob := s.wellJob.set 127 (some 0) }.wellJob[(127 : WellId)].isNone) = false := by decide +kernel
set_option maxRecDepth 200000 in
/-- A tripped device, hot and cool, and a well whose Pump awaits data. -/
theorem witness_ResetsKeepAndClear_waits :
    let s := { (onHw (.sound 0 0) id) with su := { State.reset.su with porLow := false, st := 1 } }
    let q := s.modPump (wellPump 127 0) (fun x => { x with queue := [{ queued copyD with remote := 8 }] })
    s.pw.tripped = false ∧ cooled { s with pw := { s.pw with tripped := true, temps := s.pw.temps.set 0 1200 } } = false ∧
      cooled { s with pw := { s.pw with tripped := true } } = true ∧
      wellDrained (stopWell 127 s) 127 = true ∧ wellDrained (stopWell 127 q) 127 = false ∧
      (0 : Fin 4).val < basinCount' (s.hw.basinCfg.getD (s.basinMode, [])).1 := by decide +kernel
theorem witness_RegisterWritesSetTheirFields :
    memWf State.reset.wh.buf = true ∧ Agent.headwater ≠ .windlass ∧ Agent.fabric ≠ .headwater ∧ (0xFFF8 : Nat) < 0x10000 ∧ 0xFFF8 % 8 = 0 ∧
      (0xF0800000000 : Nat) < 2 ^ 44 ∧ fieldN (putN 48 400) 48 16 = 400 ∧ fieldN (putN 48 2801) 48 16 = 2801 ∧ fieldN (putN 40 64) 40 7 = 64 ∧
      (on id).wellOn 0 = true ∧ (on id).wellOn 127 = true ∧ State.reset.wellOn 0 = false ∧ (on id).wells[(0 : WellId)].mailOut = none ∧
      ((on id).modWell 0 (fun u => { u with mailOut := some 1 })).wells[(0 : WellId)].mailOut ≠ none ∧ fieldN (putN 16 4096) 16 13 ≤ 4096 ∧
      ¬ fieldN (putN 16 4097) 16 13 ≤ 4096 ∧ (0xEFFFF8 : Nat) < 0xF00000 := by decide +kernel
theorem test_register_write : after (exec (.registerWrite .headwater 0xF0500000030 (putN 32 0x1234 ||| 0x5678)) State.reset)
    (fun t => t.stg.wirecomp == 0x1234 && t.stg.rillhop == 0x5678 && t.stg.role == 0) = true := by decide +kernel
/-- A queue of one command, and an empty one. -/
theorem witness_StepRunsTheFrontCommand : ({ State.reset with pending := [.porNRelease] }.pending = [.porNRelease]) ∧ State.reset.pending = [] ∧
    (∀ k : Fin 32, State.reset.jobs[k].state = .free) ∧ hwBusy State.reset = false ∧ State.reset.far.waiting = [] ∧ State.reset.by_.held = [] := by
  decide +kernel
theorem test_step_idles : ((tickTime State.reset).stg.t == 1 && (tickTime State.reset).pending.isEmpty) = true := by decide +kernel
theorem witness_StepKeepsMemoryCanonical : memWf State.reset.mem = true ∧ memWf State.reset.wh.buf = true ∧
    (match step { State.reset with pending := [.warmN] } with | .next _ => true | _ => false) = true := by decide +kernel

end Sys2Proof.Tests
end

section
/-! REGISTER_WRITE (R3, R24, R25): where a write into a well's window and one into the control register space go, what single registers make
of the value, and the statement that a write sets the fields of its register and nothing else. -/

namespace Sys2Proof.Machine

/-! Fields of a word. -/

theorem fieldN_eq (w : W64) (lo n : Nat) : fieldN w lo n = w.toNat / 2 ^ lo % 2 ^ n := by
  rw [fieldN, BitVec.extractLsb'_toNat, Nat.shiftRight_eq_div_pow]

theorem fieldN_lt (w : W64) (lo n : Nat) : fieldN w lo n < 2 ^ n := (w.extractLsb' lo n).isLt

theorem fieldN_or (x y : W64) (lo n : Nat) : fieldN (x ||| y) lo n = fieldN x lo n ||| fieldN y lo n := by
  rw [fieldN, BitVec.extractLsb'_or, BitVec.toNat_or]; rfl

theorem fieldN_putN {k a : Nat} (h : a * 2 ^ k < 2 ^ 64) (lo n : Nat) : fieldN (putN k a) lo n = a * 2 ^ k / 2 ^ lo % 2 ^ n := by
  rw [fieldN_eq, putN, w64, BitVec.toNat_ofNat, Nat.mod_eq_of_lt h]

/-- PW_PROFILEn after a write (R509): each of its fields takes a value of its range, and else keeps its own. -/
theorem fieldN_writeProfile (old v : W64) :
    fieldN (writeProfile old v) 48 16 = (if 400 ≤ fieldN v 48 16 ∧ fieldN v 48 16 ≤ 2800 then fieldN v 48 16 else fieldN old 48 16) ∧
      fieldN (writeProfile old v) 40 7 = (if 1 ≤ fieldN v 40 7 ∧ fieldN v 40 7 ≤ 64 then fieldN v 40 7 else fieldN old 40 7) := by
  simp only [writeProfile]
  generalize hl : (if 400 ≤ fieldN v 48 16 ∧ fieldN v 48 16 ≤ 2800 then fieldN v 48 16 else fieldN old 48 16) = l
  generalize hm : (if 1 ≤ fieldN v 40 7 ∧ fieldN v 40 7 ≤ 64 then fieldN v 40 7 else fieldN old 40 7) = m
  have hl' : l < 2 ^ 16 := by rw [← hl]; split <;> exact fieldN_lt _ _ _
  have hm' : m < 2 ^ 7 := by rw [← hm]; split <;> exact fieldN_lt _ _ _
  rw [fieldN_or, fieldN_or, fieldN_putN (by omega), fieldN_putN (by omega), fieldN_putN (by omega), fieldN_putN (by omega)]
  constructor
  · rw [show l * 2 ^ 48 / 2 ^ 48 % 2 ^ 16 = l by omega, show m * 2 ^ 40 / 2 ^ 48 % 2 ^ 16 = 0 by omega, Nat.or_zero]
  · rw [show l * 2 ^ 48 / 2 ^ 40 % 2 ^ 7 = 0 by omega, show m * 2 ^ 40 / 2 ^ 40 % 2 ^ 7 = m by omega, Nat.zero_or]

/-! Bytes read back. -/

@[simp] theorem toBytes_length (k v : Nat) : (toBytes k v).length = k := by
  induction k generalizing v with
  | zero => rfl
  | succ k ih => simp [toBytes, ih]

@[simp] theorem wordBytes_length (v : W64) : (wordBytes v).length = 8 := toBytes_length 8 _

/-- A range reads as the bytes that its addresses read as. -/
theorem memReads_eq {m : List Host.Cell} : ∀ {bs : List Byte} {x : Nat}, (∀ k < bs.length, memRead m (x + k) = bs.getD k 0) →
    memReads m x bs.length = bs
  | [], _, _ => rfl
  | b :: bs, x, h => by
    have hb : memRead m x = b := h 0 (Nat.succ_pos _)
    have hr : memReads m (x + 1) bs.length = bs := memReads_eq fun k hk => by
      have := h (k + 1) (Nat.succ_lt_succ hk)
      rwa [List.getD_cons_succ, ← Nat.add_assoc, Nat.add_right_comm] at this
    rw [List.length_cons, memReads, hb, hr]

/-- A range reads as the bytes that were written to it. -/
theorem memReads_memWrites_same {m : List Host.Cell} (h : memWf m = true) (x : Nat) (bs : List Byte) :
    memReads (memWrites m x bs) x bs.length = bs :=
  memReads_eq fun k hk => by rw [memRead_memWrites bs m x h, if_pos (by omega), Nat.add_sub_cancel_left]

/-! Where a write goes (R22, R24, R25). -/

/-- An offset of a well's window lies in that well. -/
theorem placeOf_wellAddr (w : WellId) {o : Nat} (ho : o < 0x1000000) : placeOf (wellAddr w o) = .well w o := by
  have hw := w.isLt
  have hq : (w.val * 0x1000000 + o) / 0x1000000 = w.val := by omega
  have hr : (w.val * 0x1000000 + o) % 0x1000000 = o := by omega
  have hs : 0x30000000000 + w.val * 0x1000000 + o - 0x30000000000 = w.val * 0x1000000 + o := by omega
  rw [placeOf, wellAddr, if_neg (by omega), if_neg (by omega), if_pos (by omega), hs, hq, hr, Fin.ofNat_val_eq_self]

theorem placeOf_ne_well {a : Nat} (h : a < 0x30000000000 ∨ 0x30080000000 ≤ a) (w : WellId) (o : Nat) : placeOf a ≠ .well w o := by
  unfold placeOf
  rw [if_neg (by omega : ¬ (0x30000000000 ≤ a ∧ a < 0x30080000000))]
  split_ifs <;> simp

/-- A write into a well's window reaches a control register from ring 0 of the well and from Headwater, and WM_OUT once its previous
message has been read (R419). -/
theorem exec_registerWrite_well (src : Agent) (w : WellId) (v : W64) (s : State) {o : Nat} (ho : o < 0x1000000) :
    exec (.registerWrite src (BitVec.ofNat 44 (wellAddr w o)) v) s =
      .next (if (src == .headwater || src == .windlass) && decide (0xF00000 ≤ o) && o % 8 == 0 && s.wellOn w && !mailWaits s w o then
        writeWellReg src w o v s else s) := by
  have ha : (BitVec.ofNat 44 (wellAddr w o)).toNat = wellAddr w o := by
    rw [BitVec.toNat_ofNat, Nat.mod_eq_of_lt]
    have := w.isLt
    simp only [wellAddr]
    omega
  show execRegisterWrite _ _ _ _ = _
  simp only [execRegisterWrite, ha, placeOf_wellAddr w ho]

/-- A write that the well refuses changes nothing. -/
theorem exec_registerWrite_well_refused {src : Agent} {w : WellId} {o : Nat} (v : W64) {s : State} (ho : o < 0x1000000)
    (h : o < 0xF00000 ∨ o % 8 ≠ 0 ∨ s.wellOn w = false ∨ src ≠ .headwater ∧ src ≠ .windlass) :
    exec (.registerWrite src (BitVec.ofNat 44 (wellAddr w o)) v) s = .next s := by
  rw [exec_registerWrite_well src w v s ho, if_neg]
  intro hc
  simp only [Bool.and_eq_true, Bool.or_eq_true, beq_iff_eq, decide_eq_true_eq] at hc
  obtain ⟨⟨⟨⟨hsrc, hlo⟩, h8⟩, hon⟩, -⟩ := hc
  rcases h with h | h | h | ⟨h, h'⟩
  · omega
  · exact h h8
  · simp [h] at hon
  · exact hsrc.elim h h'

/-- A write that the well takes is that of its register. -/
theorem exec_registerWrite_well_taken {src : Agent} {w : WellId} {o : Nat} (v : W64) {s : State} (hsrc : src = .headwater ∨ src = .windlass)
    (hon : s.wellOn w = true) (hlo : 0xF00000 ≤ o) (ho : o < 0x1000000) (h8 : o % 8 = 0) (hm : mailWaits s w o = false) :
    exec (.registerWrite src (BitVec.ofNat 44 (wellAddr w o)) v) s = .next (writeWellReg src w o v s) := by
  rw [exec_registerWrite_well src w v s ho, if_pos]
  simp [hsrc, hlo, h8, hon, hm]

/-- A write outside the wells' windows goes to the control register space, which no Windlass reaches. -/
theorem exec_registerWrite_control (src : Agent) (v : W64) (s : State) {a : Nat} (h : a < 0x30000000000 ∨ 0x30080000000 ≤ a) (ha : a < 2 ^ 44) :
    exec (.registerWrite src (BitVec.ofNat 44 a) v) s = .next (if src = .windlass then s else (writeControl src a v s).getD s) := by
  have ha' : (BitVec.ofNat 44 a).toNat = a := by rw [BitVec.toNat_ofNat, Nat.mod_eq_of_lt ha]
  show execRegisterWrite _ _ _ _ = _
  rw [execRegisterWrite, ha']
  split
  case h_1 w o hp => exact absurd hp (placeOf_ne_well h w o)
  case h_2 => rfl

/-- No register answers below the control register space, at an address that is no multiple of 8, and above its eight blocks. -/
theorem writeControl_none (src : Agent) (v : W64) (s : State) {a : Nat} (h : a < 0xF0000000000 ∨ a % 8 ≠ 0 ∨ 0xF0800000000 ≤ a) :
    writeControl src a v s = none := by
  rw [writeControl]
  split
  · rfl
  · obtain ⟨k, hk⟩ : ∃ k, (a - 0xF0000000000) / 0x100000000 = k + 8 := ⟨(a - 0xF0000000000) / 0x100000000 - 8, by omega⟩
    rw [hk]
    rfl

/-- An address without a register takes nothing. -/
theorem exec_registerWrite_reserved (src : Agent) (v : W64) (s : State) {a : Nat} (h : a < 0x30000000000 ∨ 0x30080000000 ≤ a) (ha : a < 2 ^ 44)
    (hr : a < 0xF0000000000 ∨ a % 8 ≠ 0 ∨ 0xF0800000000 ≤ a) : exec (.registerWrite src (BitVec.ofNat 44 a) v) s = .next s := by
  rw [exec_registerWrite_control src v s h ha, writeControl_none src v s hr, Option.getD_none, ite_self]

/-- A Windlass reaches no control register outside its well. -/
theorem exec_registerWrite_windlass (v : W64) (s : State) {a : Nat} (h : 0xF0000000000 ≤ a) (ha : a < 2 ^ 44) :
    exec (.registerWrite .windlass (BitVec.ofNat 44 a) v) s = .next s := by
  rw [exec_registerWrite_control _ v s (by omega) ha, if_pos rfl]

/-- The blocks of the control register space start every 4 GiB (R24). -/
theorem control_block {a : Nat} (k o : Nat) (ha : a = 0xF0000000000 + k * 0x100000000 + o) (ho : o < 0x100000000) (h8 : o % 8 = 0) :
    ¬(a < 0xF0000000000 ∨ a % 8 ≠ 0) ∧ (a - 0xF0000000000) / 0x100000000 = k ∧ (a - 0xF0000000000) % 0x100000000 = o := by
  omega

section
variable {src : Agent} (hs : src ≠ .windlass) (o : Nat) (v : W64) (s : State) (ho : o < 0x100000000) (h8 : o % 8 = 0)
include hs ho h8

/-- A write into the stage block (R353). -/
theorem exec_registerWrite_stage : exec (.registerWrite src (BitVec.ofNat 44 (0xF0500000000 + o)) v) s = .next ((writeStage o v s).getD s) := by
  obtain ⟨hc, hk, hr⟩ := control_block (a := 0xF0500000000 + o) 5 o (by omega) ho h8
  rw [exec_registerWrite_control src v s (by omega) (by omega), if_neg hs]
  simp only [writeControl, if_neg hc, hk, hr]

/-- A write into the power block (R509). -/
theorem exec_registerWrite_pw : exec (.registerWrite src (BitVec.ofNat 44 (0xF0600000000 + o)) v) s = .next ((writePw src o v s).getD s) := by
  obtain ⟨hc, hk, hr⟩ := control_block (a := 0xF0600000000 + o) 6 o (by omega) ho h8
  rw [exec_registerWrite_control src v s (by omega) (by omega), if_neg hs]
  simp only [writeControl, if_neg hc, hk, hr]

/-- A write into Wellhead's mailbox block (R532). -/
theorem exec_registerWrite_wh : exec (.registerWrite src (BitVec.ofNat 44 (0xF0700000000 + o)) v) s = .next ((writeWh o v s).getD s) := by
  obtain ⟨hc, hk, hr⟩ := control_block (a := 0xF0700000000 + o) 7 o (by omega) ho h8
  rw [exec_registerWrite_control src v s (by omega) (by omega), if_neg hs]
  simp only [writeControl, if_neg hc, hk, hr]

end

/-! What the tables of registers make of a value. -/

/-- The words of the event slots follow one another (R348). -/
theorem writeStage_slot (n : Fin 256) (k : Fin 4) (v : W64) (s : State) :
    writeStage (0x1000 + 32 * n.val + 8 * k.val) v s = some (slotWrite n k v s) := by
  have hn : Fin.ofNat 256 ((0x1000 + 32 * n.val + 8 * k.val - 0x1000) / 32) = n := Fin.ext (by simp only [Fin.ofNat]; omega)
  have hk : Fin.ofNat 4 ((0x1000 + 32 * n.val + 8 * k.val) % 32 / 8) = k := Fin.ext (by simp only [Fin.ofNat]; omega)
  unfold writeStage
  split
  case h_14 => rw [if_pos (by omega), hn, hk]
  all_goals omega

/-- Headwater alone sets the profiles (R509). -/
theorem writePw_profile (src : Agent) (n : Fin 8) (v : W64) (s : State) : writePw src (0x040 + 8 * n.val) v s =
    some (if src = .headwater then s.modPw (fun p => { p with profiles := p.profiles.set n (writeProfile p.profiles[n] v) }) else s) := by
  have hn : Fin.ofNat 8 ((0x040 + 8 * n.val - 0x40) / 8) = n := Fin.ext (by simp only [Fin.ofNat]; omega)
  unfold writePw
  split
  case h_8 => rw [if_pos (by omega)]; simp only [hn]
  all_goals omega

/-- The mailbox buffer takes words (R532). -/
theorem writeWh_buf {o : Nat} (ho : o < 0x10000) (h8 : o % 8 = 0) (v : W64) (s : State) :
    writeWh (0x10000 + o) v s = some (s.modWh (fun w => { w with buf := memWrites w.buf o (wordBytes v) })) := by
  unfold writeWh
  split
  case h_5 => rw [if_pos (by omega), Nat.add_sub_cancel_left]
  all_goals omega

/-- A word of the mailbox buffer is written alone. -/
theorem exec_registerWrite_buf {src : Agent} (hs : src ≠ .windlass) {s : State} (hb : memWf s.wh.buf = true) (v : W64) {o : Nat}
    (ho : o < 0x10000) (h8 : o % 8 = 0) : ∃ t, exec (.registerWrite src (BitVec.ofNat 44 (0xF0700010000 + o)) v) s = .next t ∧
      memReads t.wh.buf o 8 = wordBytes v ∧ (∀ b, b < o ∨ o + 8 ≤ b → memRead t.wh.buf b = memRead s.wh.buf b) ∧ memWf t.wh.buf = true ∧
      t = { s with wh := { s.wh with buf := t.wh.buf } } := by
  have hw := exec_registerWrite_wh hs (0x10000 + o) v s (by omega) (by omega)
  rw [writeWh_buf ho h8, ← Nat.add_assoc] at hw
  refine ⟨_, hw, ?_, fun b hb' => ?_, memWrites_wf _ _ _ hb, rfl⟩
  · exact wordBytes_length v ▸ memReads_memWrites_same hb o (wordBytes v)
  · exact memRead_memWrites_other _ _ _ hb _ (by rwa [wordBytes_length])

/-- A write of a word of an event slot is that of EVENT_SLOT_WRITE (R348). -/
theorem exec_registerWrite_slot {src : Agent} (hs : src ≠ .windlass) (s : State) (v : W64) (n : Fin 256) (k : Fin 4) :
    exec (.registerWrite src (BitVec.ofNat 44 (0xF0500001000 + 32 * n.val + 8 * k.val)) v) s = exec (.eventSlotWrite n k v) s := by
  have hw := exec_registerWrite_stage hs (0x1000 + 32 * n.val + 8 * k.val) v s (by omega) (by omega)
  rwa [writeStage_slot, ← Nat.add_assoc, ← Nat.add_assoc] at hw

/-- A profile is set by Headwater alone, each of its fields within its range. -/
theorem exec_registerWrite_profile {src : Agent} (hs : src ≠ .windlass) (s : State) (v : W64) (n : Fin 8) :
    let into : Out := exec (.registerWrite src (BitVec.ofNat 44 (0xF0600000040 + 8 * n.val)) v) s
    let old := s.pw.profiles[n]
    (src ≠ .headwater → into = .next s) ∧
      (src = .headwater → ∃ t, into = .next t ∧ t.pw.profiles = s.pw.profiles.set n t.pw.profiles[n] ∧ t.mem = s.mem ∧
        fieldN t.pw.profiles[n] 48 16 = (if 400 ≤ fieldN v 48 16 ∧ fieldN v 48 16 ≤ 2800 then fieldN v 48 16 else fieldN old 48 16) ∧
        fieldN t.pw.profiles[n] 40 7 = (if 1 ≤ fieldN v 40 7 ∧ fieldN v 40 7 ≤ 64 then fieldN v 40 7 else fieldN old 40 7)) := by
  intro into old
  have hw : into = .next ((writePw src (0x040 + 8 * n.val) v s).getD s) := by
    have := exec_registerWrite_pw hs (0x040 + 8 * n.val) v s (by omega) (by omega)
    rwa [← Nat.add_assoc] at this
  rw [writePw_profile, Option.getD_some] at hw
  constructor
  · intro h
    rw [hw, if_neg h]
  · intro h
    rw [if_pos h] at hw
    have hset : (s.pw.profiles.set n (writeProfile s.pw.profiles[n] v))[n] = writeProfile old v := Vector.getElem_set_self n.isLt
    refine ⟨_, hw, ?_, rfl, ?_⟩
    · simp only [State.modPw, hset]
      rfl
    · simp only [State.modPw, hset]
      exact fieldN_writeProfile old v

theorem mailWaits_mailOut (s : State) (w : WellId) : mailWaits s w 0xF04000 = s.wells[w].mailOut.isSome := rfl

theorem mailWaits_other (s : State) (w : WellId) {o : Nat} (h : o ≠ 0xF04000) : mailWaits s w o = false := by
  simp [mailWaits, h]

/-- WM_OUT takes a message once the previous one has been read (R419). -/
theorem exec_registerWrite_mailOut {src : Agent} {w : WellId} (v : W64) {s : State} (hsrc : src = .headwater ∨ src = .windlass)
    (hon : s.wellOn w = true) : exec (.registerWrite src (BitVec.ofNat 44 (wellAddr w 0xF04000)) v) s =
      if s.wells[w].mailOut = none then .next (s.modWell w (fun u => { u with mailOut := some v })) else .next s := by
  split
  case isTrue h =>
    have hm : mailWaits s w 0xF04000 = false := by rw [mailWaits_mailOut, h, Option.isSome_none]
    exact exec_registerWrite_well_taken v hsrc hon (by decide) (by decide) (by decide) hm
  case isFalse h =>
    have hm : mailWaits s w 0xF04000 = true := by rw [mailWaits_mailOut, Option.isSome_iff_ne_none]; exact h
    rw [exec_registerWrite_well src w v s (by decide), hm, if_neg (by simp)]

/-- The read-only registers of a well keep what they hold. -/
theorem writeWellReg_readOnly (src : Agent) (w : WellId) (v : W64) (s : State) :
    ∀ o ∈ [0xF05000, 0xF05008, 0xF06010, 0xF06018, 0xF07000], writeWellReg src w o v s = s := by
  simp [writeWellReg]

/-- The read-only registers of the stage block likewise. -/
theorem writeStage_readOnly (v : W64) (s : State) : ∀ o ∈ [0x000, 0x008, 0x018, 0x048, 0x050, 0x058], writeStage o v s = some s := by
  simp [writeStage]

/-- Settles O57, register by register: each write is led to its register by the map, and the register's own write is its effect. -/
theorem registerWritesSetTheirFields : Obligations.RegisterWritesSetTheirFields := by
  intro s src v hbuf
  refine ⟨fun a ha => exec_registerWrite_reserved src v s (by omega) (by omega) (by omega), fun w o ho h => exec_registerWrite_well_refused v ho h,
    fun w hon hsrc => ?_, ?_, fun hs => ?_⟩
  · have well (o : Nat) (hm : o ≠ 0xF04000 := by decide) (hlo : 0xF00000 ≤ o := by decide) (ho : o < 0x1000000 := by decide)
        (h8 : o % 8 = 0 := by decide) : exec (.registerWrite src (BitVec.ofNat 44 (wellAddr w o)) v) s = .next (writeWellReg src w o v s) :=
      exec_registerWrite_well_taken v hsrc hon hlo ho h8 (mailWaits_other s w hm)
    refine ⟨fun p => ?_, exec_registerWrite_mailOut v hsrc hon, well 0xF06020, well 0xF06028, ?_, fun o ho => ?_⟩
    · match p with
      | 0 => exact well 0xF05010
      | 1 => exact well 0xF05018
    · refine (well 0xF07100).trans ?_
      exact apply_ite Host.Outcome.next _ _ _
    · obtain ⟨hlo, hhi, h8, hm⟩ : 0xF00000 ≤ o ∧ o < 0x1000000 ∧ o % 8 = 0 ∧ o ≠ 0xF04000 := by revert o; decide
      exact (well o hm hlo hhi h8).trans (congrArg _ (writeWellReg_readOnly src w v s o ho))
  · rintro rfl a ha ha'
    exact exec_registerWrite_windlass v s ha ha'
  · have stage (o : Nat) (ho : o < 0x100000000 := by decide) (h8 : o % 8 = 0 := by decide) := exec_registerWrite_stage hs o v s ho h8
    have pw (o : Nat) (ho : o < 0x100000000 := by decide) (h8 : o % 8 = 0 := by decide) := exec_registerWrite_pw hs o v s ho h8
    refine ⟨fun a ha h ha' => exec_registerWrite_reserved src v s (by omega) ha' (.inr h), fun o ho => ?_,
      stage 0x010, stage 0x020, stage 0x028, stage 0x030, stage 0x040, stage 0x060,
      exec_registerWrite_slot hs s v, exec_registerWrite_profile hs s v, ?_, pw 0x028, fun o ho h8 => exec_registerWrite_buf hs hbuf v ho h8⟩
    · obtain ⟨hhi, h8⟩ : o < 0x100000000 ∧ o % 8 = 0 := by revert o; decide
      refine (stage o hhi h8).trans ?_
      rw [writeStage_readOnly v s o ho, Option.getD_some]
    · refine (pw 0x020).trans ?_
      exact apply_ite Host.Outcome.next _ _ _

end Sys2Proof.Machine
end

section
/-! What an issued word does when the model's own checks are met: the laws that the statements about the Millrace and the Pumps share. -/

namespace Sys2Proof.Machine

/-- The words of a row that has one OPCODE. -/
theorem Row.covers_of {mn : String} {cls op : Nat} {legal : W64 → Bool} {i : W64} (hc : wClass i = cls) (ho : wOp i = op) :
    Row.covers { mnemonic := mn, cls := cls, lo := op, hi := op, legal := legal } i = true := by
  simp [Row.covers, hc, ho]

/-- A word of the row whose fields the row does not allow is an illegal instruction (R159). -/
theorem issue_illegal {w : WellId} {i : W64} {row : Row} {uses : Windlass → Uses} {body : State → CpuRes} {s : State} (h : ready w s = true)
    (hc : row.covers i = true) (hl : row.legal i = false) : issue w i row uses body s = .next (takeException w 0x01 i s) := by
  obtain ⟨h1, h2, h3, h4, h5, h6, h7, h8, h9, hl'⟩ := ready_parts h
  have hb : (s.cpu w).badDue = none := by simp [Windlass.badDue, h3]
  simp [issue, issueState, h1, h2, h5, h6, hb, State.closeDue_of_empty h3, hc, hl, hl']

/-- An empty store buffer drains to nothing. -/
theorem State.drainAll_of_empty {s : State} {w : WellId} (h : (s.cpu w).storeBuf = []) : s.drainAll w = s := by
  rw [State.drainAll, h]
  refine State.modCpu_of_eq ?_
  rw [List.foldl_nil, ← h]

/-- The line in use stands apart from the registers. -/
@[simp] theorem Windlass.useLine_gN (c : Windlass) (a : BitVec 16) (p : BitVec 56) : (c.useLine a p).gN = c.gN := by
  simp only [Windlass.useLine]; split <;> rfl
@[simp] theorem Windlass.useLine_gS (c : Windlass) (a : BitVec 16) (p : BitVec 56) : (c.useLine a p).gS = c.gS := by
  simp only [Windlass.useLine]; split <;> rfl
@[simp] theorem Windlass.useLine_exc (c : Windlass) (a : BitVec 16) (p : BitVec 56) : (c.useLine a p).exc = c.exc := by
  simp only [Windlass.useLine]; split <;> rfl

theorem retired_gN (c : Windlass) : (retired c).gN = c.gN := Windlass.useLine_gN c _ _
theorem retired_gS (c : Windlass) : (retired c).gS = c.gS := Windlass.useLine_gS c _ _
theorem retired_exc (c : Windlass) : (retired c).exc = c.exc := Windlass.useLine_exc c _ _

/-- A body that completes retires its instruction where it opens no window and leaves the pc. -/
theorem conclude_done {w : WellId} {s t : State} (h1 : (t.cpu w).loads = []) (h2 : (t.cpu w).modeWins = []) (h3 : (t.cpu w).pc = (s.cpu w).pc) :
    conclude w s (.done t) = t.modCpu w retired := by
  rw [show conclude w s (.done t) = retire1 w ((s.cpu w).pc + 8) t from rfl, retire1_of_empty h1 h2]
  exact State.modCpu_congr (by rw [retired, h3])

/-- A body that leaves the Windlass alone retires its instruction. -/
theorem conclude_done_of_cpu {w : WellId} {s t : State} (h : ready w s = true) (hc : t.cpu w = s.cpu w) :
    conclude w s (.done t) = t.modCpu w retired := by
  obtain ⟨_, _, h3, h4, _⟩ := ready_parts h
  exact conclude_done (hc ▸ h3) (hc ▸ h4) (hc ▸ rfl)

/-- A body that writes one g register, whatever else it has done outside the Flume and but for the exception registers of the Windlass,
retires its instruction. -/
theorem conclude_setG {w : WellId} {s t : State} (h : ready w s = true) (hc : ∃ x, t.cpu w = { s.cpu w with exc := x })
    (hf : t.wells[w].flume = s.wells[w].flume) (n : Fin 32) (v : W64) :
    conclude w s (.done (setG w n v t)) = t.modCpu w (fun c => retired (c.wr_ n v)) := by
  obtain ⟨x, hx⟩ := hc
  obtain ⟨_, _, hl, hm, _, _, _, hg, hw, _⟩ := ready_parts h
  rw [setG_of_empty (by rw [hx]; exact hg) (hf ▸ hw), conclude_done (by simpa [hx] using hl) (by simpa [hx] using hm) (by simp [hx]),
    State.modCpu_modCpu]

/-- Two changes that agree on what the well holds are the same change. -/
theorem State.modWell_congr {s : State} {w : WellId} {f g : Well → Well} (h : f s.wells[w.val] = g s.wells[w.val]) : s.modWell w f = s.modWell w g := by
  show { s with wells := s.wells.set w (f s.wells[w.val]) } = { s with wells := s.wells.set w (g s.wells[w.val]) }
  rw [h]

/-- No change of the store tags' service holds an instruction (R250). -/
theorem holdPend_free {w : WellId} {s : State} (h : s.wells[w].st.pend = false) (body : CpuRes) : holdPend w s body = body :=
  if_neg (Bool.not_eq_true _ ▸ h)

/-- One that does holds it before its own faults (R250). -/
theorem holdPend_held {w : WellId} {s : State} (h : s.wells[w].st.pend = true) (body : CpuRes) : holdPend w s body = .wait .wsModePend s :=
  if_pos h

/-- The same of the store registers. -/
theorem State.modSt_congr {s : State} {w : WellId} {f g : Stores → Stores} (h : f s.wells[w.val].st = g s.wells[w.val].st) :
    s.modSt w f = s.modSt w g := State.modWell_congr (by rw [h])

/-- Noting the peak of the range entries in use changes the peak alone (R262). -/
theorem notePeak_eq (w : WellId) (s : State) : ∃ n, notePeak w s = s.modSt w (fun t => { t with peak := n }) := by
  by_cases h : s.wells[w.val].st.peak.toNat < (heldEntries s w).length
  · exact ⟨BitVec.ofNat 4 (heldEntries s w).length, State.modSt_congr (if_pos h)⟩
  · exact ⟨s.wells[w.val].st.peak, State.modSt_congr (if_neg h)⟩

end Sys2Proof.Machine
end

section
/-! CLASS 0x7, the queued instructions (R95-R98, R112, R116): each either takes its at-issue fault or enters the queue as it stands. -/

namespace Sys2Proof.Machine

/-- The operand that a queued instruction captures from its source k (R97). -/
def mrOperand (c : Windlass) (l : List (Fin 32)) (k : Nat) : W64 := match l[k]? with | some n => c.rd n | none => 0

/-- The entry that a queued instruction makes, with its operands and rounding mode (R98, R112). -/
def mrEntryOf (i a b d : W64) (rm : Nat) (u : Well) : MrEntry :=
  { word := i, s1 := a, s2 := b, s3 := d, addr := u.cpu.pc, rm := BitVec.ofNat 3 rm, pass := 0,
    ctr := u.mr.trigBase + BitVec.ofNat 12 (fieldN i 11 12), flags := 0, fseq := u.flume.issued }

section
variable {mn : String} {op : Nat} {legal : W64 → Bool} {srcs : W64 → List (Fin 32)} {w : WellId} {i : W64} {s : State} (h : ready w s = true)
  (hc : wClass i = 7) (ho : wOp i = op) (hl : legal i = true) (hp : s.wells[w].st.pend = false) {a b d : W64}
  (ha : mrOperand (s.cpu w) (srcs i) 0 = a) (hb : mrOperand (s.cpu w) (srcs i) 1 = b) (hd : mrOperand (s.cpu w) (srcs i) 2 = d)
include h hc ho hl hp ha hb hd

/-- An at-issue fault is taken, and nothing is queued (R116, R117). -/
theorem mrQueue_refused {code : BitVec 8} (hf : mrIssueFault s.wells[w].mr s.wells[w].st i a b d = some code) :
    mrQueue mn op legal srcs w i s = .next (takeException w code ((s.cpu w).pc.setWidth 64) s) := by
  subst ha hb hd
  rw [mrQueue, issue_ready h (Row.covers_of hc ho) hl, holdPend_free hp]
  dsimp only
  split
  case h_1 heq =>
    cases heq.symm.trans hf
    rfl
  case h_2 heq => cases heq.symm.trans hf

/-- With no fault, room in the queue and no range in the way the entry is queued; the peak of the range entries follows (R262). -/
theorem mrQueue_queued (hsb : (s.cpu w).storeBuf = []) (hq : s.wells[w].mr.queue.length < 8)
    (hf : mrIssueFault s.wells[w].mr s.wells[w].st i a b d = none)
    (hr : entriesFree s w (mrSpans (modeAfter s.wells[w].mr (mrTile i)) i a b d) = true) :
    ∃ n, mrQueue mn op legal srcs w i s = .next (((s.modMr w (fun m => { m with queue := m.queue ++
      [mrEntryOf i a b d (if op = 3 then resolveRm (fieldN i 24 3) (s.cpu w).eff.frm else 0) s.wells[w]] })).modSt w
        (fun t => { t with peak := n })).modCpu w retired) := by
  obtain ⟨n, hn⟩ := notePeak_eq w (s.modMr w (fun m => { m with queue := m.queue ++
    [mrEntryOf i a b d (if op = 3 then resolveRm (fieldN i 24 3) (s.cpu w).eff.frm else 0) s.wells[w]] }))
  refine ⟨n, ?_⟩
  subst ha hb hd
  rw [mrQueue, issue_ready h (Row.covers_of hc ho) hl, holdPend_free hp]
  dsimp only
  split
  case h_1 heq => cases heq.symm.trans hf
  case h_2 heq =>
    rw [if_neg (by omega), if_neg (by rw [Bool.not_eq_true', Bool.not_eq_false]; exact hr), State.drainAll_of_empty hsb, ← hn,
      ← conclude_done_of_cpu h (by rw [hn]; simp)]
    rfl

/-- What the queue and the rest of the well are after the instruction has been queued. -/
theorem mrQueue_queues (hsb : (s.cpu w).storeBuf = []) (hq : s.wells[w].mr.queue.length < 8) {rm : Nat}
    (hrm : (if op = 3 then resolveRm (fieldN i 24 3) (s.cpu w).eff.frm else 0) = rm) :
    (mrIssueFault s.wells[w].mr s.wells[w].st i a b d = none →
      entriesFree s w (mrSpans (modeAfter s.wells[w].mr (mrTile i)) i a b d) = true →
      ∃ t, mrQueue mn op legal srcs w i s = .next t ∧ t.cpu w = retired (s.cpu w) ∧
        t.wells[w].mr = { s.wells[w].mr with queue := s.wells[w].mr.queue ++ [mrEntryOf i a b d rm s.wells[w]] } ∧
        t.wells[w].flume = s.wells[w].flume ∧ t.wells[w].st.tags = s.wells[w].st.tags ∧ t.mem = s.mem) ∧
    ∀ code, mrIssueFault s.wells[w].mr s.wells[w].st i a b d = some code →
      mrQueue mn op legal srcs w i s = .next (takeException w code ((s.cpu w).pc.setWidth 64) s) := by
  subst hrm
  refine ⟨fun hf hr => ?_, fun code hf => mrQueue_refused h hc ho hl hp ha hb hd hf⟩
  obtain ⟨n, hn⟩ := mrQueue_queued h hc ho hl hp ha hb hd hsb hq hf hr
  exact ⟨_, hn, by simp, by simp, by simp, by simp, rfl⟩

end

/-- Settles O24: each queued instruction is `mrQueue` with its own fields and sources. -/
theorem millraceQueues : Obligations.MillraceQueues := by
  intro w i s h hc hsb hp hq h49
  have hacc : accOk i = true := by simp [accOk, h49]
  refine ⟨fun ho h2 h3 h4 => ?_, fun ho h4 => ?_, fun ho h2 h3 h4 h5 => ?_, fun ho h1 h2 h3 h4 h5 => ?_, fun h2 h3 h4 => ⟨fun ho => ?_, fun ho => ?_⟩⟩
  · exact mrQueue_queues (srcs := fun i => [wS1 i]) h hc ho (by simp [hacc, h2, h3, h4]) hp rfl rfl rfl hsb hq rfl
  · exact mrQueue_queues (srcs := fun i => [wS1 i, wS2 i, wS3 i]) h hc ho (by simp [hacc, h4]) hp rfl rfl rfl hsb hq rfl
  · exact mrQueue_queues (srcs := fun i => [wS1 i]) h hc ho (by simp [hacc, h2, h3, h4, h5]) hp rfl rfl rfl hsb hq rfl
  · exact mrQueue_queues (srcs := fun _ => []) h hc ho (by simp [hacc, h1, h2, h3, h4, h5]) hp rfl rfl rfl hsb hq rfl
  · exact mrQueue_queues (srcs := fun i => [wS1 i]) h hc ho (by simp [hacc, h2, h3, h4]) hp rfl rfl rfl hsb hq rfl
  · exact mrQueue_queues (srcs := fun i => [wS1 i]) h hc ho (by simp [hacc, h2, h3, h4]) hp rfl rfl rfl hsb hq rfl

end Sys2Proof.Machine
end

section
/-! Device memory and the stores as the Millrace and the Pumps use them: bytes and words after a write, what an ECC read can change, and the
operations on a tile, which leave everything but memory, the store registers and the tiles' sidebands as it was. -/

namespace Sys2Proof.Machine

/-! Bytes. -/

theorem ofBytes_toBytes (k v : Nat) : ofBytes (toBytes k v) = v % 256 ^ k := by
  induction k generalizing v with
  | zero => simp [toBytes, ofBytes, Nat.mod_one]
  | succ k ih => rw [toBytes, ofBytes, ih, BitVec.toNat_ofNat, show 256 ^ (k + 1) = 256 * 256 ^ k from Nat.pow_succ', Nat.mod_mul (a := 256)]

theorem ofBytes_append (a b : List Byte) : ofBytes (a ++ b) = ofBytes a + 256 ^ a.length * ofBytes b := by
  induction a with
  | nil => simp [ofBytes]
  | cons x a ih => rw [List.cons_append, ofBytes, ih, ofBytes, List.length_cons, Nat.pow_succ']; ring

/-- A word is what its bytes hold. -/
@[simp] theorem bytesWord_wordBytes (v : W64) : bytesWord (wordBytes v) = v := by
  rw [bytesWord, wordBytes, ofBytes_toBytes, w64, Nat.mod_eq_of_lt (show v.toNat < 256 ^ 8 from v.isLt), BitVec.ofNat_toNat, BitVec.setWidth_eq]

section
variable {s : State} (h : s.MemOk)
include h

theorem State.writeBytes_memOk (x : Nat) (bs : List Byte) : (s.writeBytes x bs).MemOk := memWrites_wf bs s.mem x h

theorem State.clearBytes_memOk (lo hi : Nat) : (s.clearBytes lo hi).MemOk := memClear_wf s.mem lo hi h

theorem State.byteAt_writeBytes (x : Nat) (bs : List Byte) (y : Nat) :
    (s.writeBytes x bs).byteAt y = if x ≤ y ∧ y < x + bs.length then bs.getD (y - x) 0 else s.byteAt y := memRead_memWrites bs s.mem x h y

theorem State.byteAt_writeBytes_other {x : Nat} {bs : List Byte} {y : Nat} (hy : y < x ∨ x + bs.length ≤ y) :
    (s.writeBytes x bs).byteAt y = s.byteAt y := memRead_memWrites_other s.mem x bs h y hy

end

theorem State.byteAt_clearBytes (s : State) (lo hi y : Nat) : (s.clearBytes lo hi).byteAt y = if lo ≤ y ∧ y < hi then 0 else s.byteAt y :=
  memRead_memClear s.mem lo hi y

/-- A range reads the same where its bytes are the same. -/
theorem State.readBytes_congr {s t : State} {x n : Nat} (h : ∀ y, x ≤ y → y < x + n → t.byteAt y = s.byteAt y) : t.readBytes x n = s.readBytes x n := by
  induction n generalizing x with
  | zero => rfl
  | succ n ih =>
    have hx : memRead t.mem x = memRead s.mem x := h x (Nat.le_refl x) (by omega)
    have hr : memReads t.mem (x + 1) n = memReads s.mem (x + 1) n := ih fun y h1 h2 => h y (by omega) (by omega)
    show memReads t.mem x (n + 1) = memReads s.mem x (n + 1)
    rw [memReads, memReads, hx, hr]

/-- A range reads as the bytes that it holds. -/
theorem State.readBytes_eq {s : State} {x : Nat} {bs : List Byte} (h : ∀ k < bs.length, s.byteAt (x + k) = bs.getD k 0) :
    s.readBytes x bs.length = bs := memReads_eq h

theorem State.readBytes_writeBytes {s : State} (h : s.MemOk) (x : Nat) (bs : List Byte) : (s.writeBytes x bs).readBytes x bs.length = bs :=
  memReads_memWrites_same h x bs

theorem State.readWord_writeWord {s : State} (h : s.MemOk) (x : Nat) (v : W64) : (s.writeWord x v).readWord x = v := by
  have e : (s.writeWord x v).readBytes x 8 = wordBytes v := wordBytes_length v ▸ s.readBytes_writeBytes h x (wordBytes v)
  rw [State.readWord, e, bytesWord_wordBytes]

theorem State.readWord_congr {s t : State} {x : Nat} (h : ∀ y, x ≤ y → y < x + 8 → t.byteAt y = s.byteAt y) : t.readWord x = s.readWord x := by
  rw [State.readWord, State.readWord, State.readBytes_congr h]

/-- Words read from equal memories are equal. -/
theorem State.readWords_congr {s t : State} (h : t.mem = s.mem) (a n : Nat) : t.readWords a n = s.readWords a n := by
  induction n generalizing a with
  | zero => rfl
  | succ n ih => rw [State.readWords, State.readWords, ih, State.readWord_congr fun y _ _ => congrArg (memRead · y) h]

/-- Writing words changes memory alone. -/
theorem State.writeWords_frame (a : Nat) (vs : List W64) (s : State) : ∃ m u c, s.writeWords a vs = { s with mem := m, ue := u, ce := c } := by
  induction vs generalizing a s with
  | nil => exact ⟨_, _, _, rfl⟩
  | cons v vs ih =>
    obtain ⟨m, u, c, h⟩ := ih (a + 8) (s.writeWord a v)
    exact ⟨m, u, c, h⟩

@[simp] theorem State.writeWords_wells (a : Nat) (vs : List W64) (s : State) : (s.writeWords a vs).wells = s.wells := by
  obtain ⟨m, u, c, h⟩ := State.writeWords_frame a vs s
  rw [h]

@[simp] theorem State.writeWords_inflight (a : Nat) (vs : List W64) (s : State) : (s.writeWords a vs).inflight = s.inflight := by
  obtain ⟨m, u, c, h⟩ := State.writeWords_frame a vs s
  rw [h]

@[simp] theorem State.writeWords_cpu (a : Nat) (vs : List W64) (s : State) (w : WellId) : (s.writeWords a vs).cpu w = s.cpu w := by
  rw [State.cpu, State.writeWords_wells]; rfl

/-- Words written lie where they were written, and no other byte changes. -/
theorem State.byteAt_writeWords_other {s : State} (h : s.MemOk) {a : Nat} {vs : List W64} {y : Nat} (hy : y < a ∨ a + 8 * vs.length ≤ y) :
    (s.writeWords a vs).byteAt y = s.byteAt y := by
  induction vs generalizing a s with
  | nil => rfl
  | cons v vs ih =>
    rw [List.length_cons] at hy
    have hok : (s.writeWord a v).MemOk := State.writeBytes_memOk h _ _
    rw [State.writeWords, ih hok (by omega)]
    exact State.byteAt_writeBytes_other h (by rw [wordBytes_length]; omega)

theorem State.readWord_writeWords {s : State} (h : s.MemOk) {a : Nat} {vs : List W64} {j : Nat} (hj : j < vs.length) :
    (s.writeWords a vs).readWord (a + 8 * j) = vs.getD j 0 := by
  induction vs generalizing a s j with
  | nil => exact absurd hj (Nat.not_lt_zero j)
  | cons v vs ih =>
    have hok : (s.writeWord a v).MemOk := State.writeBytes_memOk h _ _
    rw [State.writeWords]
    cases j with
    | zero =>
      rw [State.readWord_congr (s := s.writeWord a v) fun y _ hy => State.byteAt_writeWords_other hok (by omega)]
      exact s.readWord_writeWord h a v
    | succ j =>
      rw [show a + 8 * (j + 1) = a + 8 + 8 * j by omega, List.getD_cons_succ]
      exact ih hok (Nat.lt_of_succ_lt_succ hj)

/-! ECC reads (R251). -/

/-- What an ECC read makes of the correctable words of its range: they are corrected and noted. -/
def eccCorrected (w : WellId) (src o n : Nat) (s : State) : State :=
  let hit (k : Nat) : Bool := decide (k * 8 < wellAddr w o + n ∧ wellAddr w o < k * 8 + 8)
  let ces := s.ce.filter hit
  if ces.isEmpty then s else
    { s with ce := s.ce.filter (fun k => !hit k) }.modSt w (fun t =>
      { t with cecnt := countUp t.cecnt ces.length, elast := elastWord false src (ces.getLastD 0 * 8 - wellAddr w 0) })

theorem eccCorrected_eq (w : WellId) (src o n : Nat) (s : State) : ∃ ces cnt el,
    eccCorrected w src o n s = { s with ce := ces }.modSt w (fun t => { t with cecnt := cnt, elast := el }) := by
  unfold eccCorrected
  dsimp only
  split
  · exact ⟨s.ce, s.wells[w.val].st.cecnt, s.wells[w.val].st.elast, (State.modWell_of_eq rfl).symm⟩
  · exact ⟨_, countUp s.wells[w.val].st.cecnt _, _, State.modSt_congr rfl⟩

/-- An ECC read corrects, and notes the first uncorrectable word where there is one. -/
theorem eccRead_eq (w : WellId) (src o n : Nat) (s : State) : eccRead w src o n s =
    match s.ue.find? (fun k => decide (k * 8 < wellAddr w o + n ∧ wellAddr w o < k * 8 + 8)) with
    | none => (none, eccCorrected w src o n s)
    | some k => (some (k * 8 - wellAddr w 0),
        (eccCorrected w src o n s).modSt w (fun t => { t with elast := elastWord true src (k * 8 - wellAddr w 0) })) := by
  have hue : (eccCorrected w src o n s).ue = s.ue := by
    obtain ⟨_, _, _, h⟩ := eccCorrected_eq w src o n s
    rw [h]; rfl
  rw [← hue]
  rfl

/-- An ECC read may correct words and note it; it changes no byte and no other register. -/
theorem eccRead_snd (w : WellId) (src o n : Nat) (s : State) : ∃ ces cnt el,
    (eccRead w src o n s).2 = { s with ce := ces }.modSt w (fun t => { t with cecnt := cnt, elast := el }) := by
  obtain ⟨ces, cnt, el, h⟩ := eccCorrected_eq w src o n s
  rw [eccRead_eq]
  split
  case h_1 => exact ⟨ces, cnt, el, h⟩
  case h_2 k _ =>
    refine ⟨ces, cnt, elastWord true src (k * 8 - wellAddr w 0), ?_⟩
    dsimp only
    rw [h]
    simp [State.modSt, State.modWell]

/-- A range without an uncorrectable word is read whole. -/
theorem eccRead_fst {w : WellId} {o n : Nat} {s : State} (src : Nat) (h : ueHit s.ue (wellAddr w o) n = false) : (eccRead w src o n s).1 = none := by
  have hn : s.ue.find? (fun k => decide (k * 8 < wellAddr w o + n ∧ wellAddr w o < k * 8 + 8)) = none := by
    rw [List.find?_eq_none]
    simpa [ueHit, List.any_eq_false] using h
  rw [eccRead_eq, hn]

section
variable (w : WellId) (src o n : Nat) (s : State)

@[simp] theorem eccRead_mem : (eccRead w src o n s).2.mem = s.mem := by obtain ⟨_, _, _, h⟩ := eccRead_snd w src o n s; rw [h]; rfl
@[simp] theorem eccRead_ue : (eccRead w src o n s).2.ue = s.ue := by obtain ⟨_, _, _, h⟩ := eccRead_snd w src o n s; rw [h]; rfl
@[simp] theorem eccRead_inflight : (eccRead w src o n s).2.inflight = s.inflight := by obtain ⟨_, _, _, h⟩ := eccRead_snd w src o n s; rw [h]; rfl
@[simp] theorem eccRead_cpu : (eccRead w src o n s).2.cpu w = s.cpu w := by
  obtain ⟨_, _, _, h⟩ := eccRead_snd w src o n s; rw [h, State.modSt_cpu]; rfl
@[simp] theorem eccRead_mr : (eccRead w src o n s).2.wells[w.val].mr = s.wells[w.val].mr := by
  obtain ⟨_, _, _, h⟩ := eccRead_snd w src o n s; rw [h, State.modSt_same_mr]
@[simp] theorem eccRead_flume : (eccRead w src o n s).2.wells[w.val].flume = s.wells[w.val].flume := by
  obtain ⟨_, _, _, h⟩ := eccRead_snd w src o n s; rw [h, State.modSt_same_flume]

end

/-! Operations on tiles: everything but memory, the store registers and the sidebands. -/

/-- What the operations on a tile of well w leave: its Windlass, its Millrace without the sidebands, and the increments on their way. -/
def besideTiles (w : WellId) (s : State) : Windlass × Millrace × List InFlight :=
  (s.cpu w, { s.wells[w].mr with tiles := Vector.replicate 16 Tile.reset }, s.inflight)

section
variable (w : WellId) (s : State)

@[simp] theorem besideTiles_writeBytes (x : Nat) (bs : List Byte) : besideTiles w (s.writeBytes x bs) = besideTiles w s := rfl
@[simp] theorem besideTiles_clearBytes (lo hi : Nat) : besideTiles w (s.clearBytes lo hi) = besideTiles w s := rfl
@[simp] theorem besideTiles_writeAcc (fl : Bool) (a r c : Nat) (v : Int) : besideTiles w (writeAcc w fl a r c v s) = besideTiles w s := rfl
@[simp] theorem besideTiles_modTile (a : Nat) (f : Tile → Tile) : besideTiles w (modTile w a f s) = besideTiles w s := by
  simp [besideTiles, modTile]
@[simp] theorem besideTiles_modSt (f : Stores → Stores) : besideTiles w (s.modSt w f) = besideTiles w s := by
  simp [besideTiles]
@[simp] theorem besideTiles_eccRead (src o n : Nat) : besideTiles w (eccRead w src o n s).2 = besideTiles w s := by
  simp [besideTiles]
@[simp] theorem besideTiles_tileEcc (t : Tile) (a lo hi : Nat) : besideTiles w (tileEcc w t a lo hi s).2 = besideTiles w s := by
  unfold tileEcc
  dsimp only
  split
  · rfl
  · exact besideTiles_eccRead w s _ _ _
@[simp] theorem besideTiles_emptyToZero (a : Nat) (t : Tile) : besideTiles w (emptyToZero w a t s) = besideTiles w s := by
  unfold emptyToZero; split <;> rfl
@[simp] theorem besideTiles_reanchor (a : Nat) (g : Int) : besideTiles w (reanchor w a g s) = besideTiles w s := by
  rw [reanchor, besideTiles_modTile]
  generalize tileCells 64 = l
  refine foldl_keeps (fun p : State × Bool => besideTiles w p.1) _ (fun p rc => ?_) l (s, false)
  dsimp only
  split
  · rfl
  · exact besideTiles_writeAcc w _ _ _ _ _ _
@[simp] theorem besideTiles_halveTile (a : Nat) : besideTiles w (halveTile w a s) = besideTiles w s := by
  unfold halveTile
  generalize tileCells 256 = l
  refine foldl_keeps (besideTiles w) _ (fun p rc => ?_) _ _
  dsimp only
  split <;> rfl

end

theorem besideTiles_floatPass (w : WellId) (e : MrEntry) (a d n k : Nat) (s : State) : besideTiles w (floatPass w e a d n k s).1 = besideTiles w s := by
  simp only [floatPass, besideTiles_modTile]
  refine (foldl_keeps (fun p : State × Bool => besideTiles w p.1) _ (fun p rc => ?_) _ _).trans ?_
  · split
    · rfl
    · exact besideTiles_writeAcc w _ _ _ _ _ _
  · split
    · simp
    · split
      · simp
      · split <;> simp

theorem besideTiles_intPass (w : WellId) (e : MrEntry) (a d n fuel : Nat) (s : State) : besideTiles w (intPass w e a d n fuel s) = besideTiles w s := by
  have add (l : List (Nat × Nat × Int)) (t t1 : Tile) (f : Tile → Tile) (s : State) : besideTiles w (modTile w a f (l.foldl (fun s x =>
      writeAcc w false a x.1 x.2.1 (clampI32 (readAcc w t1 a x.1 x.2.1 s + x.2.2)) s) (emptyToZero w a t s))) = besideTiles w s := by
    rw [besideTiles_modTile]
    exact (foldl_keeps (besideTiles w) _ (fun s x => besideTiles_writeAcc w s _ _ _ _ _) _ _).trans (besideTiles_emptyToZero w s a t)
  induction fuel generalizing s with
  | zero =>
    unfold intPass
    dsimp only
    split
    · exact add _ _ _ _ _
    · split <;> exact add _ _ _ _ _
  | succ fuel ih =>
    unfold intPass
    dsimp only
    split
    · exact add _ _ _ _ _
    · split
      · exact add _ _ _ _ _
      · rw [ih, besideTiles_modTile, besideTiles_halveTile]

@[simp] theorem besideTiles_runPass (w : WellId) (e : MrEntry) (d n k : Nat) (s : State) : besideTiles w (runPass w e d n k s).1 = besideTiles w s := by
  unfold runPass
  dsimp only
  split
  · exact besideTiles_floatPass w e _ d n k s
  · exact besideTiles_intPass w e _ d k 8 s

/-- The rows of a pass are added to its tile alone. -/
theorem besideTiles_addRows (w : WellId) (e : MrEntry) (d n k : Nat) (s : State) : besideTiles w (addRows w e d n k s).2.1 = besideTiles w s := by
  unfold addRows
  dsimp only
  repeat' split
  all_goals simp

end Sys2Proof.Machine
end

section
/-! CLASS 0x7, the instructions that are not queued (R103, R105, R119-R121). -/

namespace Sys2Proof.Machine

/-! What each of them shares: the row, the ring, and a change of the Millrace alone. -/

theorem bareLegal_of {i : W64} (hd : noDest i = true) (h1 : noS1 i = true) (h2 : noS2 i = true) (h3 : noS3 i = true) (h4 : immZero i 0 30 = true) :
    bareLegal i = true := by
  simp [bareLegal, hd, h1, h2, h3, h4]

theorem ringAtMost_ok {w : WellId} {r : Nat} {s : State} (h : (s.cpu w).eff.ring.toNat ≤ r) (i : W64) (body : CpuRes) :
    ringAtMost w r i s body = body := if_neg (Nat.not_lt.mpr h)

theorem ringAtMost_bad {w : WellId} {r : Nat} {s : State} (h : r < (s.cpu w).eff.ring.toNat) (i : W64) (body : CpuRes) :
    ringAtMost w r i s body = .fault 0x02 i s := if_pos h

/-- A body that changes the Millrace alone retires its instruction. -/
theorem conclude_modMr {w : WellId} {s : State} (h : ready w s = true) {f : Millrace → Millrace} {m : Millrace} (hf : f s.wells[w.val].mr = m) :
    conclude w s (.done (s.modMr w f)) = s.modWell w (fun u => { u with cpu := retired u.cpu, mr := m }) := by
  rw [conclude_done_of_cpu h (by simp)]
  simp [State.modMr, State.modCpu, State.modWell, hf]

/-- A stop request finds nothing to stop (R119). -/
theorem Millrace.halt_of_still {m : Millrace} (h : m.queue = [] ∨ m.frozen = true) : m.halt = { m with haltReq := false } := by
  rw [Millrace.halt, if_pos (by simpa using h)]

/-- It freezes the queue at once where no pass and no `mfin` is under way (R119). -/
theorem Millrace.halt_at_once {m : Millrace} (hq : m.queue ≠ []) (hf : m.frozen = false) (hp : m.inPass = false) :
    m.halt = { m with frozen := true, reason := .halted, fcode := 0, loaded := [], ahead := [], haltReq := false } := by
  rw [Millrace.halt, if_neg (by simp [hq, hf]), if_neg (by simp [hp])]

/-- It waits for the head's next stopping point otherwise (R119). -/
theorem Millrace.halt_in_pass {m : Millrace} (hq : m.queue ≠ []) (hf : m.frozen = false) (hp : m.inPass = true) :
    m.halt = { m with haltReq := true } := by
  rw [Millrace.halt, if_neg (by simp [hq, hf]), if_pos hp]

/-! `mstat` (R103). -/

/-- The word that `mstat` reads, and the state that reading it leaves. -/
def mstatRead (w : WellId) (a k : Nat) (s : State) : W64 × State :=
  if k = 0xE then (progressWord s.wells[w].mr, s) else if k = 0xF then qpcRead w s else (sidebandAt s.wells[w].mr a k, s)

section
variable {w : WellId} {i : W64} {s : State} (h : ready w s = true) (hc : wClass i = 7) (ho : wOp i = 5)
include h hc ho

theorem execMstat_legal (h1 : noS1 i = true) (h2 : noS2 i = true) (h3 : noS3 i = true) (h4 : immZero i 8 22 = true)
    (hk : immN i 4 4 < 8 ∨ immN i 4 4 = 0xE ∨ immN i 4 4 = 0xF) :
    execMstat w i s = .next (conclude w s (.done (setG w (wDest i) (mstatRead w (immN i 0 4) (immN i 4 4) s).1 (mstatRead w (immN i 0 4) (immN i 4 4) s).2))) :=
  issue_ready h (Row.covers_of hc ho) (by rcases hk with hk | hk | hk <;> simp [h1, h2, h3, h4, hk])

/-- A word of the header, MR_PROGRESS or MR_QPC of a queue with a head is read, and nothing else changes. -/
theorem execMstat_reads (h1 : noS1 i = true) (h2 : noS2 i = true) (h3 : noS3 i = true) (h4 : immZero i 8 22 = true) {v : W64}
    (hv : immN i 4 4 < 8 ∧ v = (if upperHalf s.wells[w].mr (immN i 0 4) then 0 else
        headerWord (s.wells[w].mr.tiles.getD (immN i 0 4) Tile.reset) (tileBusy s.wells[w].mr (immN i 0 4)) (immN i 4 4)) ∨
      immN i 4 4 = 0xE ∧ v = progressWord s.wells[w].mr ∨ immN i 4 4 = 0xF ∧ s.wells[w].mr.queue ≠ [] ∧ v = qpcWord s.wells[w].mr) :
    execMstat w i s = .next (s.modCpu w (fun c => retired (c.wr_ (wDest i) v))) := by
  have hr : mstatRead w (immN i 0 4) (immN i 4 4) s = (v, s) := by
    rw [mstatRead]
    rcases hv with ⟨hk, rfl⟩ | ⟨hk, rfl⟩ | ⟨hk, hq, rfl⟩
    · rw [if_neg (by omega), if_neg (by omega), sidebandAt, sidebandWord, if_pos hk]
    · rw [if_pos hk]
    · rw [if_neg (by omega), if_pos hk, qpcRead, if_neg (by simpa using hq)]
  have hk : immN i 4 4 < 8 ∨ immN i 4 4 = 0xE ∨ immN i 4 4 = 0xF := hv.imp And.left (Or.imp And.left And.left)
  rw [execMstat_legal h hc ho h1 h2 h3 h4 hk, hr, conclude_setG h ⟨_, rfl⟩ rfl]

/-- With no head entry MR_QPC reads as a free value. -/
theorem execMstat_free (h1 : noS1 i = true) (h2 : noS2 i = true) (h3 : noS3 i = true) (h4 : immZero i 8 22 = true) (hk : immN i 4 4 = 0xF)
    (hq : s.wells[w].mr.queue = []) : execMstat w i s =
      .next ({ s with free := s.free + 1 }.modCpu w (fun c => retired (c.wr_ (wDest i) (Config.freeWord s.free)))) := by
  have hr : mstatRead w (immN i 0 4) (immN i 4 4) s = (Config.freeWord s.free, { s with free := s.free + 1 }) := by
    rw [mstatRead, if_neg (by omega), if_pos hk, qpcRead, if_pos (by simpa using hq), State.takeFree]
  rw [execMstat_legal h hc ho h1 h2 h3 h4 (.inr (.inr hk)), hr]
  exact congrArg _ (conclude_setG (t := { s with free := s.free + 1 }) h ⟨_, rfl⟩ rfl _ _)

/-- The words 8 to 13 are none. -/
theorem execMstat_illegal (hlo : 8 ≤ immN i 4 4) (hhi : immN i 4 4 < 0xE) : execMstat w i s = .next (takeException w 0x01 i s) :=
  issue_illegal h (Row.covers_of hc ho) (by
    have h8 : ¬ immN i 4 4 < 8 := by omega
    have hE : immN i 4 4 ≠ 0xE := by omega
    have hF : immN i 4 4 ≠ 0xF := by omega
    simp [h8, hE, hF])

end

/-! The instructions without an operand. -/

section
variable {w : WellId} {i : W64} {s : State} (h : ready w s = true) (hc : wClass i = 7) (hl : bareLegal i = true)
include h hc hl

theorem execMfence_cases (ho : wOp i = 8) :
    (s.wells[w].mr.queue = [] ∨ s.wells[w].mr.frozen = true → execMfence w i s = .next (s.modCpu w retired)) ∧
    (s.wells[w].mr.queue ≠ [] → s.wells[w].mr.frozen = false →
      execMfence w i s = .next (s.modCpu w (fun c => { c with stall := some .mfence }))) := by
  rw [execMfence, issue_ready h (Row.covers_of hc ho) hl]
  refine ⟨fun hq => ?_, fun hq hf => ?_⟩
  · dsimp only
    rw [if_pos (by simpa using hq), conclude_done_of_cpu h rfl]
  · dsimp only
    rw [if_neg (by simpa using ⟨hq, hf⟩)]
    rfl

theorem execMhalt_eq (ho : wOp i = 0x10) (hr : (s.cpu w).eff.ring.toNat ≤ 1) : execMhalt w i s =
    .next (conclude w s (if s.wells[w].mr.halt.haltReq then .wait .mhalt (s.modMr w (·.halt)) else .done (s.modMr w (·.halt)))) := by
  rw [execMhalt, issue_ready h (Row.covers_of hc ho) hl, ringAtMost_ok hr]
  simp

theorem execMhalt_done (ho : wOp i = 0x10) (hr : (s.cpu w).eff.ring.toNat ≤ 1) {m : Millrace} (e : s.wells[w].mr.halt = m) (hm : m.haltReq = false) :
    execMhalt w i s = .next (s.modWell w (fun u => { u with cpu := retired u.cpu, mr := m })) := by
  subst e
  rw [execMhalt_eq h hc hl ho hr, hm, if_neg Bool.false_ne_true, conclude_modMr h rfl]
  rfl

theorem execMhalt_waits (ho : wOp i = 0x10) (hr : (s.cpu w).eff.ring.toNat ≤ 1) {m : Millrace} (e : s.wells[w].mr.halt = m) (hm : m.haltReq = true) :
    execMhalt w i s = .next (s.modWell w (fun u => { u with cpu := { u.cpu with stall := some .mhalt }, mr := m })) := by
  subst e
  rw [execMhalt_eq h hc hl ho hr, hm, if_pos rfl]
  simp [conclude, State.modMr, State.modCpu, State.modWell]

theorem execMresume_eq (ho : wOp i = 0x11) (hr : (s.cpu w).eff.ring.toNat ≤ 1) : execMresume w i s =
    .next (s.modWell w (fun u => { u with cpu := retired u.cpu, mr := { s.wells[w].mr with frozen := false, reason := .none, fcode := 0 } })) := by
  rw [execMresume, issue_ready h (Row.covers_of hc ho) hl, ringAtMost_ok hr]
  exact congrArg _ (conclude_modMr h rfl)

theorem execMdrop_eq (ho : wOp i = 0x12) (hr : (s.cpu w).eff.ring.toNat ≤ 1) :
    execMdrop w i s = .next (conclude w s (.done (dropMr w s))) := by
  rw [execMdrop, issue_ready h (Row.covers_of hc ho) hl, ringAtMost_ok hr]

/-- In rings 2 and 3 they are privileged (R95). -/
theorem bare_privileged (hr : 2 ≤ (s.cpu w).eff.ring.toNat) :
    (wOp i = 0x10 → execMhalt w i s = .next (takeException w 0x02 i s)) ∧ (wOp i = 0x11 → execMresume w i s = .next (takeException w 0x02 i s)) ∧
      (wOp i = 0x12 → execMdrop w i s = .next (takeException w 0x02 i s)) := by
  refine ⟨fun ho => ?_, fun ho => ?_, fun ho => ?_⟩
  · rw [execMhalt, issue_ready h (Row.covers_of hc ho) hl, ringAtMost_bad hr]; rfl
  · rw [execMresume, issue_ready h (Row.covers_of hc ho) hl, ringAtMost_bad hr]; rfl
  · rw [execMdrop, issue_ready h (Row.covers_of hc ho) hl, ringAtMost_bad hr]; rfl

end

/-! `mdrop` (R93, R120). -/

/-- A pass that a wait holds has touched its tile alone. -/
theorem besideTiles_heldRows {w : WellId} {s : State} {r : Option Nat × State × BitVec 6} (h : heldRows w s = some r) :
    besideTiles w r.2.1 = besideTiles w s := by
  unfold heldRows at h
  dsimp only at h
  split at h
  · cases h
  · split at h
    · cases h
    · cases h
      exact besideTiles_addRows w _ _ _ _ s

/-- Without loaded operands no pass holds rows. -/
theorem heldRows_of_not_loaded {w : WellId} {s : State} (h : s.wells[w].mr.loaded = []) : heldRows w s = none := by
  unfold heldRows
  dsimp only
  split
  · rfl
  · rw [if_pos]
    simp only [h, rowsRead, List.length_nil, Nat.zero_sub, Nat.zero_div]
    simp

/-- The state in which `mdrop` empties the queue. -/
def heldState (w : WellId) (s : State) : State := match heldRows w s with | some r => r.2.1 | none => s

theorem besideTiles_heldState (w : WellId) (s : State) : besideTiles w (heldState w s) = besideTiles w s := by
  unfold heldState
  split
  case h_1 hr => exact besideTiles_heldRows hr
  case h_2 => rfl

/-- A Millrace whose queue has been emptied. -/
def Millrace.dropped (m : Millrace) : Millrace :=
  { m with queue := [], frozen := false, reason := .none, fcode := 0, loaded := [], ahead := [], inPass := false, finDone := 0, haltReq := false }

theorem dropMr_eq (w : WellId) (s : State) : dropMr w s =
    let t := ((heldState w s).modMr w Millrace.dropped).modSt w (fun t => t.releaseAll .millrace)
    if s.wells[w].mr.queue.isEmpty then t else raiseLine w 9 t := rfl

theorem dropMr_mr (w : WellId) (s : State) : (dropMr w s).wells[w].mr = (heldState w s).wells[w].mr.dropped := by
  rw [dropMr_eq]; dsimp only; split <;> simp [raiseLine]

theorem dropMr_mem (w : WellId) (s : State) : (dropMr w s).mem = (heldState w s).mem := by
  rw [dropMr_eq]; dsimp only; split <;> rfl

/-- `mdrop` touches the interrupt lines of the Windlass alone: MR_IDLE asserts where the queue was not empty (R226). -/
theorem dropMr_cpu (w : WellId) (s : State) : (dropMr w s).cpu w =
    { s.cpu w with exc := { (s.cpu w).exc with
        ipend := if s.wells[w].mr.queue = [] then (s.cpu w).exc.ipend else (s.cpu w).exc.ipend ||| 512 } } := by
  have hc : (heldState w s).cpu w = s.cpu w := congrArg Prod.fst (besideTiles_heldState w s)
  rw [dropMr_eq]
  dsimp only
  split
  case isTrue hq => rw [if_pos (by simpa using hq)]; simp [hc]
  case isFalse hq => rw [if_neg (by simpa using hq)]; simp [hc, raiseLine]

/-- `mdrop` leaves an empty queue that is not frozen; of the Windlass it changes the interrupt lines alone, and no memory where no pass was
held. -/
theorem execMdrop_drops {w : WellId} {i : W64} {s : State} (h : ready w s = true) (hc : wClass i = 7) (hl : bareLegal i = true) (ho : wOp i = 0x12)
    (hr : (s.cpu w).eff.ring.toNat ≤ 1) :
    let m := s.wells[w].mr
    ∃ t, execMdrop w i s = .next t ∧ t.wells[w].mr.queue = [] ∧ t.wells[w].mr.frozen = false ∧ t.wells[w].mr.reason = .none ∧
      t.wells[w].mr.haltReq = false ∧ (m.loaded = [] → t.mem = s.mem ∧ t.wells[w].mr = { m with
        queue := [], frozen := false, reason := .none, fcode := 0, ahead := [], inPass := false, finDone := 0, haltReq := false }) ∧
      (t.cpu w).gN = (s.cpu w).gN ∧ (t.cpu w).pc = (s.cpu w).pc + 8 ∧
      (t.cpu w).exc.ipend = if m.queue = [] then (s.cpu w).exc.ipend else (s.cpu w).exc.ipend ||| 512 := by
  intro m
  obtain ⟨_, _, hl', hm', _⟩ := ready_parts h
  have hcpu := dropMr_cpu w s
  have hmr : ((dropMr w s).modCpu w retired).wells[w].mr = (heldState w s).wells[w].mr.dropped :=
    (State.modCpu_same_mr _ _ _).trans (dropMr_mr w s)
  refine ⟨(dropMr w s).modCpu w retired, ?_, ?_, ?_, ?_, ?_, fun hld => ?_, ?_, ?_, ?_⟩
  · rw [execMdrop_eq h hc hl ho hr, conclude_done (by rw [hcpu]; exact hl') (by rw [hcpu]; exact hm') (by rw [hcpu])]
  · rw [hmr]; rfl
  · rw [hmr]; rfl
  · rw [hmr]; rfl
  · rw [hmr]; rfl
  · have hs : heldState w s = s := by rw [heldState, heldRows_of_not_loaded hld]
    refine ⟨(dropMr_mem w s).trans (by rw [hs]), ?_⟩
    rw [hmr, hs, Millrace.dropped, ← hld]
  · rw [State.modCpu_cpu, hcpu, retired_gN]
  · rw [State.modCpu_cpu, hcpu]; rfl
  · rw [State.modCpu_cpu, hcpu, retired_exc]

/-! `mqsave` and `mqload` (R120, R121). -/

/-- The queue image has the 64 words of R121. -/
theorem queueImage_length {q : List MrEntry} (h : q.length ≤ 8) : (queueImage q).length = 64 := by
  have hl : (q.flatMap entryWords).length = 8 * q.length := by
    rw [List.length_flatMap]
    show (q.map (fun _ => 8)).sum = 8 * q.length
    simp [Nat.mul_comm]
  rw [queueImage, List.length_append, List.length_replicate, hl]
  omega

section
variable {w : WellId} {i : W64} {s : State} (h : ready w s = true) (hc : wClass i = 7)
  (hl : (noDest i && noS2 i && noS3 i && immZero i 0 30) = true)
include h hc hl

theorem mqsave_mqload_privileged (hr : 2 ≤ (s.cpu w).eff.ring.toNat) :
    (wOp i = 0x13 → execMqsave w i s = .next (takeException w 0x02 i s)) ∧ (wOp i = 0x14 → execMqload w i s = .next (takeException w 0x02 i s)) := by
  refine ⟨fun ho => ?_, fun ho => ?_⟩
  · rw [execMqsave, issue_ready h (Row.covers_of hc ho) hl, ringAtMost_bad hr]; rfl
  · rw [execMqload, issue_ready h (Row.covers_of hc ho) hl, ringAtMost_bad hr]; rfl

variable (hr : (s.cpu w).eff.ring.toNat ≤ 1) (hsb : (s.cpu w).storeBuf = [])
include hr hsb

theorem execMqsave_eq (ho : wOp i = 0x13) {o : Nat} (hv : fieldN ((s.cpu w).rd (wS1 i)) 0 24 = o) (hres : resD ((s.cpu w).rd (wS1 i)) = false)
    (hal : o % 64 = 0) (hhi : o + 512 ≤ 0x700000) (hbk : banksOpen s.wells[w].st o 512 = true) (hbusy : hitsBusy s.wells[w].mr o 512 = false)
    (hheld : rangeHeld s w (mkSpan o 512 true) = false) :
    execMqsave w i s = .next ((s.writeWords (wellAddr w o) (queueImage s.wells[w].mr.queue)).modCpu w retired) := by
  subst hv
  rw [execMqsave, issue_ready h (Row.covers_of hc ho) hl, ringAtMost_ok hr]
  dsimp only
  have hrange : ¬ (0x700000 < fieldN ((s.cpu w).rd (wS1 i)) 0 24 + 512) := Nat.not_lt.mpr hhi
  rw [hres, if_neg Bool.false_ne_true, hbk, hbusy, if_neg (by simp [hal, hrange]), hheld, if_neg Bool.false_ne_true, State.drainAll_of_empty hsb,
    conclude_done_of_cpu h (State.writeWords_cpu _ _ _ _)]

/-- The image lies where it was saved, and nothing else has changed. -/
theorem execMqsave_saves (ho : wOp i = 0x13) {o : Nat} (hv : fieldN ((s.cpu w).rd (wS1 i)) 0 24 = o)
    (hres : resD ((s.cpu w).rd (wS1 i)) = false) (hal : o % 64 = 0) (hhi : o + 512 ≤ 0x700000) (hbk : banksOpen s.wells[w].st o 512 = true)
    (hbusy : hitsBusy s.wells[w].mr o 512 = false) (hheld : rangeHeld s w (mkSpan o 512 true) = false) (hm : s.MemOk)
    (hlen : s.wells[w].mr.queue.length ≤ 8) :
    ∃ t, execMqsave w i s = .next t ∧ t.cpu w = retired (s.cpu w) ∧ t.wells[w].mr = s.wells[w].mr ∧
      (∀ j, j < 64 → t.readWord (wellAddr w (o + 8 * j)) = (queueImage s.wells[w].mr.queue).getD j 0) ∧
      ∀ a, a < wellAddr w o ∨ wellAddr w (o + 512) ≤ a → t.byteAt a = s.byteAt a := by
  have hlen' := queueImage_length hlen
  refine ⟨_, execMqsave_eq h hc hl hr hsb ho hv hres hal hhi hbk hbusy hheld, by simp, by simp, fun j hj => ?_, fun a ha => ?_⟩
  · have hw : wellAddr w (o + 8 * j) = wellAddr w o + 8 * j := (Nat.add_assoc _ _ _).symm
    rw [hw, ← State.readWord_writeWords hm (hlen' ▸ hj)]
    rfl
  · have hw : wellAddr w (o + 512) = wellAddr w o + 512 := (Nat.add_assoc _ _ _).symm
    exact State.byteAt_writeWords_other hm (by omega)

theorem execMqload_eq (ho : wOp i = 0x14) {o : Nat} (hv : 0x300000 + fieldN ((s.cpu w).rd (wS1 i)) 0 21 = o)
    (hres : resS ((s.cpu w).rd (wS1 i)) = false) (hal : fieldN ((s.cpu w).rd (wS1 i)) 0 21 % 64 = 0) (hhi : o + 512 ≤ 0x500000) (hbk : banksOpen s.wells[w].st o 512 = true)
    (hq : s.wells[w].mr.queue = [] ∨ s.wells[w].mr.frozen = true) (hue : ueHit s.ue (wellAddr w o) 512 = false)
    (hheld : rangeHeld s w (mkSpan o 512 false) = false) {q : List MrEntry}
    (himg : queueOfImage s.wells[w].flume.issued (s.readWords (wellAddr w o) 64) = some q) :
    execMqload w i s = .next (((eccRead w 2 o 512 s).2.modMr w (fun m => { m with
      queue := q, frozen := true, reason := .halted, fcode := 0, loaded := [], ahead := [], inPass := false, finDone := 0,
      haltReq := false })).modCpu w retired) := by
  subst hv
  rw [execMqload, issue_ready h (Row.covers_of hc ho) hl, ringAtMost_ok hr]
  dsimp only
  have hal' : (0x300000 + fieldN ((s.cpu w).rd (wS1 i)) 0 21) % 64 = 0 := by omega
  have hrange : ¬ (0x500000 < 0x300000 + fieldN ((s.cpu w).rd (wS1 i)) 0 21 + 512) := Nat.not_lt.mpr hhi
  rw [hres, if_neg Bool.false_ne_true, hbk, if_neg (by simp [hal', hrange]), if_neg (by simpa [or_iff_not_imp_left] using hq), hheld, if_neg Bool.false_ne_true,
    State.drainAll_of_empty hsb, eccRead_fst 2 hue]
  dsimp only
  rw [State.readWords_congr (eccRead_mem w 2 _ 512 s), himg]
  dsimp only
  rw [conclude_done_of_cpu h (by simp)]

end

/-- Settles O25, instruction by instruction: each is issued at once, and its body is read off above. -/
theorem millraceControl : Obligations.MillraceControl := by
  intro w i s h hc c m mrGives
  refine ⟨fun v ho h1 h2 h3 h4 hv => execMstat_reads h hc ho h1 h2 h3 h4 hv, fun ho h1 h2 h3 h4 hk hq => execMstat_free h hc ho h1 h2 h3 h4 hk hq,
    fun ho hlo hhi => execMstat_illegal h hc ho hlo hhi, fun hd h1 h2 h3 h4 => ?_, fun hd h2 h3 h4 => ?_⟩
  · have hl := bareLegal_of hd h1 h2 h3 h4
    refine ⟨execMfence_cases h hc hl, fun hr => ⟨fun ho => ⟨fun hq => ?_, fun hq hf hp => ?_, fun hq hf hp => ?_⟩, fun ho => ?_, fun ho => ?_⟩,
      bare_privileged h hc hl⟩
    · exact execMhalt_done h hc hl ho hr (Millrace.halt_of_still hq) rfl
    · exact execMhalt_done h hc hl ho hr (Millrace.halt_at_once hq hf hp) rfl
    · exact execMhalt_waits h hc hl ho hr (Millrace.halt_in_pass hq hf hp) rfl
    · exact execMresume_eq h hc hl ho hr
    · exact execMdrop_drops h hc hl ho hr
  · have hl : (noDest i && noS2 i && noS3 i && immZero i 0 30) = true := by simp [hd, h2, h3, h4]
    refine ⟨mqsave_mqload_privileged h hc hl, fun hr hsb hm => ⟨fun ho hlen hres hal hhi hbk hbusy hheld => ?_,
      fun q ho hres hal hhi hbk hq hue hheld himg => ?_⟩⟩
    · exact execMqsave_saves h hc hl hr hsb ho rfl hres hal hhi hbk hbusy hheld hm hlen
    · refine ⟨_, execMqload_eq h hc hl hr hsb ho rfl hres hal hhi hbk hq hue hheld himg, ?_, ?_, ?_⟩ <;> simp [c, m]

end Sys2Proof.Machine
end

section
/-! The saved images (R104, R108-R110, R121): a queue image and a sideband image load as what they were saved from. -/

namespace Sys2Proof.Machine

/-! Fields placed in a word, read back. -/

@[simp] theorem bitB_or (x y : W64) (i : Nat) : bitB (x ||| y) i = (bitB x i || bitB y i) := BitVec.getLsbD_or

theorem putN_toNat {m : Nat} (x : BitVec m) {k : Nat} (h : k + m ≤ 64) : (putN k x.toNat).toNat = x.toNat * 2 ^ k := by
  rw [putN, w64, BitVec.toNat_ofNat, Nat.mod_eq_of_lt]
  calc x.toNat * 2 ^ k < 2 ^ m * 2 ^ k := Nat.mul_lt_mul_of_pos_right x.isLt (Nat.two_pow_pos k)
    _ = 2 ^ (k + m) := by rw [Nat.add_comm, Nat.pow_add]
    _ ≤ 2 ^ 64 := Nat.pow_le_pow_right (by decide) h

@[simp] theorem bitB_putN {m : Nat} (x : BitVec m) {k i : Nat} (h : k + m ≤ 64) : bitB (putN k x.toNat) i = (decide (k ≤ i) && x.getLsbD (i - k)) := by
  rw [bitB, BitVec.getLsbD, putN_toNat x h, Nat.testBit_mul_two_pow]
  rfl

@[simp] theorem bitB_putB (b : Bool) {j i : Nat} (h : j < 64) : bitB (putB j b) i = (decide (i = j) && b) := by
  have e : putB j b = putN j (BitVec.ofBool b).toNat := by cases b <;> simp [putB, putN, w64]
  rw [e, bitB_putN _ h, BitVec.getLsbD_ofBool]
  by_cases hji : j ≤ i
  · have hij : i - j = 0 ↔ i = j := by omega
    simp [hji, hij]
  · have hij : i ≠ j := by omega
    simp [hji, hij]

/-- A field is read where it was placed. -/
@[simp] theorem extract_putN_same {m : Nat} (x : BitVec m) {k : Nat} (h : k + m ≤ 64) : (putN k x.toNat).extractLsb' k m = x := by
  refine BitVec.eq_of_getLsbD_eq fun i hi => ?_
  rw [BitVec.getLsbD_extractLsb', ← bitB, bitB_putN x h]
  simp [hi]

/-- A field that lies apart reads as zero. -/
@[simp] theorem extract_putN_apart {m : Nat} (x : BitVec m) {k lo n : Nat} (h : k + m ≤ 64) (h' : k + m ≤ lo ∨ lo + n ≤ k) :
    (putN k x.toNat).extractLsb' lo n = 0#n := by
  refine BitVec.eq_of_getLsbD_eq fun i hi => ?_
  rw [BitVec.getLsbD_extractLsb', ← bitB, bitB_putN x h, BitVec.getLsbD_zero]
  by_cases hk : k ≤ lo + i
  · rw [BitVec.getLsbD_of_ge _ _ (by omega)]; simp
  · simp [hk]

@[simp] theorem extract_putB_apart (b : Bool) {j lo n : Nat} (h : j < 64) (h' : j < lo ∨ lo + n ≤ j) : (putB j b).extractLsb' lo n = 0#n := by
  refine BitVec.eq_of_getLsbD_eq fun i hi => ?_
  rw [BitVec.getLsbD_extractLsb', ← bitB, bitB_putB b h, BitVec.getLsbD_zero]
  simp [show lo + i ≠ j by omega]

/-! Queue images (R121). -/

/-- What the image can hold of an entry: a queued instruction of the Millrace, an aligned address and fields that fit. -/
def MrEntry.Saveable (n : Nat) (e : MrEntry) : Prop :=
  wClass e.word = 7 ∧ wOp e.word ∈ [1, 2, 3, 4, 6, 7] ∧ bitB e.word 49 = false ∧ e.addr.toNat % 8 = 0 ∧ e.rm.toNat ≤ 4 ∧ e.flags = 0 ∧ e.fseq = n

/-- Word 5 of an entry's image: the rounding mode, the pass and the counter, with zeros between them. -/
theorem entryWord5_fields (rm : BitVec 3) (pass : BitVec 8) (ctr : BitVec 12) :
    let g := putN 0 rm.toNat ||| putN 8 pass.toNat ||| putN 16 ctr.toNat
    g.extractLsb' 0 3 = rm ∧ g.extractLsb' 8 8 = pass ∧ g.extractLsb' 16 12 = ctr ∧ fieldN g 3 5 = 0 ∧ fieldN g 28 36 = 0 := by
  simp [fieldN, BitVec.extractLsb'_or]

theorem entryOfImage_entryWords {n : Nat} {e : MrEntry} (h : e.Saveable n) : entryOfImage n (entryWords e) = some (some e) := by
  obtain ⟨hc, ho, h49, ha, hr, hf, hn⟩ := h
  have h0 : e.word ≠ 0#64 := by
    intro h0
    rw [h0] at hc
    exact absurd hc (by decide)
  have hop : (wOp e.word == 1 || wOp e.word == 2 || wOp e.word == 3 || wOp e.word == 4 || wOp e.word == 6 || wOp e.word == 7) = true := by
    simpa [or_assoc] using ho
  have hacc : accOk e.word = true := by simp [accOk, h49]
  have haddr : fieldN (e.addr.setWidth 64) 0 3 = 0 ∧ fieldN (e.addr.setWidth 64) 56 8 = 0 := by
    rw [fieldN_eq, fieldN_eq, BitVec.toNat_setWidth]
    have := e.addr.isLt
    omega
  obtain ⟨hrm, hpass, hctr, h3, h28⟩ := entryWord5_fields e.rm e.pass e.ctr
  have hrm4 : fieldN (putN 0 e.rm.toNat ||| putN 8 e.pass.toNat ||| putN 16 e.ctr.toNat) 0 3 ≤ 4 := by rw [fieldN, hrm]; exact hr
  have heq : e = { word := e.word, s1 := e.s1, s2 := e.s2, s3 := e.s3, addr := e.addr, rm := e.rm, pass := e.pass, ctr := e.ctr, flags := 0,
                   fseq := n } := by rw [← hf, ← hn]
  simpa [entryOfImage, entryWords, h0, hc, hop, hacc, haddr, h3, h28, hrm4, hrm, hpass, hctr] using heq.symm

theorem entryOfImage_zero (n : Nat) : entryOfImage n (List.replicate 8 0) = some none := rfl

@[simp] theorem entryWords_length (e : MrEntry) : (entryWords e).length = 8 := rfl

theorem flatMap_entryWords_length (q : List MrEntry) : (q.flatMap entryWords).length = 8 * q.length := by
  induction q with
  | nil => rfl
  | cons e q ih => rw [List.flatMap_cons, List.length_append, ih, entryWords_length, List.length_cons]; omega

/-- The eight words of place k in an image: the entry's, or zeros behind the last. -/
theorem queueImage_chunk {q : List MrEntry} {k : Nat} (hk : k < 8) :
    ((queueImage q).drop (8 * k)).take 8 = match q[k]? with | some e => entryWords e | none => List.replicate 8 0 := by
  have hl := flatMap_entryWords_length q
  rw [queueImage, List.drop_append, hl, List.drop_replicate]
  by_cases hkq : k < q.length
  · have hsplit : (q.flatMap entryWords).drop (8 * k) = (q.drop k).flatMap entryWords := by
      conv_lhs => rw [← List.take_append_drop k q, List.flatMap_append]
      exact List.drop_left' (by rw [flatMap_entryWords_length, List.length_take_of_le (by omega)])
    rw [List.getElem?_eq_getElem hkq, hsplit, List.drop_eq_getElem_cons hkq, List.flatMap_cons, List.append_assoc]
    exact List.take_left' (entryWords_length _)
  · rw [List.getElem?_eq_none (by omega), List.drop_eq_nil_of_le (by omega), List.nil_append, List.take_replicate]
    exact congrArg (List.replicate · 0) (by omega)

/-- Reading the places from k on answers the entries from k on. -/
theorem queueOfImage_from {n : Nat} {q : List MrEntry} (hlen : q.length ≤ 8) (hq : ∀ e ∈ q, e.Saveable n) (m k : Nat) (hmk : k + m = 8) :
    (List.range' k m).foldr (fun k acc =>
      match acc, entryOfImage n (((queueImage q).drop (8 * k)).take 8) with
      | some r, some (some e) => some (e :: r)
      | some [], some none => some []
      | _, _ => none) (some []) = some (q.drop k) := by
  induction m generalizing k with
  | zero => rw [List.drop_eq_nil_of_le (by omega)]; rfl
  | succ m ih =>
    rw [List.range'_succ, List.foldr_cons, ih (k + 1) (by omega), queueImage_chunk (by omega)]
    by_cases hk : k < q.length
    · rw [List.getElem?_eq_getElem hk, List.drop_eq_getElem_cons hk]
      dsimp only
      rw [entryOfImage_entryWords (hq _ (List.getElem_mem hk))]
    · rw [List.getElem?_eq_none (by omega), List.drop_eq_nil_of_le (by omega), List.drop_eq_nil_of_le (by omega)]
      dsimp only
      rw [entryOfImage_zero]

theorem queueOfImage_queueImage {n : Nat} {q : List MrEntry} (hlen : q.length ≤ 8) (hq : ∀ e ∈ q, e.Saveable n) :
    queueOfImage n (queueImage q) = some q := by
  rw [queueOfImage, List.range_eq_range']
  exact queueOfImage_from hlen hq 8 0 rfl

/-! Sideband images (R104, R108-R110). -/

theorem TileState.ofCode (c : TileState) : (if c.code = 1 then .empty else if c.code = 2 then .active else .uninit) = c := by
  cases c <;> rfl

/-- The words of a plane make the plane. -/
theorem ofBytes_plane (p : BitVec 8192) (n : Nat) :
    ofBytes ((List.range n).flatMap (fun k => wordBytes (p.extractLsb' (64 * k) 64))) = p.toNat % 2 ^ (64 * n) := by
  have hlen (n : Nat) : ((List.range n).flatMap (fun k => wordBytes (p.extractLsb' (64 * k) 64))).length = 8 * n := by
    rw [List.length_flatMap, List.map_congr_left (g := fun _ => 8) (fun _ _ => wordBytes_length _)]
    simp [Nat.mul_comm]
  induction n with
  | zero => simp [ofBytes, Nat.mod_one]
  | succ n ih =>
    have hw : ofBytes (wordBytes (p.extractLsb' (64 * n) 64)) = p.toNat / 2 ^ (64 * n) % 2 ^ 64 := by
      rw [wordBytes, ofBytes_toBytes, BitVec.extractLsb'_toNat, Nat.shiftRight_eq_div_pow]
      exact Nat.mod_mod _ _
    rw [List.range_succ, List.flatMap_append, ofBytes_append, ih, hlen, List.flatMap_singleton, hw, show (256 : Nat) ^ (8 * n) = 2 ^ (64 * n) by
      rw [show (256 : Nat) = 2 ^ 8 by rfl, ← Nat.pow_mul, ← Nat.mul_assoc], show 64 * (n + 1) = 64 * n + 64 by omega, Nat.pow_add, Nat.mod_mul]

/-- Word k of a sideband image. -/
theorem sidebandImage_getD (t : Tile) (busy : Bool) {k : Nat} (hk : k < 512) :
    ((List.range 512).map (sidebandWord t busy)).getD k 0 = sidebandWord t busy k := by
  rw [List.getD_eq_getElem _ _ (by simpa using hk), List.getElem_map, List.getElem_range]

/-- The fields of MR_TSTAT, and the bits between them. -/
theorem tstatWord_fields (t : Tile) (busy : Bool) :
    let x := tstatWord t busy
    (x.extractLsb' 48 16 = t.anchor ∧ x.extractLsb' 44 4 = t.mode ∧ x.extractLsb' 32 4 = t.sc ∧ x.extractLsb' 0 4 = t.fin ∧ fieldN x 40 2 = t.st.code) ∧
    (bitB x 43 = t.ea ∧ bitB x 42 = t.eb ∧ bitB x 39 = t.ovfm ∧ bitB x 38 = t.preset ∧ bitB x 37 = t.anchored) ∧
    (bitB x 15 = t.poison ∧ bitB x 13 = t.tovf ∧ bitB x 12 = t.raLoss ∧ bitB x 11 = t.sticky ∧ bitB x 10 = t.special ∧ bitB x 9 = t.fi ∧
      bitB x 8 = t.anv) ∧
    fieldN x 16 16 = 0 ∧ bitB x 14 = false ∧ fieldN x 4 4 = 0 := by
  obtain ⟨b, hb⟩ : ∃ b : BitVec 2, b.toNat = t.st.code := ⟨BitVec.ofNat 2 t.st.code, by cases t.st <;> rfl⟩
  simp [tstatWord, fieldN, BitVec.extractLsb'_or, ← hb]

/-- The fields of MR_TFIRST, and the bits between them. -/
theorem tfirstWord_fields (t : Tile) (busy : Bool) :
    let x := headerWord t busy 1
    (x.extractLsb' 48 8 = t.frow ∧ x.extractLsb' 32 7 = t.fcol ∧ x.extractLsb' 16 16 = t.pbound ∧ bitB x 63 = t.fvalid) ∧
    fieldN x 56 7 = 0 ∧ fieldN x 39 9 = 0 ∧ fieldN x 0 16 = 0 := by
  simp [headerWord, fieldN, BitVec.extractLsb'_or]

/-- TPANELS, and the bits above it. -/
theorem tpanelsWord_fields (t : Tile) (busy : Bool) :
    let x := headerWord t busy 2
    x.extractLsb' 0 34 = t.tpanels ∧ fieldN x 34 30 = 0 := by
  refine ⟨BitVec.eq_of_getLsbD_eq fun i hi => ?_, ?_⟩
  · simp [headerWord, hi]
    omega
  · rw [headerWord, fieldN_eq, BitVec.toNat_setWidth]
    have := t.tpanels.isLt
    omega

/-- The words of a plane in an image. -/
theorem plane_of_image {ws : List W64} {p : BitVec 8192} (o : Nat) (h : ∀ k, k < 128 → ws.getD (o + k) 0 = p.extractLsb' (64 * k) 64) :
    BitVec.ofNat 8192 (ofBytes ((List.range 128).flatMap (fun k => wordBytes (ws.getD (o + k) 0)))) = p := by
  have e : (List.range 128).flatMap (fun k => wordBytes (ws.getD (o + k) 0)) = (List.range 128).flatMap (fun k => wordBytes (p.extractLsb' (64 * k) 64)) :=
    List.flatMap_congr fun k hk => by rw [h k (List.mem_range.mp hk)]
  rw [e, ofBytes_plane, Nat.mod_eq_of_lt p.isLt, BitVec.ofNat_toNat, BitVec.setWidth_eq]

/-- Words of an image that are all zero. -/
theorem zeros_of_image {ws : List W64} (o n : Nat) (h : ∀ k, k < n → ws.getD (o + k) 0 = 0) :
    (List.range n).any (fun k => ws.getD (o + k) 0 != 0) = false := by
  rw [List.any_eq_false]
  intro k hk
  rw [h k (List.mem_range.mp hk)]
  simp

/-- An image whose words are those of a tile with a mode of R96 and, in an integer mode, empty planes loads as the tile. -/
theorem tileOfImage_of_words {ws : List W64} {t : Tile} {busy : Bool} (hw : ∀ k, k < 512 → ws.getD k 0 = sidebandWord t busy k)
    (hm : t.mode.toNat < 12) (hp : floatMode t.mode.toNat = false → t.nan = 0 ∧ t.posInf = 0 ∧ t.negInf = 0) : tileOfImage ws = some t := by
  obtain ⟨⟨h48, h44, h32, h0, h40⟩, ⟨b43, b42, b39, b38, b37⟩, ⟨b15, b13, b12, b11, b10, b9, b8⟩, r16, r14, r4⟩ := tstatWord_fields t busy
  obtain ⟨⟨f48, f32, f16, f63⟩, s56, s39, s0⟩ := tfirstWord_fields t busy
  obtain ⟨p0, q34⟩ := tpanelsWord_fields t busy
  have g0 : ws.getD 0 0 = tstatWord t busy := hw 0 (by decide)
  have g1 : ws.getD 1 0 = headerWord t busy 1 := hw 1 (by decide)
  have g2 : ws.getD 2 0 = headerWord t busy 2 := hw 2 (by decide)
  have hmode : fieldN (tstatWord t busy) 44 4 = t.mode.toNat := by rw [fieldN, h44]
  have hnan := plane_of_image (ws := ws) (p := t.nan) 8 fun k hk => (hw (8 + k) (by omega)).trans (by
    rw [sidebandWord, if_neg (by omega), if_pos (by omega), Nat.add_sub_cancel_left])
  have hpos := plane_of_image (ws := ws) (p := t.posInf) 136 fun k hk => (hw (136 + k) (by omega)).trans (by
    rw [sidebandWord, if_neg (by omega), if_neg (by omega), if_pos (by omega), Nat.add_sub_cancel_left])
  have hneg := plane_of_image (ws := ws) (p := t.negInf) 264 fun k hk => (hw (264 + k) (by omega)).trans (by
    rw [sidebandWord, if_neg (by omega), if_neg (by omega), if_neg (by omega), if_pos (by omega), Nat.add_sub_cancel_left])
  have z3 := zeros_of_image (ws := ws) 3 5 fun k hk => (hw (3 + k) (by omega)).trans (by
    rw [sidebandWord, if_pos (by omega), headerWord] <;> omega)
  have z392 := zeros_of_image (ws := ws) 392 120 fun k hk => (hw (392 + k) (by omega)).trans (by
    rw [sidebandWord, if_neg (by omega), if_neg (by omega), if_neg (by omega), if_neg (by omega)])
  unfold tileOfImage
  dsimp only
  simp only [hnan, hpos, hneg, z3, z392, g0, g1, g2, h48, h44, h32, h0, h40, b43, b42, b39, b38, b37, b15, b13, b12, b11, b10, b9, b8, r16, r14, r4,
    f48, f32, f16, f63, s56, s39, s0, p0, q34, hmode, TileState.ofCode]
  have hcode : t.st.code ≠ 3 := by cases t.st <;> decide
  have hplanes : (if floatMode t.mode.toNat = true then t.nan else 0) = t.nan ∧ (if floatMode t.mode.toNat = true then t.posInf else 0) = t.posInf ∧
      (if floatMode t.mode.toNat = true then t.negInf else 0) = t.negInf := by
    cases hf : floatMode t.mode.toNat
    case false =>
      obtain ⟨hn, hpi, hni⟩ := hp hf
      simp [hn, hpi, hni]
    case true => simp
  obtain ⟨e1, e2, e3⟩ := hplanes
  rw [if_neg (by simp [hcode, hm]), e1, e2, e3]

theorem tileOfImage_sidebandImage {t : Tile} (busy : Bool) (hm : t.mode.toNat < 12)
    (hp : floatMode t.mode.toNat = false → t.nan = 0 ∧ t.posInf = 0 ∧ t.negInf = 0) :
    tileOfImage ((List.range 512).map (sidebandWord t busy)) = some t :=
  tileOfImage_of_words (fun _ hk => sidebandImage_getD t busy hk) hm hp

/-- Settles O26: the entries of a queue and the fields of a tile are read where they were placed. -/
theorem savedImagesRoundTrip : Obligations.SavedImagesRoundTrip :=
  ⟨fun _ _ hlen hq => queueOfImage_queueImage hlen hq, fun _ busy hm hp => tileOfImage_sidebandImage busy hm hp⟩

end Sys2Proof.Machine
end

section
/-! CLASS 0x8, the Pump group (R112, R250, R270-R272, R278, R290): what hand-over of a descriptor changes, and each instruction. -/

namespace Sys2Proof.Machine

/-! Registers after an instruction. -/

/-- A g register of a bank after a write to one of them. -/
theorem Windlass.gGet_gSet (c : Windlass) (b : Bool) (n k : Fin 32) (v : W64) :
    (c.gSet b n v).gGet b k = if k = n ∧ k ≠ 0 then v else c.gGet b k := by
  by_cases hk : k = 0
  · simp [Windlass.gGet, hk]
  · by_cases hn : n = 0
    · have hkn : k ≠ n := fun e => hk (e.trans hn)
      rw [Windlass.gSet, if_pos hn, if_neg (fun e => hkn e.1)]
    · cases b <;> simp [Windlass.gGet, Windlass.gSet, hn, hk, Vector.getElem_set, Fin.ext_iff, eq_comm]

theorem gGet_retired (c : Windlass) (b : Bool) (k : Fin 32) : (retired c).gGet b k = c.gGet b k := by
  rw [Windlass.gGet, retired_gN, retired_gS]; rfl

/-- A write after which no result is under way drops none. -/
theorem Well.dropLate_of_empty {u : Well} (h1 : u.cpu.getPend = []) (h2 : u.flume.window = []) (b : Bool) (n : Fin 32) : u.dropLate b n = u := by
  obtain ⟨cpu, fl, _, _, _, _⟩ := u
  cases cpu; cases fl
  simp only at h1 h2
  simp [Well.dropLate, h1, h2]

/-! Hand-over in tag service (R272, R283): the queue of the Pump grows by the descriptor, whatever the front end answers. -/

/-- What a descriptor was submitted as. -/
def descKey (y : Desc) : DWords × BitVec 32 × BitVec 16 × BitVec 2 × BitVec 12 × BitVec 12 := (y.words, y.seq, y.asid, y.ring, y.ctr, y.wctr)

/-- What the translation of a Pump's endpoints leaves: what was submitted, memory, the Flume and, but for the exception registers, the
Windlass of a well. -/
def besideXlate (w : WellId) (p : PumpId) (s : State) :
    List (DWords × BitVec 32 × BitVec 16 × BitVec 2 × BitVec 12 × BitVec 12) × BitVec 32 × List Host.Cell × Windlass × Flume :=
  (s.pumps[p].queue.map descKey, s.pumps[p].nextSeq, s.mem, { s.cpu w with exc := ExcRegs.reset }, s.wells[w].flume)

section
variable (w : WellId) (p : PumpId) (s : State)

theorem besideXlate_modFront (f : FrontId) (g : Front → Front) : besideXlate w p (s.modFront f g) = besideXlate w p s := rfl

theorem besideXlate_modDesc (seq : BitVec 32) {g : Desc → Desc} (hg : ∀ d, descKey (g d) = descKey d) :
    besideXlate w p (modDesc p seq g s) = besideXlate w p s := by
  have e : (fun d => descKey (if d.seq = seq then g d else d)) = descKey := by
    funext d
    split
    · exact hg d
    · rfl
  have e' : ((modDesc p seq g s).pumps[p]).queue.map descKey = s.pumps[p].queue.map descKey := by simp [modDesc, Function.comp_def, e]
  have e'' : ((modDesc p seq g s).pumps[p]).nextSeq = s.pumps[p].nextSeq := by simp [modDesc]
  rw [besideXlate, e', e'']
  rfl

theorem besideXlate_raiseLine (v : WellId) (n : Nat) : besideXlate w p (raiseLine v n s) = besideXlate w p s := by
  by_cases h : w = v
  · subst h
    simp [besideXlate, raiseLine]
  · simp [besideXlate, raiseLine, State.cpu, h]

theorem besideXlate_notePeak (v : WellId) : besideXlate w p (notePeak v s) = besideXlate w p s := by
  obtain ⟨n, hn⟩ := notePeak_eq v s
  rw [hn]
  by_cases h : w = v
  · subst h
    simp [besideXlate]
  · simp [besideXlate, State.cpu, h]

theorem besideXlate_joinRecord (f : FrontId) (k : Fin 64) (seq : BitVec 32) (dst early : Bool) (va : BitVec 56) (need : BitVec 3) :
    besideXlate w p (joinRecord f k (.pump p seq dst early) va need s) = besideXlate w p s := by
  have hold (t : State) : besideXlate w p (holdRequester f k (.pump p seq dst early) t) = besideXlate w p t :=
    besideXlate_modDesc w p t seq fun d => by cases dst <;> rfl
  simp only [joinRecord, pumpFaultLine]
  split
  · rw [besideXlate_raiseLine, hold, besideXlate_modFront]
  · rw [hold, besideXlate_modFront]

/-- A request for the page of an endpoint (R282, R286). -/
theorem besideXlate_requestXlate (f : FrontId) (seq : BitVec 32) (dst early : Bool) (asid : BitVec 16) (va : BitVec 56) (need : BitVec 3) :
    besideXlate w p (requestXlate f (.pump p seq dst early) asid va need s) = besideXlate w p s := by
  have give (e : TlbEntry) (t : State) : besideXlate w p (giveTranslation (.pump p seq dst early) e t) = besideXlate w p t :=
    besideXlate_modDesc w p t seq fun d => by cases dst <;> cases early <;> simp [descKey]
  have start (t : State) : besideXlate w p (modDesc p seq (fun d => if dst then { d with walkD := true, heldD := none }
      else { d with walkS := true, heldS := none }) t) = besideXlate w p t := besideXlate_modDesc w p t seq fun d => by cases dst <;> rfl
  unfold requestXlate
  dsimp only
  split
  · exact besideXlate_joinRecord w p s f _ seq dst early va need
  · split
    · split
      · exact (give _ _).trans (besideXlate_modFront w p s f _)
      · split <;> exact (besideXlate_modFront w p _ f _).trans (start s)
    · split <;> exact (besideXlate_modFront w p _ f _).trans (start s)

theorem besideXlate_askFirst (d : Desc) : besideXlate w p (askFirst p d s) = besideXlate w p s := by
  have ask (dst : Bool) (s : State) : besideXlate w p (askPage p d dst s) = besideXlate w p s := by
    unfold askPage
    dsimp only
    split
    · exact besideXlate_requestXlate w p s _ _ _ _ _ _ _
    · rfl
  rw [askFirst, ask, ask]

end

/-- A descriptor has been handed over (R112, R272): it stands last in its Pump's queue under the next submission number, with its counters
made absolute, and gd holds that number. -/
def Handed (w : WellId) (p : PumpId) (n : Fin 32) (d : DWords) (s t : State) : Prop :=
  t.pumps[p].queue.map descKey = s.pumps[p].queue.map descKey ++ [(d, s.pumps[p].nextSeq, (s.cpu w).wasid, (s.cpu w).eff.ring,
      s.wells[w].mr.trigBase + BitVec.ofNat 12 (dCtr d), s.wells[w].mr.trigBase + BitVec.ofNat 12 (dWctr d))] ∧
    t.pumps[p].nextSeq = s.pumps[p].nextSeq + 1 ∧ (t.cpu w).pc = (s.cpu w).pc + 8 ∧ t.mem = s.mem ∧
    ∀ k : Fin 32, (t.cpu w).gGet (s.cpu w).eff.bank k =
      if k = n ∧ k ≠ 0 then s.pumps[p].nextSeq.setWidth 64 else (s.cpu w).gGet (s.cpu w).eff.bank k

/-- A descriptor of the given key joins the queue, and gd takes its number. -/
theorem handed_of_enqueue {w : WellId} {p : PumpId} {n : Fin 32} {d : DWords} {s0 s t : State} {e : Desc} (h : ready w s0 = true)
    (hs : s.cpu w = s0.cpu w) (hf : s.wells[w].flume = s0.wells[w].flume)
    (he : descKey e = descKey (mkDesc s.wells[w].mr d s.pumps[p].nextSeq (s.cpu w).wasid (s.cpu w).eff.ring))
    (ht : besideXlate w p t = besideXlate w p (enqueue p e s)) :
    Handed w p n d s (conclude w s0 (.done (setG w n (s.pumps[p].nextSeq.setWidth 64) t))) := by
  simp only [besideXlate, Prod.mk.injEq] at ht
  obtain ⟨hq, hseq, hmem, hcpu, hfl⟩ := ht
  have hx : t.cpu w = { s.cpu w with exc := (t.cpu w).exc } := congrArg (fun c : Windlass => { c with exc := (t.cpu w).exc }) hcpu
  rw [conclude_setG h ⟨_, hx.trans (by rw [hs])⟩ (hfl.trans hf)]
  refine ⟨?_, hseq.trans (by simp [enqueue]), ?_, hmem, fun k => ?_⟩
  · refine hq.trans ?_
    simp only [enqueue, Fin.getElem_fin, State.modPump_same, List.map_append, List.map_cons, List.map_nil, he]
    rfl
  · rw [State.modCpu_cpu, hx]
    simp [retired]
  · rw [State.modCpu_cpu, gGet_retired, hx]
    exact Windlass.gGet_gSet _ _ n k _

/-- The two Pumps of a well queue 16 descriptors (R264). -/
theorem queueCap_wellPump (w : WellId) (b : Fin 2) : queueCap (wellPump w b) = 16 :=
  if_pos (show 2 * w.val + b.val < 256 by omega)

/-- In tag service a descriptor with room in its queue is handed over. -/
theorem submit_tagService {w : WellId} {b : Fin 2} {d : DWords} {s : State} (hq : s.pumps[wellPump w b].queue.length < 16)
    (hsb : s.wells[w].st.scoreboard = false) : ∃ t e, submit w (wellPump w b) d s = (none, t) ∧
      descKey e = descKey (mkDesc s.wells[w].mr d s.pumps[wellPump w b].nextSeq (s.cpu w).wasid (s.cpu w).eff.ring) ∧
      besideXlate w (wellPump w b) t = besideXlate w (wellPump w b) (enqueue (wellPump w b) e s) := by
  have e : submit w (wellPump w b) d s = (none, handOver w (wellPump w b) d (s.cpu w).wasid (s.cpu w).eff.ring s) := by
    rw [submit, queueCap_wellPump, if_neg (Nat.not_le.mpr hq), if_neg (Bool.not_eq_true _ ▸ hsb)]
  by_cases hc : cutPending s w = true
  · exact ⟨_, { mkDesc s.wells[w].mr d s.pumps[wellPump w b].nextSeq (s.cpu w).wasid (s.cpu w).eff.ring with waitCut := true }, e, rfl,
      by rw [handOver, if_pos hc]⟩
  · exact ⟨_, _, e, rfl, by rw [handOver, if_neg hc, besideXlate_askFirst]⟩

/-- In scoreboard mode a descriptor with nothing to translate is handed over where its ranges have entries free (R245, R246). -/
theorem submit_scoreboard {w : WellId} {b : Fin 2} {d : DWords} {s : State} (hq : s.pumps[wellPump w b].queue.length < 16)
    (hsb : s.wells[w].st.scoreboard = true) (ha : s.pumps[wellPump w b].abortHand = false) (hc : cutPending s w = false)
    (hsrc : dHas d false = true → dMode d false ≠ 0) (hdst : dMode d true ≠ 0)
    (hr : entriesFree s w (endSpans s w (if dHas d false then plainRanges s w d false else []) false ++
      endSpans s w (plainRanges s w d true) true) = true) : ∃ t e, submit w (wellPump w b) d s = (none, t) ∧
      descKey e = descKey (mkDesc s.wells[w].mr d s.pumps[wellPump w b].nextSeq (s.cpu w).wasid (s.cpu w).eff.ring) ∧
      besideXlate w (wellPump w b) t = besideXlate w (wellPump w b) (enqueue (wellPump w b) e s) := by
  have e : submit w (wellPump w b) d s = handOverSb w (wellPump w b) d (s.cpu w).wasid (s.cpu w).eff.ring s := by
    rw [submit, queueCap_wellPump, if_neg (Nat.not_le.mpr hq), if_pos hsb]
  refine ⟨_, { mkDesc s.wells[w].mr d s.pumps[wellPump w b].nextSeq (s.cpu w).wasid (s.cpu w).eff.ring with
    spans := endSpans s w (if dHas d false then plainRanges s w d false else []) false ++ endSpans s w (plainRanges s w d true) true },
    e.trans (?_ : _ = (none, notePeak w (enqueue (wellPump w b) _ s))), rfl, besideXlate_notePeak w _ _ w⟩
  have hd : dHas d true = true := rfl
  cases hh : dHas d false with
  | false =>
    simp only [hh, if_false, Bool.false_eq_true] at hr
    simp only [handOverSb, ha, hc, hh, hd, hdst, hr, Resolved.start, Bool.false_and, Bool.not_false, Bool.not_true, if_true, if_false,
      Bool.false_eq_true, Bool.or_self]
    rfl
  | true =>
    simp only [hh, if_true] at hr
    simp only [handOverSb, ha, hc, hh, hd, hdst, hsrc hh, hr, Resolved.start, Bool.false_and, Bool.not_true, if_true, if_false,
      Bool.false_eq_true, Bool.or_self]
    rfl

theorem submitRes_of_none {w : WellId} {p : PumpId} {d : DWords} {s t : State} (h : submit w p d s = (none, t)) (i : W64) :
    submitRes w i p d s = .done (setG w (wDest i) (s.pumps[p].nextSeq.setWidth 64) t) := by
  simp only [submitRes, h]

theorem submitRes_of_some {w : WellId} {p : PumpId} {d : DWords} {s t : State} {why : Stall} (h : submit w p d s = (some why, t)) (i : W64) :
    submitRes w i p d s = .wait why t := by
  simp only [submitRes, h]

/-- What submission of a descriptor whose checks have passed answers (R272): the wait for room in the queue, or hand-over. s is the state
that the checks leave. -/
theorem submitRes_cases {w : WellId} {b : Fin 2} {i : W64} {d : DWords} {s0 s : State} (h : ready w s0 = true)
    (hs : s.cpu w = s0.cpu w) (hf : s.wells[w].flume = s0.wells[w].flume) :
    let p := wellPump w b
    let t := conclude w s0 (submitRes w i p d s)
    (16 ≤ s.pumps[p].queue.length → t = s.modCpu w (fun c => { c with stall := some .pumpQueueFull })) ∧
    (s.pumps[p].queue.length < 16 → s.wells[w].st.scoreboard = false → Handed w p (wDest i) d s t) ∧
    (s.pumps[p].queue.length < 16 → s.wells[w].st.scoreboard = true → s.pumps[p].abortHand = false → cutPending s w = false →
      (dHas d false = true → dMode d false ≠ 0) → dMode d true ≠ 0 →
      entriesFree s w (endSpans s w (if dHas d false then plainRanges s w d false else []) false ++
        endSpans s w (plainRanges s w d true) true) = true → Handed w p (wDest i) d s t) := by
  intro p t
  refine ⟨fun hq => ?_, fun hq hsb => ?_, fun hq hsb ha hc hsrc hdst hr => ?_⟩
  · have e : submit w p d s = (some .pumpQueueFull, s) := by rw [submit, queueCap_wellPump, if_pos hq]
    exact congrArg (conclude w s0) (submitRes_of_some e i)
  · obtain ⟨u, e, hu, he, hb⟩ := submit_tagService hq hsb
    rw [show t = _ from congrArg (conclude w s0) (submitRes_of_none hu i)]
    exact handed_of_enqueue h hs hf he hb
  · obtain ⟨u, e, hu, he, hb⟩ := submit_scoreboard hq hsb ha hc hsrc hdst hr
    rw [show t = _ from congrArg (conclude w s0) (submitRes_of_none hu i)]
    exact handed_of_enqueue h hs hf he hb

/-! The instructions. -/

/-- An ECC read touches no Pump, no invalidation and no range entry. -/
theorem eccRead_heldEntries (w : WellId) (src o n : Nat) (s : State) : heldEntries (eccRead w src o n s).2 w = heldEntries s w := by
  obtain ⟨_, _, _, h⟩ := eccRead_snd w src o n s
  rw [h]
  simp [heldEntries]

theorem eccRead_scoreboard (w : WellId) (src o n : Nat) (s : State) :
    (eccRead w src o n s).2.wells[w].st.scoreboard = s.wells[w].st.scoreboard := by
  obtain ⟨_, _, _, h⟩ := eccRead_snd w src o n s
  rw [h]
  simp

theorem eccRead_pumps (w : WellId) (src o n : Nat) (s : State) : (eccRead w src o n s).2.pumps = s.pumps := by
  obtain ⟨_, _, _, h⟩ := eccRead_snd w src o n s; rw [h]; rfl

theorem eccRead_invals (w : WellId) (src o n : Nat) (s : State) : (eccRead w src o n s).2.invals = s.invals := by
  obtain ⟨_, _, _, h⟩ := eccRead_snd w src o n s; rw [h]; rfl

theorem eccRead_devId (w : WellId) (src o n : Nat) (s : State) : (eccRead w src o n s).2.devId = s.devId := by
  obtain ⟨_, _, _, h⟩ := eccRead_snd w src o n s; rw [h]; rfl

section
variable {w : WellId} {i : W64} {s : State} (h : ready w s = true) (hc : wClass i = 8)
include h hc

/-- Each instruction of CLASS 0x8 is held while a change to tag service is (R250). -/
theorem issue_held {mn : String} {op : Nat} {legal : W64 → Bool} {uses : Windlass → Uses} {body : State → CpuRes} (hp : s.wells[w].st.pend = true)
    (ho : wOp i = op) (hl : legal i = true) :
    issue w i { mnemonic := mn, cls := 8, lo := op, hi := op, legal := legal } uses (fun s => holdPend w s (body s)) s =
      .next (s.modCpu w (fun c => { c with stall := some .wsModePend })) := by
  rw [issue_ready h (Row.covers_of hc ho) hl, holdPend_held hp]
  rfl

end

theorem readDesc_congr {s t : State} (hm : t.mem = s.mem) (w : WellId) (o : Nat) : readDesc w o t = readDesc w o s := by
  have e : ∀ x, t.readWord x = s.readWord x := fun x => State.readWord_congr fun y _ _ => congrArg (memRead · y) hm
  simp only [readDesc, e]

/-- A descriptor handed over from the state that an ECC read left was handed over from the state before it. -/
theorem Handed.of_eccRead {w : WellId} {p : PumpId} {n : Fin 32} {d : DWords} {o : Nat} {s t : State}
    (h : Handed w p n d (eccRead w 0 o 64 s).2 t) : Handed w p n d s t := by
  unfold Handed at h ⊢
  rwa [eccRead_pumps, eccRead_cpu, eccRead_mem, show (eccRead w 0 o 64 s).2.wells[w].mr = s.wells[w].mr from eccRead_mr w 0 o 64 s] at h

section
variable {w : WellId} {i : W64} {s : State} (h : ready w s = true) (hc : wClass i = 8) (hp : s.wells[w].st.pend = false)
  (hsb : (s.cpu w).storeBuf = [])
include h hc hp hsb

/-! `pump.sub` and `czero` (R270-R272). -/

theorem execPumpSub_place (h2 : noS2 i = true) (h3 : noS3 i = true) (h4 : immZero i 1 29 = true) (ho : wOp i = 0x001) {a : W64}
    (ha : (s.cpu w).rd (wS1 i) = a)
    (hbad : a.toNat % 64 ≠ 0 ∨ a.toNat < 0x700000 ∨ ownLimit (s.cpu w).drlim (s.cpu w).eff.ring < a.toNat + 64) :
    execPumpSub w i s = .next (takeException w 0x18 a s) := by
  subst ha
  rw [execPumpSub, issue_ready h (Row.covers_of hc ho) (by simp [h2, h3, h4]), holdPend_free hp]
  dsimp only
  rw [State.drainAll_of_empty hsb, if_pos hbad]
  rfl

theorem execPumpSub_submits (h2 : noS2 i = true) (h3 : noS3 i = true) (h4 : immZero i 1 29 = true) (ho : wOp i = 0x001) {o : Nat}
    (ha : ((s.cpu w).rd (wS1 i)).toNat = o) (hal : o % 64 = 0) (hlo : 0x700000 ≤ o)
    (hhi : o + 64 ≤ ownLimit (s.cpu w).drlim (s.cpu w).eff.ring) (hue : ueHit s.ue (wellAddr w o) 64 = false)
    (hd : dRefused (readDesc w o s) (s.cpu w).eff.ring (s.cpu w).drlim s.wells[w].mr.trigCount = false) :
    execPumpSub w i s = .next (conclude w s
      (submitRes w i (wellPump w (Fin.ofNat 2 (immN i 0 1))) (readDesc w o s) (eccRead w 0 o 64 s).2)) := by
  subst ha
  rw [execPumpSub, issue_ready h (Row.covers_of hc ho) (by simp [h2, h3, h4]), holdPend_free hp]
  dsimp only
  rw [State.drainAll_of_empty hsb, if_neg (by omega), eccRead_fst 0 hue]
  dsimp only
  rw [readDesc_congr (eccRead_mem w 0 _ 64 s), hd, if_neg Bool.false_ne_true]

theorem execCzero_eq (h3 : noS3 i = true) (h4 : immZero i 1 29 = true) (ho : wOp i = 0x002) {a n : W64} (ha : (s.cpu w).rd (wS1 i) = a)
    (hn : (s.cpu w).rd (wS2 i) = n) :
    execCzero w i s = .next (conclude w s (
      if n = 0 ∨ n.toNat % 256 ≠ 0 ∨ 2 ^ 32 < n.toNat ∨ dRefused (czeroDesc a n) (s.cpu w).eff.ring (s.cpu w).drlim s.wells[w].mr.trigCount = true
      then .fault 0x18 a s else submitRes w i (wellPump w (Fin.ofNat 2 (immN i 0 1))) (czeroDesc a n) s)) := by
  subst ha hn
  rw [execCzero, issue_ready h (Row.covers_of hc ho) (by simp [h3, h4]), holdPend_free hp]
  dsimp only
  rw [State.drainAll_of_empty hsb]

/-! `inv.as` (R290). -/

theorem execInvAs_eq (hd : noDest i = true) (h3 : noS3 i = true) (h4 : immZero i 1 29 = true) (h2 : bitB i 0 = true ∨ noS2 i = true)
    (ho : wOp i = 0x020) {asid : BitVec 16} (ha : ((s.cpu w).rd (wS1 i)).truncate 16 = asid) {n : W64} (hn : (s.cpu w).rd (wS2 i) = n) :
    execInvAs w i s = .next (conclude w s (ringAtMost w 1 i s (
      if (s.cpu w).eff.ring = 1 ∧ asid ≠ (s.cpu w).wasid then .fault 0x02 i s
      else if bitB i 0 && (if bitB i 0 then absCounter s.wells[w].mr n else none).isNone then .fault 0x18 n s
      else if 4 ≤ s.invals.length then .wait .invBusy s
      else .done (admitInval asid (if bitB i 0 then absCounter s.wells[w].mr n else none) (some w) s)))) := by
  subst ha hn
  rw [execInvAs, issue_ready h (Row.covers_of hc ho) (by simp only [hd, h3, h4, Bool.true_and, Bool.or_eq_true]; exact h2), holdPend_free hp]
  dsimp only
  rw [State.drainAll_of_empty hsb]

/-! `trig.wait`, `trig.get` and `trig.add` (R278). -/

theorem execTrigWait_eq (hd : noDest i = true) (h3 : noS3 i = true) (h4 : immZero i 0 30 = true) (ho : wOp i = 0x030) {a : W64}
    (ha : (s.cpu w).rd (wS1 i) = a) :
    execTrigWait w i s = .next (conclude w s (match absCounter s.wells[w].mr a with
      | none => .fault 0x18 a s
      | some k => if counterAtLeast s k ((s.cpu w).rd (wS2 i)).toNat then .done s else .wait .counterWait s)) := by
  subst ha
  rw [execTrigWait, issue_ready h (Row.covers_of hc ho) (by simp [hd, h3, h4]), holdPend_free hp]
  dsimp only
  cases hk : absCounter s.wells[w].mr ((s.cpu w).rd (wS1 i)) <;> simp only [State.drainAll_of_empty hsb, hk]

theorem execTrigGet_eq (h2 : noS2 i = true) (h3 : noS3 i = true) (h4 : immZero i 0 30 = true) (ho : wOp i = 0x031) {a : W64}
    (ha : (s.cpu w).rd (wS1 i) = a) :
    execTrigGet w i s = .next (conclude w s (match absCounter s.wells[w].mr a with
      | none => .fault 0x18 a s
      | some k => .done ({ s with inflight := s.inflight ++ [InFlight.get w k] }.modCpu w (fun c =>
          { c with getPend := c.getPend ++ [(c.eff.bank, wDest i)] })))) := by
  subst ha
  obtain ⟨_, _, _, _, _, _, _, hg, hw, _⟩ := ready_parts h
  rw [execTrigGet, issue_ready h (Row.covers_of hc ho) (by simp [h2, h3, h4]), holdPend_free hp]
  dsimp only
  rw [State.drainAll_of_empty hsb]
  cases absCounter s.wells[w].mr ((s.cpu w).rd (wS1 i)) with
  | none => rfl
  | some k =>
    refine congrArg (fun t => (.next (conclude w s (.done t)) : Out)) (State.modWell_congr ?_)
    have e := Well.dropLate_of_empty hg hw (s.cpu w).eff.bank (wDest i)
    exact congrArg (fun u : Well => { u with cpu := { u.cpu with getPend := u.cpu.getPend ++ [((s.cpu w).eff.bank, wDest i)] } }) e

theorem execTrigAdd_eq (hd : noDest i = true) (h3 : noS3 i = true) (h4 : immZero i 0 30 = true) (ho : wOp i = 0x032) {a n : W64}
    (ha : (s.cpu w).rd (wS1 i) = a) (hn : (s.cpu w).rd (wS2 i) = n) :
    execTrigAdd w i s = .next (conclude w s (match absCounter s.wells[w].mr a with
      | none => .fault 0x18 a s
      | some k => if n.toNat = 0 ∨ 65535 < n.toNat then .fault 0x18 a s
          else .done { s with inflight := s.inflight ++ [InFlight.inc (.well w) k (BitVec.ofNat 32 n.toNat)] })) := by
  subst ha hn
  rw [execTrigAdd, issue_ready h (Row.covers_of hc ho) (by simp [hd, h3, h4]), holdPend_free hp]
  dsimp only
  cases hk : absCounter s.wells[w].mr ((s.cpu w).rd (wS1 i)) <;> simp only [State.drainAll_of_empty hsb, hk]

end

end Sys2Proof.Machine
end

section
/-! The statement about the Pump group: each instruction's outcomes, from what it runs on a ready well. -/

namespace Sys2Proof.Machine

/-! A relative counter is one of the window's (R112). -/

theorem absCounter_none {m : Millrace} {n : W64} (h : m.trigCount.toNat ≤ n.toNat) : absCounter m n = none := if_neg (Nat.not_lt.mpr h)

theorem absCounter_some {m : Millrace} {n : W64} (h : n.toNat < m.trigCount.toNat) : absCounter m n = some (m.trigBase + n.truncate 12) :=
  if_pos h

/-- What an instruction does that answers with the submission of a descriptor, in the words of the obligation. -/
def Submits (w : WellId) (b : Fin 2) (n : Fin 32) (d : DWords) (s t : State) : Prop :=
  let p := wellPump w b
  (16 ≤ s.pumps[p].queue.length → t.cpu w = { s.cpu w with stall := some .pumpQueueFull } ∧ t.pumps = s.pumps ∧ t.mem = s.mem) ∧
  (s.pumps[p].queue.length < 16 → s.wells[w].st.scoreboard = false → Handed w p n d s t) ∧
  (s.pumps[p].queue.length < 16 → s.wells[w].st.scoreboard = true → s.pumps[p].abortHand = false → cutPending s w = false →
    (dHas d false = true → dMode d false ≠ 0) → dMode d true ≠ 0 →
    entriesFree s w (endSpans s w (if dHas d false then plainRanges s w d false else []) false ++
      endSpans s w (plainRanges s w d true) true) = true → Handed w p n d s t)

/-- Submission from the state itself. -/
theorem submitRes_submits {w : WellId} {s : State} (h : ready w s = true) (i : W64) (b : Fin 2) (d : DWords) :
    Submits w b (wDest i) d s (conclude w s (submitRes w i (wellPump w b) d s)) := by
  obtain ⟨hfull, htag, hsb⟩ := submitRes_cases (b := b) (i := i) (d := d) h rfl rfl
  refine ⟨fun hq => ?_, htag, hsb⟩
  rw [hfull hq]
  exact ⟨State.modCpu_cpu .., rfl, rfl⟩

/-- Submission from the state that the ECC read of the descriptor leaves. -/
theorem submitRes_eccRead_submits {w : WellId} {s : State} (h : ready w s = true) (i : W64) (b : Fin 2) (d : DWords) (o : Nat) :
    Submits w b (wDest i) d s (conclude w s (submitRes w i (wellPump w b) d (eccRead w 0 o 64 s).2)) := by
  obtain ⟨hfull, htag, hsb⟩ := submitRes_cases (b := b) (i := i) (d := d) h (eccRead_cpu w 0 o 64 s) (eccRead_flume w 0 o 64 s)
  rw [eccRead_pumps] at hfull htag hsb
  rw [eccRead_scoreboard] at htag hsb
  refine ⟨fun hq => ?_, fun hq hs => (htag hq hs).of_eccRead, fun hq hs ha hc hsrc hdst hr => (hsb hq hs ha ?_ hsrc hdst ?_).of_eccRead⟩
  · rw [hfull hq, State.modCpu_cpu, eccRead_cpu]
    exact ⟨rfl, eccRead_pumps w 0 o 64 s, eccRead_mem w 0 o 64 s⟩
  · rwa [cutPending, eccRead_invals]
  · have hp (dst : Bool) : plainRanges (eccRead w 0 o 64 s).2 w d dst = plainRanges s w d dst := by rw [plainRanges, eccRead_devId]; rfl
    have he (rs : List (Nat × Nat)) (wr : Bool) : endSpans (eccRead w 0 o 64 s).2 w rs wr = endSpans s w rs wr := by
      simp only [endSpans, ownRanges, eccRead_devId]
    rw [entriesFree, eccRead_heldEntries, eccRead_scoreboard, hp, hp, he, he]
    exact hr

/-- The three outcomes as the obligation lists them. -/
theorem Submits.outcomes {w : WellId} {b : Fin 2} {n : Fin 32} {d : DWords} {s t : State} {out : Out}
    (hs : Submits w b n d s t) (e : out = .next t) :
    let p := wellPump w b
    (16 ≤ s.pumps[p].queue.length → ∃ t, out = .next t ∧ t.cpu w = { s.cpu w with stall := some .pumpQueueFull } ∧
      t.pumps = s.pumps ∧ t.mem = s.mem) ∧
    (s.pumps[p].queue.length < 16 → s.wells[w].st.scoreboard = false → ∃ t, out = .next t ∧ Handed w p n d s t) ∧
    (s.pumps[p].queue.length < 16 → s.wells[w].st.scoreboard = true → s.pumps[p].abortHand = false → cutPending s w = false →
      (dHas d false = true → dMode d false ≠ 0) → dMode d true ≠ 0 →
      entriesFree s w (endSpans s w (if dHas d false then plainRanges s w d false else []) false ++
        endSpans s w (plainRanges s w d true) true) = true → ∃ t, out = .next t ∧ Handed w p n d s t) := by
  obtain ⟨hfull, htag, hsb⟩ := hs
  exact ⟨fun hq => ⟨t, e, hfull hq⟩, fun hq hs => ⟨t, e, htag hq hs⟩, fun hq hs ha hc hsrc hdst hr => ⟨t, e, hsb hq hs ha hc hsrc hdst hr⟩⟩

section
variable {w : WellId} {i : W64} {s : State} (h : ready w s = true) (hc : wClass i = 8) (hp : s.wells[w].st.pend = false)
  (hsb : (s.cpu w).storeBuf = []) (h3 : noS3 i = true)
include h hc hp hsb h3

/-- `inv.as` joins the invalidations in progress, waits for one of the four to end, or faults (R290). -/
theorem execInvAs_outcomes (hd : noDest i = true) (h4 : immZero i 1 29 = true) (h2 : bitB i 0 = true ∨ noS2 i = true) (ho : wOp i = 0x020) :
    let c := s.cpu w
    let m := s.wells[w].mr
    let n := c.rd (wS2 i)
    let asid : BitVec 16 := (c.rd (wS1 i)).truncate 16
    (2 ≤ c.eff.ring.toNat ∨ c.eff.ring = 1 ∧ asid ≠ c.wasid → execInvAs w i s = .next (takeException w 0x02 i s)) ∧
    (c.eff.ring = 0 ∨ c.eff.ring = 1 ∧ asid = c.wasid →
      (bitB i 0 = true → m.trigCount.toNat ≤ n.toNat → execInvAs w i s = .next (takeException w 0x18 n s)) ∧
      ((bitB i 0 = true → n.toNat < m.trigCount.toNat) →
        (s.invals.length < 4 → execInvAs w i s = .next { s.modCpu w retired with
          invals := s.invals ++ [{ asid := asid, ctr := if bitB i 0 then some (m.trigBase + n.truncate 12) else none, well := some w,
                                   cut := false, tags := [] }] }) ∧
        (4 ≤ s.invals.length → execInvAs w i s = .next (s.modCpu w (fun c => { c with stall := some .invBusy }))))) := by
  intro c m n asid
  rw [execInvAs_eq h hc hp hsb hd h3 h4 h2 ho rfl rfl]
  refine ⟨fun hr => ?_, fun hr => ?_⟩
  · rcases hr with hr | hr
    · rw [ringAtMost_bad hr]; rfl
    · rw [ringAtMost_ok (show c.eff.ring.toNat ≤ 1 by rw [hr.1]; decide), if_pos hr]; rfl
  · have hle : c.eff.ring.toNat ≤ 1 := by rcases hr with hr | hr <;> simp [hr]
    have hown : ¬ (c.eff.ring = 1 ∧ asid ≠ c.wasid) := by
      rintro ⟨h1, hne⟩
      rcases hr with hr | hr
      · exact absurd (hr.symm.trans h1) (by decide)
      · exact hne hr.2
    rw [ringAtMost_ok hle, if_neg hown]
    refine ⟨fun hb hn => ?_, fun hn => ?_⟩
    · rw [absCounter_none hn, hb]; rfl
    · have hctr : (if bitB i 0 then absCounter m n else none) = if bitB i 0 then some (m.trigBase + n.truncate 12) else none :=
        ite_congr rfl (fun hb => absCounter_some (hn hb)) (fun _ => rfl)
      have hsome : (bitB i 0 && (if bitB i 0 then absCounter m n else none).isNone) = false := by rw [hctr]; cases bitB i 0 <;> rfl
      rw [if_neg (Bool.not_eq_true _ ▸ hsome), hctr]
      refine ⟨fun hlen => ?_, fun hlen => ?_⟩
      · rw [if_neg (Nat.not_le.mpr hlen)]
        exact congrArg _ (conclude_done_of_cpu h rfl)
      · rw [if_pos hlen]
        rfl

/-- `trig.wait`, `trig.get` and `trig.add` fault at a counter outside the window (R112, R278). -/
theorem trig_outside (h30 : immZero i 0 30 = true) (ha : s.wells[w].mr.trigCount.toNat ≤ ((s.cpu w).rd (wS1 i)).toNat) :
    let t := takeException w 0x18 ((s.cpu w).rd (wS1 i)) s
    (wOp i = 0x030 → noDest i = true → execTrigWait w i s = .next t) ∧
    (wOp i = 0x031 → noS2 i = true → execTrigGet w i s = .next t) ∧
    (wOp i = 0x032 → noDest i = true → execTrigAdd w i s = .next t) := by
  refine ⟨fun ho hd => ?_, fun ho h2 => ?_, fun ho hd => ?_⟩
  · rw [execTrigWait_eq h hc hp hsb hd h3 h30 ho rfl, absCounter_none ha]; rfl
  · rw [execTrigGet_eq h hc hp hsb h2 h3 h30 ho rfl, absCounter_none ha]; rfl
  · rw [execTrigAdd_eq h hc hp hsb hd h3 h30 ho rfl rfl, absCounter_none ha]; rfl

section
variable (h30 : immZero i 0 30 = true) (ha : ((s.cpu w).rd (wS1 i)).toNat < s.wells[w].mr.trigCount.toNat)
include h30 ha

theorem execTrigWait_inside (ho : wOp i = 0x030) (hd : noDest i = true) :
    let ctr := s.wells[w].mr.trigBase + ((s.cpu w).rd (wS1 i)).truncate 12
    let k := s.counters[ctr.toFin]
    let n := (s.cpu w).rd (wS2 i)
    (k.sat = false → n.toNat ≤ k.value.toNat → execTrigWait w i s = .next (s.modCpu w retired)) ∧
    (k.sat = true ∨ k.value.toNat < n.toNat →
      execTrigWait w i s = .next (s.modCpu w (fun c => { c with stall := some .counterWait }))) := by
  intro ctr k n
  rw [execTrigWait_eq h hc hp hsb hd h3 h30 ho rfl, absCounter_some ha]
  dsimp only
  refine ⟨fun hs hn => ?_, fun hk => ?_⟩
  · have e : counterAtLeast s ctr n.toNat = true := by simpa [counterAtLeast] using ⟨hs, hn⟩
    rw [if_pos e, conclude_done_of_cpu h rfl]
  · have e : ¬ counterAtLeast s ctr n.toNat = true := by
      show ¬ (!k.sat && decide (n.toNat ≤ k.value.toNat)) = true
      rcases hk with hk | hk
      · simp [hk]
      · simp [Nat.not_le.mpr hk]
    rw [if_neg e]
    rfl

theorem execTrigGet_inside (ho : wOp i = 0x031) (h2 : noS2 i = true) :
    execTrigGet w i s = .next { s.modCpu w (fun c => retired { c with getPend := c.getPend ++ [(c.eff.bank, wDest i)] }) with
      inflight := s.inflight ++ [.get w (s.wells[w].mr.trigBase + ((s.cpu w).rd (wS1 i)).truncate 12)] } := by
  obtain ⟨_, _, hl, hm, _⟩ := ready_parts h
  rw [execTrigGet_eq h hc hp hsb h2 h3 h30 ho rfl, absCounter_some ha]
  dsimp only
  rw [conclude_done (by rw [State.modCpu_cpu]; exact hl) (by rw [State.modCpu_cpu]; exact hm) (by rw [State.modCpu_cpu]; rfl), State.modCpu_modCpu]
  rfl

theorem execTrigAdd_inside (ho : wOp i = 0x032) (hd : noDest i = true) :
    let n := (s.cpu w).rd (wS2 i)
    (1 ≤ n.toNat → n.toNat ≤ 65535 → execTrigAdd w i s = .next { s.modCpu w retired with
      inflight := s.inflight ++ [.inc (.well w) (s.wells[w].mr.trigBase + ((s.cpu w).rd (wS1 i)).truncate 12) (n.truncate 32)] }) ∧
    (n.toNat = 0 ∨ 65535 < n.toNat → execTrigAdd w i s = .next (takeException w 0x18 ((s.cpu w).rd (wS1 i)) s)) := by
  intro n
  rw [execTrigAdd_eq h hc hp hsb hd h3 h30 ho rfl rfl, absCounter_some ha]
  dsimp only
  refine ⟨fun hlo hhi => ?_, fun hn => ?_⟩
  · rw [if_neg (show ¬ (n.toNat = 0 ∨ 65535 < n.toNat) by omega)]
    exact congrArg _ (conclude_done_of_cpu h rfl)
  · rw [if_pos hn]
    rfl

end

end

/-- Settles O32: a held change to tag service stops all six; else each checks its operands and then queues, waits or answers. -/
theorem pumpInstructions : Obligations.PumpInstructions := by
  intro w i s h hc hsb h3 h4
  refine ⟨fun hp => ⟨fun h2 ho => ?_, fun ho => ?_, fun ho hd h2 => ?_, fun h30 => ⟨fun ho hd => ?_, fun ho h2 => ?_, fun ho hd => ?_⟩⟩,
    fun hp => ⟨fun h2 ho => ⟨execPumpSub_place h hc hp hsb h2 h3 h4 ho rfl, fun hal hlo hhi hue hd => ?_⟩, fun ho => ⟨fun hbad => ?_, fun hok => ?_⟩,
      fun ho hd h2 => execInvAs_outcomes h hc hp hsb h3 hd h4 h2 ho, fun h30 => ⟨fun ha => trig_outside h hc hp hsb h3 h30 ha, fun ha =>
        ⟨execTrigWait_inside h hc hp hsb h3 h30 ha, execTrigGet_inside h hc hp hsb h3 h30 ha, execTrigAdd_inside h hc hp hsb h3 h30 ha⟩⟩⟩⟩
  · exact issue_held h hc hp ho (by simp [h2, h3, h4])
  · exact issue_held h hc hp ho (by simp [h3, h4])
  · exact issue_held h hc hp ho (by simpa [hd, h3, h4] using h2)
  · exact issue_held h hc hp ho (by simp [hd, h3, h30])
  · exact issue_held h hc hp ho (by simp [h2, h3, h30])
  · exact issue_held h hc hp ho (by simp [hd, h3, h30])
  · exact (submitRes_eccRead_submits h i _ _ _).outcomes (execPumpSub_submits h hc hp hsb h2 h3 h4 ho rfl hal hlo hhi hue hd)
  · exact (execCzero_eq h hc hp hsb h3 h4 ho rfl rfl).trans (by rw [if_pos hbad]; rfl)
  · exact (submitRes_submits h i _ _).outcomes ((execCzero_eq h hc hp hsb h3 h4 ho rfl rfl).trans (by rw [if_neg hok]))

end Sys2Proof.Machine
end

section
/-! The queued instructions at the head of the queue (R91, R94, R99, R119, R122, R226): what runs, and how the head leaves the queue. -/

namespace Sys2Proof.Machine

/-- With nothing in the Flume no operand waits for it (R152). -/
theorem behindFlume_of_empty {u : Well} (h : u.flume.window = []) (e : MrEntry) (o n : Nat) : behindFlume u e o n = false := by
  rw [behindFlume, h, List.any_nil, Bool.and_false]

section
variable {w : WellId} {s : State} {e : MrEntry} {q : List MrEntry} (hq : s.wells[w].mr.queue = e :: q) (hf : s.wells[w].mr.frozen = false)
include hq

section
variable (hw : s.wells[w].flume.window = [])
include hf hw

/-- A head entry whose tile does not let it run freezes the queue (R94, R117). -/
theorem execMrInstructionStart_refused {code : BitVec 8} (hc : tileFault s.wells[w] e = some code) (ho : mrOp e.word ≠ 2) :
    execMrInstructionStart w s = .next (mrFault w code s) := by
  have hn (l : List (Nat × Nat)) : l.any (fun r => behindFlume s.wells[w] e r.1 r.2) = false :=
    List.any_eq_false.mpr fun r _ => by rw [behindFlume_of_empty hw]; exact Bool.false_ne_true
  simp only [execMrInstructionStart, hq, hf, hc, hn, Bool.and_false, Bool.or_false, Bool.false_eq_true, if_false, ho]

/-- The head entry runs as its OPCODE says (R95). -/
theorem execMrInstructionStart_runs (hc : tileFault s.wells[w] e = none) :
    (mrOp e.word = 1 → execMrInstructionStart w s = .next (runMclr w e s)) ∧
    (mrOp e.word = 3 → execMrInstructionStart w s = .next (runMfin w e s)) ∧
    (mrOp e.word = 4 → execMrInstructionStart w s = .next (runMcomb w e s)) ∧
    (mrOp e.word = 6 → execMrInstructionStart w s = .next (runMtsave w e s)) ∧
    (mrOp e.word = 7 → execMrInstructionStart w s = .next (runMtload w e s)) := by
  have hn (l : List (Nat × Nat)) : l.any (fun r => behindFlume s.wells[w] e r.1 r.2) = false :=
    List.any_eq_false.mpr fun r _ => by rw [behindFlume_of_empty hw]; exact Bool.false_ne_true
  simp only [execMrInstructionStart, hq, hf, hc, hn, Bool.and_false, Bool.or_false, Bool.false_eq_true, if_false]
  exact ⟨fun h => by rw [h]; rfl, fun h => by rw [h]; rfl, fun h => by rw [h]; rfl, fun h => by rw [h]; rfl, fun h => by rw [h]; rfl⟩

end

/-- What a frozen queue is after the fault, and what the well has due (R117, R120). -/
theorem mrFault_parts (code : BitVec 8) :
    (mrFault w code s).wells[w].mr = { s.wells[w].mr with
        frozen := true, reason := .fault, fcode := code, loaded := [], ahead := [], inPass := false, finDone := 0, haltReq := false } ∧
    (mrFault w code s).mem = s.mem ∧
    (mrFault w code s).cpu w = { s.cpu w with deferred := (s.cpu w).deferred ++ [{ code := code, info := e.addr.setWidth 64 }] } := by
  have hi : qpcWord s.wells[w].mr = e.addr.setWidth 64 := by rw [qpcWord, hq]
  refine ⟨by simp [mrFault], rfl, ?_⟩
  rw [← hi]
  simp [mrFault, State.cpu]

end

/-! An instruction that completes. -/

/-- The end of an instruction keeps the queue and the tiles, and a stop request freezes what is left (R119). -/
theorem Millrace.boundary_parts (m : Millrace) : m.boundary.queue = m.queue ∧ m.boundary.tiles = m.tiles ∧
    m.boundary.frozen = (m.frozen || (m.haltReq && !m.queue.isEmpty)) := by
  cases hh : m.haltReq <;> cases hz : m.queue.isEmpty <;> cases hf : m.frozen <;> simp [Millrace.boundary, Millrace.halt, hh, hz, hf]

/-- The Windlass of a well whose head instruction has completed (R122, R226). -/
def Windlass.afterHead (c : Windlass) (fl : BitVec 6) (last : Bool) : Windlass :=
  { c with flags := c.flags ||| fl, exc := { c.exc with ipend := if last then c.exc.ipend ||| 512 else c.exc.ipend } }

/-- Completion changes the well's Windlass and Millrace and the increments on their way. -/
theorem mrComplete_eq (w : WellId) (e : MrEntry) (fl : BitVec 6) (s : State) :
    mrComplete w e fl s = { s.modWell w (fun u => { u with
        cpu := u.cpu.afterHead fl u.mr.queue.tail.isEmpty
        mr := Millrace.boundary { u.mr with queue := u.mr.queue.tail } }) with
      inflight := s.inflight ++ (if decide (mrOp e.word = 2 ∨ mrOp e.word = 3 ∨ mrOp e.word = 4) && bitB e.word 23 then [.inc (.well w) e.ctr 1]
        else []) } := by
  obtain ⟨hbq, _, _⟩ := Millrace.boundary_parts { s.wells[w.val].mr with queue := s.wells[w.val].mr.queue.tail }
  unfold mrComplete
  dsimp only
  cases hi : decide (mrOp e.word = 2 ∨ mrOp e.word = 3 ∨ mrOp e.word = 4) && bitB e.word 23 <;>
    cases hz : s.wells[w.val].mr.queue.tail.isEmpty <;>
    simp [hbq, hz, raiseLine, State.modCpu, State.modWell, Windlass.afterHead]

section
variable (w : WellId) (e : MrEntry) (fl : BitVec 6) (s : State)

@[simp] theorem mrComplete_mem : (mrComplete w e fl s).mem = s.mem := by rw [mrComplete_eq]; rfl
theorem mrComplete_tiles : (mrComplete w e fl s).wells[w].mr.tiles = s.wells[w].mr.tiles := by
  rw [mrComplete_eq]
  simp [(Millrace.boundary_parts _).2.1]
theorem mrComplete_st : (mrComplete w e fl s).wells[w].st = s.wells[w].st := by
  rw [mrComplete_eq]
  simp

end

/-- An instruction that completes after operations on tiles leaves the queue. -/
theorem mrComplete_headLeaves {w : WellId} {e : MrEntry} (fl : BitVec 6) {s t : State} (h : besideTiles w t = besideTiles w s) :
    headLeaves w e fl s (mrComplete w e fl t) := by
  simp only [besideTiles, Prod.mk.injEq] at h
  obtain ⟨hc, hm, hi⟩ := h
  have hq : t.wells[w.val].mr.queue = s.wells[w.val].mr.queue := by simpa using congrArg Millrace.queue hm
  have hf : t.wells[w.val].mr.frozen = s.wells[w.val].mr.frozen := by simpa using congrArg Millrace.frozen hm
  have hh : t.wells[w.val].mr.haltReq = s.wells[w.val].mr.haltReq := by simpa using congrArg Millrace.haltReq hm
  obtain ⟨hbq, _, hbf⟩ := Millrace.boundary_parts { t.wells[w.val].mr with queue := s.wells[w.val].mr.queue.tail }
  have hc' : (mrComplete w e fl t).cpu w = (s.cpu w).afterHead fl s.wells[w.val].mr.queue.tail.isEmpty := by
    rw [mrComplete_eq, ← hc, ← hq]
    simp [State.cpu]
  have hm' : (mrComplete w e fl t).wells[w.val].mr = Millrace.boundary { t.wells[w.val].mr with queue := s.wells[w.val].mr.queue.tail } := by
    rw [mrComplete_eq, ← hq]
    simp
  refine ⟨(congrArg Millrace.queue hm').trans hbq, (congrArg Millrace.frozen hm').trans ?_, by rw [hc']; rfl, by rw [hc']; rfl, by rw [hc']; rfl, ?_, ?_⟩
  · rw [hbf, hf, hh]
    rfl
  · rw [mrComplete_eq]
    simp [hi]
  · rw [hc']
    simp [Windlass.afterHead]

end Sys2Proof.Machine
end

section
/-! `mclr`, `mtsave` and `mtload` at the head of the queue, and sideband writes (R91, R99, R104, R110). -/

namespace Sys2Proof.Machine

theorem modTile_tiles (w : WellId) (a : Nat) (f : Tile → Tile) (s : State) :
    (modTile w a f s).wells[w].mr.tiles = s.wells[w].mr.tiles.set (Fin.ofNat 16 a) (f s.wells[w].mr.tiles[Fin.ofNat 16 a]) := by
  simp [modTile]

theorem modTile_tile (w : WellId) (a : Nat) (f : Tile → Tile) (s : State) :
    (modTile w a f s).wells[w].mr.tiles[Fin.ofNat 16 a] = f s.wells[w].mr.tiles[Fin.ofNat 16 a] := by
  rw [modTile_tiles]
  exact Vector.getElem_set_self _

theorem runMclr_leaves (w : WellId) (e : MrEntry) (s : State) :
    headLeaves w e 0 s (runMclr w e s) ∧ (runMclr w e s).mem = s.mem ∧
    (runMclr w e s).wells[w].mr.tiles = s.wells[w].mr.tiles.set (Fin.ofNat 16 (mrTile e.word)) { Tile.reset with
      st := .empty, mode := e.word.extractLsb' 26 4, ea := bitB e.word 25, eb := bitB e.word 24, ovfm := bitB e.word 23,
      preset := bitB e.word 22, anchored := bitB e.word 22,
      anchor := if bitB e.word 22 then BitVec.ofInt 16 (lattice ((e.s1.extractLsb' 0 16).toInt + 7)) else 0,
      pbound := if bitB e.word 22 then e.s1.extractLsb' 0 16 else 0 } := by
  rw [runMclr]
  exact ⟨mrComplete_headLeaves 0 (besideTiles_modTile w s _ _), mrComplete_mem w e 0 _, (mrComplete_tiles w e 0 _).trans (modTile_tiles w _ _ s)⟩

/-- The tile that the head of the queue names is BUSY (R92). -/
theorem tileBusy_of_head {m : Millrace} {e : MrEntry} {q : List MrEntry} (h : m.queue = e :: q) : tileBusy m (mrTile e.word) = true := by
  simp [tileBusy, h]

theorem tiles_getD (m : Millrace) {a : Nat} (h : a < 16) : m.tiles.getD a Tile.reset = m.tiles[Fin.ofNat 16 a] := by
  simp [Vector.getD, h, Nat.mod_eq_of_lt h]

theorem mrTile_lt (i : W64) : mrTile i < 16 := (i.extractLsb' 45 4).isLt

theorem runMtsave_leaves {w : WellId} {e : MrEntry} {q : List MrEntry} {s : State} (hok : s.MemOk) (hq : s.wells[w].mr.queue = e :: q) :
    headLeaves w e 0 s (runMtsave w e s) ∧ (runMtsave w e s).wells[w].mr.tiles = s.wells[w].mr.tiles ∧
    (∀ k, k < 512 → (runMtsave w e s).readWord (wellAddr w (fieldN e.s1 0 24 + 8 * k)) =
      if upperHalf s.wells[w].mr (mrTile e.word) then 0 else sidebandWord s.wells[w].mr.tiles[Fin.ofNat 16 (mrTile e.word)] true k) ∧
    ∀ b, b < wellAddr w (fieldN e.s1 0 24) ∨ wellAddr w (fieldN e.s1 0 24 + 4096) ≤ b → (runMtsave w e s).byteAt b = s.byteAt b := by
  generalize ht : runMtsave w e s = t
  rw [runMtsave] at ht
  have hmem := congrArg State.mem ht
  rw [mrComplete_mem] at hmem
  have hlen : ((List.range 512).map (sidebandAt s.wells[w].mr (mrTile e.word))).length = 512 := by simp
  refine ⟨ht ▸ mrComplete_headLeaves 0 (by simp [besideTiles]), ?_, fun k hk => ?_, fun b hb => ?_⟩
  · rw [← ht, mrComplete_tiles, State.writeWords_wells]
  · have haddr : wellAddr w (fieldN e.s1 0 24 + 8 * k) = wellAddr w (fieldN e.s1 0 24) + 8 * k := (Nat.add_assoc ..).symm
    rw [State.readWord_congr fun y _ _ => congrArg (memRead · y) hmem.symm, haddr,
      State.readWord_writeWords hok (by rw [hlen]; exact hk), List.getD_eq_getElem _ _ (by rw [hlen]; exact hk), List.getElem_map,
      List.getElem_range, sidebandAt, tileBusy_of_head hq, tiles_getD _ (mrTile_lt _)]
  · have e : t.byteAt b = State.byteAt (s.writeWords _ _) b := congrArg (memRead · b) hmem.symm
    rw [e]
    refine State.byteAt_writeWords_other hok ?_
    rw [hlen]
    rcases hb with hb | hb
    · exact .inl hb
    · exact .inr ((Nat.add_assoc ..).trans_le hb)

theorem runMtload_leaves {w : WellId} {e : MrEntry} {s : State} {y : Tile}
    (hue : ueHit s.ue (wellAddr w (0x300000 + fieldN e.s1 0 21)) 4096 = false)
    (hy : tileOfImage (s.readWords (wellAddr w (0x300000 + fieldN e.s1 0 21)) 512) = some y) (hst : y.st ≠ .uninit)
    (hev : floatMode y.mode.toNat = true → mrTile e.word % 2 = 0) :
    headLeaves w e 0 s (runMtload w e s) ∧ (runMtload w e s).mem = s.mem ∧
    (runMtload w e s).wells[w].mr.tiles = s.wells[w].mr.tiles.set (Fin.ofNat 16 (mrTile e.word)) y := by
  have e1 : (y.st == .uninit || (floatMode y.mode.toNat && decide (mrTile e.word % 2 = 1))) = false := by
    cases hf : floatMode y.mode.toNat
    · simpa using hst
    · simpa [hev hf] using hst
  have ht : runMtload w e s = mrComplete w e 0 (modTile w (mrTile e.word) (fun _ => y) (eccRead w 2 (0x300000 + fieldN e.s1 0 21) 4096 s).2) := by
    unfold runMtload
    dsimp only
    rw [eccRead_fst 2 hue]
    dsimp only
    rw [State.readWords_congr (eccRead_mem ..), hy]
    dsimp only
    rw [e1, if_neg Bool.false_ne_true]
  rw [ht]
  refine ⟨mrComplete_headLeaves 0 (by rw [besideTiles_modTile, besideTiles_eccRead]), ?_, ?_⟩
  · rw [mrComplete_mem]
    exact eccRead_mem ..
  · rw [mrComplete_tiles, modTile_tiles]
    exact congrArg (fun m : Millrace => m.tiles.set (Fin.ofNat 16 (mrTile e.word)) y) (eccRead_mr ..)

/-! Sideband writes (R110). -/

/-- A word of a plane, replaced. -/
def putPlane (v : W64) (p : BitVec 8192) (j : Nat) : BitVec 8192 :=
  (p &&& ~~~((0xFFFFFFFFFFFFFFFF#8192) <<< (64 * j))) ||| (v.setWidth 8192 <<< (64 * j))

theorem putPlane_getLsbD (v : W64) (p : BitVec 8192) (j : Nat) {b : Nat} (hb : b < 8192) :
    (putPlane v p j).getLsbD b = if 64 * j ≤ b ∧ b < 64 * j + 64 then v.getLsbD (b - 64 * j) else p.getLsbD b := by
  have hm (i : Nat) : (0xFFFFFFFFFFFFFFFF#8192).getLsbD i = decide (i < 64) := by
    rw [BitVec.getLsbD_ofNat, show 0xFFFFFFFFFFFFFFFF = 2 ^ 64 - 1 by rfl, Nat.testBit_two_pow_sub_one]
    by_cases hi : i < 64
    · simp [hi, show i < 8192 by omega]
    · simp [hi]
  simp only [putPlane, BitVec.getLsbD_or, BitVec.getLsbD_and, BitVec.getLsbD_not, BitVec.getLsbD_shiftLeft, BitVec.getLsbD_setWidth, hm, hb,
    decide_true, Bool.true_and]
  by_cases hlo : b < 64 * j
  · simp [hlo, Nat.not_le.mpr hlo]
  · by_cases hhi : b < 64 * j + 64
    · simp [hlo, hhi, show b - 64 * j < 64 by omega, show b - 64 * j < 8192 by omega, Nat.not_lt.mp hlo]
    · rw [BitVec.getLsbD_of_ge v _ (by omega)]
      simp [hhi, show ¬ b - 64 * j < 64 by omega]

/-- What takes a sideband write. -/
def SidebandTakes (m : Millrace) (n : Nat) : Prop :=
  (m.tiles.getD n Tile.reset).st ≠ .uninit ∧ floatMode (m.tiles.getD n Tile.reset).mode.toNat = true ∧ tileBusy m n = false ∧ n % 2 = 0

section
variable {w : WellId} {o n k : Nat} (v : W64) {s : State} (hlo : 0xF08000 ≤ o) (hhi : o < 0xF18000) (hn : (o - 0xF08000) / 0x1000 = n)
  (hk : o % 0x1000 / 8 = k)
include hlo hhi hn hk

theorem writeSideband_ignored (h : ¬ SidebandTakes s.wells[w].mr n ∨ k < 8 ∨ 392 ≤ k) : writeSideband w o v s = s := by
  subst hn hk
  unfold writeSideband
  dsimp only
  rw [if_neg (by omega)]
  split
  · rfl
  case isFalse hno =>
    simp only [Bool.or_eq_true, beq_iff_eq, Bool.not_eq_true', not_or, Bool.not_eq_false, Bool.not_eq_true] at hno
    obtain ⟨⟨⟨hst, hfl⟩, hbusy⟩, hodd⟩ := hno
    rcases h with h | h | h
    · exact absurd ⟨hst, hfl, hbusy, by omega⟩ h
    · rw [if_pos h]
    · rw [if_neg (by omega), if_neg (by omega), if_neg (by omega), if_neg (by omega)]

theorem writeSideband_taken (h : SidebandTakes s.wells[w].mr n) (h8 : 8 ≤ k) (h392 : k < 392) : writeSideband w o v s =
    modTile w n (fun t => if k < 136 then { t with nan := putPlane v t.nan (k - 8) }
      else if k < 264 then { t with posInf := putPlane v t.posInf (k - 136) } else { t with negInf := putPlane v t.negInf (k - 264) }) s := by
  subst hn hk
  obtain ⟨hst, hfl, hbusy, heven⟩ := h
  unfold writeSideband
  dsimp only
  rw [if_neg (by omega), hfl, hbusy, heven, beq_eq_false_iff_ne.mpr hst, if_neg (by decide), if_neg (by omega)]
  split
  · rfl
  · split
    · rfl
    · rfl

end

end Sys2Proof.Machine
end

section
/-! Tile elements in memory (R90, R91): where they lie, what a write of one leaves, and what a walk over all of a tile makes of each. -/

namespace Sys2Proof.Machine

@[simp] theorem elemBytes_true : elemBytes true = 32 := rfl
@[simp] theorem elemBytes_false : elemBytes false = 4 := rfl

/-- The bytes of a tile element. -/
def InElem (w : WellId) (fl : Bool) (a : Nat) (rc : Nat × Nat) (b : Nat) : Prop :=
  tileElem w fl a rc.1 rc.2 ≤ b ∧ b < tileElem w fl a rc.1 rc.2 + elemBytes fl

/-- The number that the bytes of a tile element hold. -/
def elemVal (w : WellId) (fl : Bool) (a : Nat) (rc : Nat × Nat) (s : State) : Int :=
  signedN (8 * elemBytes fl) (ofBytes (s.readBytes (tileElem w fl a rc.1 rc.2) (elemBytes fl)))

theorem readAcc_of_empty {w : WellId} {t : Tile} (h : t.st = .empty) (a r c : Nat) (s : State) : readAcc w t a r c s = 0 := if_pos h

theorem readAcc_eq_elemVal {w : WellId} {t : Tile} {fl : Bool} (h : t.st ≠ .empty) (hm : floatMode t.mode.toNat = fl) (a r c : Nat) (s : State) :
    readAcc w t a r c s = elemVal w fl a (r, c) s := by
  subst hm
  exact if_neg h

theorem elemVal_congr {w : WellId} {fl : Bool} {a : Nat} {rc : Nat × Nat} {s t : State} (h : ∀ b, InElem w fl a rc b → t.byteAt b = s.byteAt b) :
    elemVal w fl a rc t = elemVal w fl a rc s := by
  rw [elemVal, elemVal, State.readBytes_congr fun b h1 h2 => h b ⟨h1, h2⟩]

theorem readAcc_congr {w : WellId} {t : Tile} {fl : Bool} (hm : floatMode t.mode.toNat = fl) {a r c : Nat} {s u : State}
    (h : ∀ b, InElem w fl a (r, c) b → u.byteAt b = s.byteAt b) : readAcc w t a r c u = readAcc w t a r c s := by
  by_cases he : t.st = .empty
  · rw [readAcc_of_empty he, readAcc_of_empty he]
  · rw [readAcc_eq_elemVal he hm, readAcc_eq_elemVal he hm, elemVal_congr h]

theorem tileElem_eq (w : WellId) (fl : Bool) (a r c : Nat) : tileElem w fl a r c = wellAddr w 0x500000 + a * 0x20000 + elemBytes fl * (128 * r + c) := by
  simp only [tileElem, wellAddr, elemBytes]
  omega

/-- Different elements of one tile share no byte. -/
theorem InElem.unique {w : WellId} {fl : Bool} {a : Nat} {x y : Nat × Nat} {b : Nat} (hx : InElem w fl a x b) (hy : InElem w fl a y b)
    (hxc : x.2 < 128) (hyc : y.2 < 128) : x = y := by
  simp only [InElem, tileElem_eq] at hx hy
  have : 128 * x.1 + x.2 = 128 * y.1 + y.2 := by
    cases fl <;> simp only [elemBytes_true, elemBytes_false] at hx hy <;> omega
  exact Prod.ext (by omega) (by omega)

/-- The elements of the first n rows lie in the tile's first bytes. -/
theorem InElem.bounds {w : WellId} {fl : Bool} {a n : Nat} {x : Nat × Nat} {b : Nat} (hx : InElem w fl a x b) (hr : x.1 < n) (hc : x.2 < 128) :
    wellAddr w 0x500000 + a * 0x20000 ≤ b ∧ b < wellAddr w 0x500000 + a * 0x20000 + n * (128 * elemBytes fl) := by
  simp only [InElem, tileElem_eq] at hx
  cases fl <;> simp only [elemBytes_true, elemBytes_false] at hx ⊢ <;> omega

theorem mem_tileCells {n : Nat} {rc : Nat × Nat} : rc ∈ tileCells n ↔ rc.1 < n ∧ rc.2 < 128 := by
  simp [tileCells, Prod.ext_iff]

theorem tileCells_nodup (n : Nat) : (tileCells n).Nodup := List.nodup_range.product List.nodup_range

/-! Writing an element. -/

theorem signedN_wrapN {n : Nat} (hn : 0 < n) {v : Int} (hlo : -(2 ^ (n - 1) : Int) ≤ v) (hhi : v < 2 ^ (n - 1)) : signedN n (wrapN n v) = v := by
  obtain ⟨n, rfl⟩ : ∃ k, n = k + 1 := ⟨n - 1, by omega⟩
  rw [Nat.add_sub_cancel] at hlo hhi
  have hp : ((2 ^ (n + 1) : Nat) : Int) = 2 * ((2 ^ n : Nat) : Int) := by rw [Nat.pow_succ']; rfl
  have hc : ((2 ^ n : Nat) : Int) = (2 : Int) ^ n := by norm_cast
  rw [signedN, wrapN, hp, Nat.add_sub_cancel]
  rw [← hc] at hlo hhi
  generalize 2 ^ n = p at *
  have hm := Int.emod_nonneg v (show (2 * (p : Int)) ≠ 0 by omega)
  have hq := Int.emod_add_mul_ediv v (2 * p)
  rcases Int.lt_or_le v 0 with hneg | hpos
  · have : v % (2 * p) = v + 2 * p := by
      rw [← Int.add_emod_right]
      exact Int.emod_eq_of_lt (by omega) (by omega)
    rw [if_neg (by omega)]
    omega
  · have : v % (2 * p) = v := Int.emod_eq_of_lt hpos (by omega)
    rw [if_pos (by omega)]
    omega

section
variable {w : WellId} {fl : Bool} {a : Nat} (rc : Nat × Nat) (v : Int) {s : State} (h : s.MemOk)
include h

theorem writeAcc_memOk : (writeAcc w fl a rc.1 rc.2 v s).MemOk := State.writeBytes_memOk h _ _

theorem byteAt_writeAcc_other {b : Nat} (hb : ¬ InElem w fl a rc b) : (writeAcc w fl a rc.1 rc.2 v s).byteAt b = s.byteAt b := by
  refine State.byteAt_writeBytes_other h ?_
  rw [toBytes_length]
  simp only [InElem] at hb
  omega

theorem elemVal_writeAcc : elemVal w fl a rc (writeAcc w fl a rc.1 rc.2 v s) = signedN (8 * elemBytes fl) (wrapN (8 * elemBytes fl) v) := by
  have e := State.readBytes_writeBytes h (tileElem w fl a rc.1 rc.2) (toBytes (elemBytes fl) (wrapN (8 * elemBytes fl) v))
  rw [toBytes_length] at e
  have hlt : wrapN (8 * elemBytes fl) v < 256 ^ elemBytes fl := by
    have hp : (256 : Nat) ^ elemBytes fl = 2 ^ (8 * elemBytes fl) := by rw [Nat.pow_mul]
    rw [hp, wrapN, Int.toNat_lt' (Nat.two_pow_pos _)]
    exact Int.emod_lt_of_pos _ (by exact_mod_cast Nat.two_pow_pos _)
  rw [elemVal, writeAcc, e, ofBytes_toBytes, Nat.mod_eq_of_lt hlt]

end

/-! A walk over elements. -/

/-- A walk that changes each element in its own step, and to a value that follows from the memory that the walk met, leaves every element
with its value and no other byte changed. -/
theorem foldl_elems {σ : Type} (π : σ → State) (w : WellId) (fl : Bool) (a : Nat) (f : σ → Nat × Nat → σ) (val : Nat × Nat → Int) (p0 : σ)
    (h0 : (π p0).MemOk) (l : List (Nat × Nat)) (hl : l.Nodup) (hcol : ∀ x ∈ l, x.2 < 128)
    (step : ∀ x ∈ l, ∀ p, (π p).MemOk → (∀ b, (InElem w fl a x b ∨ ∀ y ∈ l, ¬ InElem w fl a y b) → (π p).byteAt b = (π p0).byteAt b) →
      (π (f p x)).MemOk ∧ (∀ b, ¬ InElem w fl a x b → (π (f p x)).byteAt b = (π p).byteAt b) ∧ elemVal w fl a x (π (f p x)) = val x) :
    (π (l.foldl f p0)).MemOk ∧ (∀ b, (∀ y ∈ l, ¬ InElem w fl a y b) → (π (l.foldl f p0)).byteAt b = (π p0).byteAt b) ∧
      ∀ x ∈ l, elemVal w fl a x (π (l.foldl f p0)) = val x := by
  induction l using List.reverseRecOn with
  | nil => exact ⟨h0, fun _ _ => rfl, fun _ hx => absurd hx List.not_mem_nil⟩
  | append_singleton l x ih =>
    obtain ⟨hnd, -, hdis⟩ := List.nodup_append.mp hl
    have hxl : ∀ y ∈ l, y ≠ x := fun y hy => hdis y hy x (List.mem_singleton.mpr rfl)
    obtain ⟨hok, hout, hval⟩ := ih hnd (fun y hy => hcol y (List.mem_append_left _ hy)) fun y hy p hp hb =>
      step y (List.mem_append_left _ hy) p hp fun b hb' => hb b (hb'.imp_right fun h z hz => h z (List.mem_append_left _ hz))
    have hx : x ∈ l ++ [x] := by simp
    have apart {y : Nat × Nat} (hy : y ∈ l) {b : Nat} (hb : InElem w fl a x b) : ¬ InElem w fl a y b := fun hb' =>
      hxl y hy (hb'.unique hb (hcol y (List.mem_append_left _ hy)) (hcol x hx))
    obtain ⟨sok, sout, sval⟩ := step x hx (l.foldl f p0) hok fun b hb => hout b fun y hy => hb.elim (apart hy) fun h => h y (List.mem_append_left _ hy)
    rw [List.foldl_append, List.foldl_cons, List.foldl_nil]
    refine ⟨sok, fun b hb => (sout b (hb x hx)).trans (hout b fun y hy => hb y (List.mem_append_left _ hy)), fun y hy => ?_⟩
    rcases List.mem_append.mp hy with hy | hy
    · rw [elemVal_congr fun b hb => sout b fun hbx => apart hy hbx hb, hval y hy]
    · rw [List.mem_singleton.mp hy, sval]

/-! The ECC of a tile (R116, R251). -/

theorem tileEcc_snd (w : WellId) (t : Tile) (a lo hi : Nat) (s : State) : ∃ ces cnt el,
    (tileEcc w t a lo hi s).2 = { s with ce := ces }.modSt w (fun t => { t with cecnt := cnt, elast := el }) := by
  unfold tileEcc
  dsimp only
  split
  · exact ⟨s.ce, s.wells[w.val].st.cecnt, s.wells[w.val].st.elast, (State.modWell_of_eq rfl).symm⟩
  · exact eccRead_snd w 2 _ _ s

theorem ueHit_mono {ue : List Nat} {a m n : Nat} (h : ueHit ue a n = false) (hm : m ≤ n) : ueHit ue a m = false := by
  simp only [ueHit, List.any_eq_false, Bool.and_eq_true, decide_eq_true_eq] at h ⊢
  intro k hk
  have := h k hk
  omega

/-- Rows of a tile whose units hold no uncorrectable word are read whole. -/
theorem tileEcc_fst {w : WellId} {t : Tile} {a n : Nat} {s : State}
    (h : t.st = .active → ueHit s.ue (wellAddr w (0x500000 + a * 0x20000)) ((tileUnits t.mode.toNat a).length * 0x20000) = false)
    (hn : n ≤ tileHeight t.mode.toNat) : (tileEcc w t a 0 n s).1 = none := by
  unfold tileEcc
  dsimp only
  split
  · rfl
  case isFalse hno =>
    have hst : t.st = .active := by
      simp only [Bool.or_eq_true, bne_iff_ne, not_or, ne_eq, Decidable.not_not] at hno
      exact hno.1
    have hue := ueHit_mono (m := (n - 0) * (128 * elemBytes (floatMode t.mode.toNat))) (h hst) (by
      cases hf : floatMode t.mode.toNat <;> simp [hf, tileUnits, tileHeight] at hn ⊢ <;> omega)
    rw [eccRead_fst 2 (by rwa [Nat.zero_mul])]
    rfl

end Sys2Proof.Machine
end

section
/-! `mcomb` at the head of the queue (R102). -/

namespace Sys2Proof.Machine

theorem wellAddr_add (w : WellId) (o k : Nat) : wellAddr w (o + k) = wellAddr w o + k := (Nat.add_assoc ..).symm

/-- An ECC read of a tile leaves memory, the errors and the sidebands. -/
theorem tileEcc_keeps (w : WellId) (t : Tile) (a lo hi : Nat) (s : State) : (tileEcc w t a lo hi s).2.mem = s.mem ∧ (tileEcc w t a lo hi s).2.ue = s.ue ∧
    (tileEcc w t a lo hi s).2.wells[w].mr = s.wells[w].mr := by
  obtain ⟨_, _, _, h⟩ := tileEcc_snd w t a lo hi s
  rw [h]
  exact ⟨rfl, rfl, by simp⟩

theorem emptyToZero_memOk {w : WellId} {a : Nat} {t : Tile} {s : State} (h : s.MemOk) : (emptyToZero w a t s).MemOk := by
  unfold emptyToZero
  split
  · exact State.clearBytes_memOk h _ _
  · exact h

theorem emptyToZero_wells (w : WellId) (a : Nat) (t : Tile) (s : State) : (emptyToZero w a t s).wells = s.wells := by
  unfold emptyToZero; split <;> rfl

theorem emptyToZero_of_ne {w : WellId} {a : Nat} {t : Tile} {s : State} (h : t.st ≠ .empty) : emptyToZero w a t s = s := if_neg h

/-- Zeroing a tile reaches no element of a tile in other units. -/
theorem byteAt_emptyToZero_elem {w : WellId} {fl : Bool} {a n : Nat} {t : Tile} {s : State} {x : Nat × Nat} {b : Nat} (hb : InElem w fl n x b)
    (hr : x.1 < 0x20000 * (tileUnits t.mode.toNat n).length / (128 * elemBytes fl)) (hc : x.2 < 128) (hfl : floatMode t.mode.toNat = fl)
    (hd : n + (tileUnits t.mode.toNat n).length ≤ a ∨ a + (tileUnits t.mode.toNat a).length ≤ n) :
    (emptyToZero w a t s).byteAt b = s.byteAt b := by
  obtain ⟨h1, h2⟩ := hb.bounds hr hc
  unfold emptyToZero
  split
  · rw [State.byteAt_clearBytes, if_neg]
    rw [wellAddr_add, wellAddr_add]
    subst hfl
    cases hf : floatMode t.mode.toNat <;> simp [hf, tileUnits] at h1 h2 hd ⊢ <;> omega
  · rfl

/-- What the checks of a `mcomb` that runs have found (R102). -/
theorem mcomb_checked {u : Well} {e : MrEntry} (ho : mrOp e.word = 4) (hf : tileFault u e = none) :
    let x := u.mr.tiles[Fin.ofNat 16 (mrTile e.word)]
    let y := u.mr.tiles[Fin.ofNat 16 (fieldN e.word 0 4)]
    x.st ≠ .uninit ∧ x.mode = y.mode ∧ mrTile e.word ≠ fieldN e.word 0 4 := by
  have hn : fieldN e.word 0 4 < 16 := (e.word.extractLsb' 0 4).isLt
  unfold tileFault at hf
  split at hf
  · cases hf
  · simp only [tileRunFault, ho, tiles_getD _ (mrTile_lt _), tiles_getD _ hn] at hf
    split at hf
    · cases hf
    case isFalse hno =>
      simp only [Bool.or_eq_true, beq_iff_eq, bne_iff_ne, ne_eq, not_or, Decidable.not_not] at hno
      obtain ⟨⟨⟨⟨⟨⟨⟨⟨_, _⟩, hst⟩, _⟩, hm⟩, _⟩, _⟩, _⟩, hne⟩ := hno
      exact ⟨hst, hm, hne⟩

/-! In an integer mode. -/

theorem clampI32_bounds (v : Int) : -(2 ^ 31 : Int) ≤ clampI32 v ∧ clampI32 v < 2 ^ 31 := by
  unfold clampI32
  omega

theorem writeAcc_wells (w : WellId) (fl : Bool) (a r c : Nat) (v : Int) (s : State) : (writeAcc w fl a r c v s).wells = s.wells := rfl

/-- The walk of an integer `mcomb`: the sums go to the elements one after the other, clamped; a zero that is there already is left. -/
def combWalkInt (w : WellId) (a : Nat) (t : Tile) (l : List (Nat × Nat)) (val : Nat × Nat → Int) (s : State) : State :=
  (l.map (fun x => (x, val x))).foldl (fun s v =>
    if clampI32 v.2 = 0 ∧ readAcc w { t with st := .active } a v.1.1 v.1.2 s = 0 then s else writeAcc w false a v.1.1 v.1.2 (clampI32 v.2) s) s

theorem elemVal_combWalkInt {w : WellId} {a : Nat} {t : Tile} {s : State} (h : s.MemOk) (hm : floatMode t.mode.toNat = false)
    {l : List (Nat × Nat)} (hl : l.Nodup) (hcol : ∀ x ∈ l, x.2 < 128) (val : Nat × Nat → Int) {x : Nat × Nat} (hx : x ∈ l) :
    elemVal w false a x (combWalkInt w a t l val s) = clampI32 (val x) := by
  rw [combWalkInt, List.foldl_map]
  refine (foldl_elems id w false a _ (fun x => clampI32 (val x)) s h l hl hcol fun x _ p hp _ => ?_).2.2 x hx
  dsimp only [id]
  split
  case isTrue h0 =>
    refine ⟨hp, fun _ _ => rfl, ?_⟩
    rw [h0.1, ← h0.2]
    exact (readAcc_eq_elemVal (t := { t with st := .active }) (show TileState.active ≠ .empty by decide) hm a x.1 x.2 p).symm
  case isFalse =>
    refine ⟨writeAcc_memOk x _ hp, fun b hb => byteAt_writeAcc_other x _ hp hb, ?_⟩
    rw [elemVal_writeAcc (s := p) x _ hp]
    exact signedN_wrapN (by decide) (clampI32_bounds _).1 (clampI32_bounds _).2

theorem combWalkInt_wells (w : WellId) (a : Nat) (t : Tile) (l : List (Nat × Nat)) (val : Nat × Nat → Int) (s : State) :
    (combWalkInt w a t l val s).wells = s.wells :=
  foldl_keeps State.wells _ (fun s v => by split <;> rfl) _ _

theorem besideTiles_combWalkInt (w : WellId) (a : Nat) (t : Tile) (l : List (Nat × Nat)) (val : Nat × Nat → Int) (s : State) :
    besideTiles w (combWalkInt w a t l val s) = besideTiles w s :=
  foldl_keeps (besideTiles w) _ (fun s v => by split <;> rfl) _ _

/-! In a floating mode. -/

/-- The walk of a floating `mcomb`: each sum of the two elements at their common anchor, and whether a bit was lost. Two zeros are left. -/
def combWalkFloat (w : WellId) (a n : Nat) (x y : Tile) (shX shY : Nat) (l : List (Nat × Nat)) (p : State × Bool) : State × Bool :=
  l.foldl (fun p rc =>
    let u := readAcc w x a rc.1 rc.2 p.1
    let v := readAcc w y n rc.1 rc.2 p.1
    let qu := truncShift u shX
    let qv := truncShift v shY
    if u = 0 ∧ v = 0 then p else
    (writeAcc w true a rc.1 rc.2 (qu + qv) p.1, p.2 || qu * ((2 ^ shX : Nat) : Int) != u || qv * ((2 ^ shY : Nat) : Int) != v)) p

/-- What the walk leaves in an element, from what the tiles held before it. -/
def combSum (w : WellId) (a n : Nat) (x y : Tile) (shX shY : Nat) (s : State) (rc : Nat × Nat) : Int :=
  signedN 256 (wrapN 256 (truncShift (readAcc w x a rc.1 rc.2 s) shX + truncShift (readAcc w y n rc.1 rc.2 s) shY))

theorem combSum_zero {w : WellId} {a n : Nat} {x y : Tile} {shX shY : Nat} {s : State} {rc : Nat × Nat} (hu : readAcc w x a rc.1 rc.2 s = 0)
    (hv : readAcc w y n rc.1 rc.2 s = 0) : combSum w a n x y shX shY s rc = 0 := by
  rw [combSum, hu, hv, truncShift, truncShift, Int.zero_tdiv, Int.zero_tdiv]
  exact signedN_wrapN (by decide) (by decide) (by decide)

theorem elemVal_combWalkFloat {w : WellId} {a n : Nat} {x y : Tile} {s : State} (h : s.MemOk) (hx : floatMode x.mode.toNat = true)
    (hxst : x.st ≠ .empty) (hy : floatMode y.mode.toNat = true) {l : List (Nat × Nat)} (hl : l.Nodup) (hcol : ∀ rc ∈ l, rc.2 < 128)
    (hap : ∀ rc ∈ l, ∀ b, InElem w true n rc b → ∀ z ∈ l, ¬ InElem w true a z b) (shX shY : Nat) {rc : Nat × Nat} (hrc : rc ∈ l) :
    elemVal w true a rc (combWalkFloat w a n x y shX shY l (s, false)).1 = combSum w a n x y shX shY s rc := by
  refine (foldl_elems (σ := State × Bool) Prod.fst w true a _ (combSum w a n x y shX shY s) (s, false) h l hl hcol fun rc hrc p hp hb => ?_).2.2 rc hrc
  have eu : readAcc w x a rc.1 rc.2 p.1 = readAcc w x a rc.1 rc.2 s := readAcc_congr hx fun b hb' => hb b (.inl hb')
  have ev : readAcc w y n rc.1 rc.2 p.1 = readAcc w y n rc.1 rc.2 s := readAcc_congr hy fun b hb' => hb b (.inr (hap rc hrc b hb'))
  dsimp only
  split
  case isTrue h0 =>
    refine ⟨hp, fun _ _ => rfl, ?_⟩
    rw [combSum_zero (eu ▸ h0.1) (ev ▸ h0.2), ← h0.1]
    exact (readAcc_eq_elemVal hxst hx a rc.1 rc.2 p.1).symm
  case isFalse =>
    refine ⟨writeAcc_memOk rc _ hp, fun b hb => byteAt_writeAcc_other rc _ hp hb, ?_⟩
    rw [elemVal_writeAcc (s := p.1) rc _ hp, eu, ev]
    rfl

theorem combWalkFloat_wells (w : WellId) (a n : Nat) (x y : Tile) (shX shY : Nat) (l : List (Nat × Nat)) (p : State × Bool) :
    (combWalkFloat w a n x y shX shY l p).1.wells = p.1.wells := by
  refine foldl_keeps (fun p : State × Bool => p.1.wells) _ (fun p rc => ?_) l p
  dsimp only
  split
  · rfl
  · exact writeAcc_wells w true a _ _ _ _

theorem besideTiles_combWalkFloat (w : WellId) (a n : Nat) (x y : Tile) (shX shY : Nat) (l : List (Nat × Nat)) (p : State × Bool) :
    besideTiles w (combWalkFloat w a n x y shX shY l p).1 = besideTiles w p.1 := by
  refine foldl_keeps (fun p : State × Bool => besideTiles w p.1) _ (fun p rc => ?_) l p
  dsimp only
  split
  · rfl
  · exact besideTiles_writeAcc w _ _ _ _ _ _

/-! What `mcomb` leaves. -/

/-- The state after the ECC reads of both tiles. -/
def combRead (w : WellId) (a n : Nat) (x y : Tile) (s : State) : State :=
  (tileEcc w x a 0 (tileHeight x.mode.toNat) (tileEcc w y n 0 (tileHeight x.mode.toNat) s).2).2

theorem combRead_keeps (w : WellId) (a n : Nat) (x y : Tile) (s : State) : (combRead w a n x y s).mem = s.mem ∧
    (combRead w a n x y s).wells[w].mr = s.wells[w].mr ∧ besideTiles w (combRead w a n x y s) = besideTiles w s := by
  obtain ⟨hm, -, hmr⟩ := tileEcc_keeps w y n 0 (tileHeight x.mode.toNat) s
  obtain ⟨hm', -, hmr'⟩ := tileEcc_keeps w x a 0 (tileHeight x.mode.toNat) (tileEcc w y n 0 (tileHeight x.mode.toNat) s).2
  exact ⟨hm'.trans hm, hmr'.trans hmr, by rw [combRead, besideTiles_tileEcc, besideTiles_tileEcc]⟩

/-- The sums of an integer `mcomb` at the common scale, from a state. -/
def combScaled (w : WellId) (a n : Nat) (x y : Tile) (sc : Nat) (s : State) (rc : Nat × Nat) : Int :=
  rneShift (readAcc w x a rc.1 rc.2 s) (sc - x.sc.toNat) + rneShift (readAcc w y n rc.1 rc.2 s) (sc - y.sc.toNat)

/-- An instruction that changes the sideband of one tile last, and then completes. -/
theorem mrComplete_modTile (w : WellId) (e : MrEntry) (a : Nat) (f : Tile → Tile) {s u : State} (hb : besideTiles w u = besideTiles w s)
    (hm : u.wells[w].mr = s.wells[w].mr) : headLeaves w e 0 s (mrComplete w e 0 (modTile w a f u)) ∧
      (mrComplete w e 0 (modTile w a f u)).wells[w].mr.tiles[Fin.ofNat 16 a] = f s.wells[w].mr.tiles[Fin.ofNat 16 a] ∧
      (mrComplete w e 0 (modTile w a f u)).mem = u.mem := by
  refine ⟨mrComplete_headLeaves 0 (by rw [besideTiles_modTile, hb]), ?_, mrComplete_mem w e 0 _⟩
  rw [mrComplete_tiles, modTile_tile, hm]

section
variable {w : WellId} {e : MrEntry} {s : State} {a n : Nat} {x y : Tile} (hau : mrTile e.word = a) (hnu : fieldN e.word 0 4 = n)
  (hx : s.wells[w].mr.tiles[Fin.ofNat 16 a] = x) (hy : s.wells[w].mr.tiles[Fin.ofNat 16 n] = y)
include hau hnu hx hy

/-- An EMPTY source changes nothing. -/
theorem runMcomb_of_empty (hst : y.st = .empty) : runMcomb w e s = mrComplete w e 0 s := by
  subst hau hnu hx hy
  exact if_pos hst

variable (hf : tileFault s.wells[w] e = none) (ho : mrOp e.word = 4)
include ho hf

/-- The tiles are two, of one mode. -/
theorem mcomb_apart : x.mode = y.mode ∧ a ≠ n := by
  subst hau hnu hx hy
  exact (mcomb_checked ho hf).2

variable (hst : y.st = .active) (ha : tileSound w a s) (hn : tileSound w n s)
include hst ha hn

/-- Neither tile has an uncorrectable word to stop at. -/
theorem mcomb_reads : (tileEcc w y n 0 (tileHeight x.mode.toNat) s).1 = none ∧
    (tileEcc w x a 0 (tileHeight x.mode.toNat) (tileEcc w y n 0 (tileHeight x.mode.toNat) s).2).1 = none := by
  obtain ⟨-, hmode, -⟩ := mcomb_checked ho hf
  subst hau hnu hx hy
  have hue := (tileEcc_keeps w s.wells[w].mr.tiles[Fin.ofNat 16 (fieldN e.word 0 4)] (fieldN e.word 0 4) 0
    (tileHeight s.wells[w].mr.tiles[Fin.ofNat 16 (mrTile e.word)].mode.toNat) s).2.1
  unfold tileSound at ha
  rw [← hue] at ha
  exact ⟨tileEcc_fst hn (by rw [hmode]), tileEcc_fst ha (Nat.le_refl _)⟩

/-- An integer `mcomb` under SAT with sound tiles. -/
theorem runMcomb_int (hm : floatMode x.mode.toNat = false) (hov : x.ovfm = false) {sc : Nat} (hsc : max x.sc.toNat y.sc.toNat = sc) :
    ∃ f : Tile → Tile, (∀ t, (f t).st = .active ∧ (f t).mode = t.mode ∧ (f t).sc = BitVec.ofNat 4 sc) ∧
      runMcomb w e s = mrComplete w e 0 (modTile w a f (combWalkInt w a x (tileCells 256)
        (combScaled w a n x y sc (emptyToZero w a x (combRead w a n x y s))) (emptyToZero w a x (combRead w a n x y s)))) := by
  obtain ⟨hS, hD⟩ := mcomb_reads hau hnu hx hy hf ho hst ha hn
  clear ha hn
  subst hau hnu hx hy
  unfold runMcomb
  dsimp only
  rw [hS, hD, if_neg (by rw [hst]; decide)]
  dsimp only
  rw [hm, if_neg Bool.false_ne_true, hov, hsc]
  refine ⟨_, fun t => ?_, rfl⟩
  exact ⟨rfl, rfl, rfl⟩

/-- A floating `mcomb` of two sound tiles with anchors. -/
theorem runMcomb_float (hm : floatMode x.mode.toNat = true) (hxst : x.st = .active) (hxa : x.anchored = true) (hya : y.anchored = true) {g : Int}
    (hg : max x.anchor.toInt y.anchor.toInt = g) :
    ∃ f : Tile → Tile, (∀ t, (f t).st = .active ∧ (f t).mode = t.mode ∧ (f t).anchor = BitVec.ofInt 16 g ∧ (f t).nan = t.nan ||| y.nan ∧
        (f t).tpanels = t.tpanels + y.tpanels) ∧
      runMcomb w e s = mrComplete w e 0 (modTile w a f (combWalkFloat w a n x y (g - x.anchor.toInt).toNat (g - y.anchor.toInt).toNat
        (tileCells 64) (combRead w a n x y s, false)).1) := by
  obtain ⟨hS, hD⟩ := mcomb_reads hau hnu hx hy hf ho hst ha hn
  clear ha hn
  subst hau hnu hx hy
  have hz := emptyToZero_of_ne (w := w) (a := mrTile e.word) (t := s.wells[w].mr.tiles[Fin.ofNat 16 (mrTile e.word)])
    (s := combRead w (mrTile e.word) (fieldN e.word 0 4) s.wells[w].mr.tiles[Fin.ofNat 16 (mrTile e.word)]
      s.wells[w].mr.tiles[Fin.ofNat 16 (fieldN e.word 0 4)] s) (by rw [hxst]; decide)
  unfold combRead at hz ⊢
  unfold runMcomb
  dsimp only
  rw [hS, hD, if_neg (by rw [hst]; decide)]
  dsimp only
  rw [hm, if_pos rfl, hz, hxst, hxa, hya]
  subst hg
  refine ⟨_, fun t => ?_, rfl⟩
  exact ⟨rfl, rfl, rfl, rfl, rfl⟩

/-- The outcome of an integer `mcomb`. -/
theorem runMcomb_int_leaves (h : s.MemOk) (hm : floatMode x.mode.toNat = false) (hov : x.ovfm = false) {sc : Nat}
    (hsc : max x.sc.toNat y.sc.toNat = sc) :
    let t := runMcomb w e s
    headLeaves w e 0 s t ∧ t.wells[w].mr.tiles[Fin.ofNat 16 a].sc.toNat = sc ∧
      ∀ r, r < 256 → ∀ c, c < 128 → readAcc w t.wells[w].mr.tiles[Fin.ofNat 16 a] a r c t = clampI32 (combScaled w a n x y sc s (r, c)) := by
  intro t
  obtain ⟨hmode, hne⟩ := mcomb_apart hau hnu hx hy hf ho
  obtain ⟨f, hfp, ht⟩ := runMcomb_int hau hnu hx hy hf ho hst ha hn hm hov hsc
  obtain ⟨hmem, hmr, hbes⟩ := combRead_keeps w a n x y s
  generalize combRead w a n x y s = u at ht hmem hmr hbes
  have hok : (emptyToZero w a x u).MemOk := emptyToZero_memOk (show memWf u.mem = true from hmem ▸ h)
  obtain ⟨hl, htile, htm⟩ := mrComplete_modTile w e a f (s := s) (u := combWalkInt w a x (tileCells 256)
      (combScaled w a n x y sc (emptyToZero w a x u)) (emptyToZero w a x u))
    (by rw [besideTiles_combWalkInt, besideTiles_emptyToZero, hbes]) (by rw [combWalkInt_wells, emptyToZero_wells, hmr])
  rw [← ht] at hl htile htm
  rw [hx] at htile
  obtain ⟨hfst, hfm, hfsc⟩ := hfp x
  refine ⟨hl, ?_, fun r hr c hc => ?_⟩
  · rw [htile, hfsc, BitVec.toNat_ofNat, Nat.mod_eq_of_lt]
    have := x.sc.isLt
    have := y.sc.isLt
    omega
  · have hsame : combScaled w a n x y sc (emptyToZero w a x u) (r, c) = combScaled w a n x y sc s (r, c) := by
      have hu (b : Nat) : u.byteAt b = s.byteAt b := congrArg (memRead · b) hmem
      have eD : readAcc w x a r c (emptyToZero w a x u) = readAcc w x a r c s := by
        by_cases he : x.st = .empty
        · rw [readAcc_of_empty he, readAcc_of_empty he]
        · rw [emptyToZero_of_ne he]
          exact readAcc_congr hm fun b _ => hu b
      have eS : readAcc w y n r c (emptyToZero w a x u) = readAcc w y n r c s :=
        readAcc_congr (hmode ▸ hm) fun b hb => (byteAt_emptyToZero_elem hb (by simpa [tileUnits, hm] using hr) hc hm
          (by simp only [tileUnits, hm, Bool.false_eq_true, if_false, List.length_singleton]; omega)).trans (hu b)
      rw [combScaled, eD, eS]
      rfl
    rw [htile, readAcc_eq_elemVal (by rw [hfst]; decide) (hfm ▸ hm), elemVal_congr fun b _ => congrArg (memRead · b) htm,
      elemVal_combWalkInt hok hm (tileCells_nodup 256) (fun z hz => (mem_tileCells.mp hz).2) _ (mem_tileCells.mpr ⟨hr, hc⟩), hsame]

/-- The outcome of a floating `mcomb`. -/
theorem runMcomb_float_leaves (h : s.MemOk) (hm : floatMode x.mode.toNat = true) (hxst : x.st = .active) (hxa : x.anchored = true)
    (hya : y.anchored = true) (hae : a % 2 = 0) (hne2 : n % 2 = 0) {g : Int} (hg : max x.anchor.toInt y.anchor.toInt = g) :
    let t := runMcomb w e s
    headLeaves w e 0 s t ∧ t.wells[w].mr.tiles[Fin.ofNat 16 a].anchor = BitVec.ofInt 16 g ∧
      t.wells[w].mr.tiles[Fin.ofNat 16 a].nan = x.nan ||| y.nan ∧ t.wells[w].mr.tiles[Fin.ofNat 16 a].tpanels = x.tpanels + y.tpanels ∧
      ∀ r, r < 64 → ∀ c, c < 128 → readAcc w t.wells[w].mr.tiles[Fin.ofNat 16 a] a r c t =
        combSum w a n x y (g - x.anchor.toInt).toNat (g - y.anchor.toInt).toNat s (r, c) := by
  intro t
  obtain ⟨hmode, hne⟩ := mcomb_apart hau hnu hx hy hf ho
  obtain ⟨f, hfp, ht⟩ := runMcomb_float hau hnu hx hy hf ho hst ha hn hm hxst hxa hya hg
  obtain ⟨hmem, hmr, hbes⟩ := combRead_keeps w a n x y s
  generalize combRead w a n x y s = u at ht hmem hmr hbes
  have hok : u.MemOk := show memWf u.mem = true from hmem ▸ h
  obtain ⟨hl, htile, htm⟩ := mrComplete_modTile w e a f (s := s) (u := (combWalkFloat w a n x y (g - x.anchor.toInt).toNat
      (g - y.anchor.toInt).toNat (tileCells 64) (u, false)).1)
    (by rw [besideTiles_combWalkFloat, hbes]) (by rw [combWalkFloat_wells, hmr])
  rw [← ht] at hl htile htm
  rw [hx] at htile
  obtain ⟨hfst, hfm, hfa, hfn, hfp⟩ := hfp x
  refine ⟨hl, by rw [htile, hfa], by rw [htile, hfn], by rw [htile, hfp], fun r hr c hc => ?_⟩
  have hap : ∀ rc ∈ tileCells 64, ∀ b, InElem w true n rc b → ∀ z ∈ tileCells 64, ¬ InElem w true a z b := by
    intro rc hrc b hb z hz hb'
    obtain ⟨h1, h2⟩ := hb.bounds (mem_tileCells.mp hrc).1 (mem_tileCells.mp hrc).2
    obtain ⟨h3, h4⟩ := hb'.bounds (mem_tileCells.mp hz).1 (mem_tileCells.mp hz).2
    rw [elemBytes_true] at h2 h4
    omega
  have hu (b : Nat) : u.byteAt b = s.byteAt b := congrArg (memRead · b) hmem
  have hsame (shX shY : Nat) : combSum w a n x y shX shY u (r, c) = combSum w a n x y shX shY s (r, c) := by
    rw [combSum, readAcc_congr hm fun b _ => hu b, readAcc_congr (hmode ▸ hm) fun b _ => hu b]
    rfl
  rw [htile, readAcc_eq_elemVal (by rw [hfst]; decide) (hfm ▸ hm), elemVal_congr fun b _ => congrArg (memRead · b) htm,
    elemVal_combWalkFloat hok hm (by rw [hxst]; decide) (hmode ▸ hm) (tileCells_nodup 64) (fun z hz => (mem_tileCells.mp hz).2) hap _ _
      (mem_tileCells.mpr ⟨hr, hc⟩), hsame]

end

end Sys2Proof.Machine
end

section
/-! `mfin` at the head of the queue (R101, R235, R239): its results lie in the destination rows, and their slots are full. -/

namespace Sys2Proof.Machine

/-! Store tags after a use of one slot. -/

theorem Stores.full_setTag (t : Stores) (j k : SlotId) (b : Bool) : (t.setTag j b).full k = if k = j then b else t.full k := by
  have hbit : (1#14336 <<< j.val).getLsbD k.val = decide (k = j) := by
    rw [← BitVec.twoPow_eq, BitVec.getLsbD_twoPow, decide_eq_true j.isLt]
    simp [Fin.ext_iff, eq_comm]
  cases b with
  | true =>
    rw [show (t.setTag j true).full k = (t.tags ||| 1#14336 <<< j.val).getLsbD k.val from rfl, BitVec.getLsbD_or, hbit]
    by_cases h : k = j
    · simp [h]
    · rw [if_neg h, decide_eq_false h, Bool.or_false]
      rfl
  | false =>
    rw [show (t.setTag j false).full k = (t.tags &&& ~~~(1#14336 <<< j.val)).getLsbD k.val from rfl, BitVec.getLsbD_and, BitVec.getLsbD_not, hbit,
      decide_eq_true k.isLt]
    by_cases h : k = j
    · simp [h]
    · rw [if_neg h, decide_eq_false h, Bool.not_false, Bool.and_true, Bool.and_true]
      rfl

theorem Stores.full_produce (t : Stores) (a : TagAgent) (j k : SlotId) : (t.useSlot a .produce j).full k = (decide (k = j) || t.full k) := by
  rw [show t.useSlot a .produce j = (t.release a j).setTag j true from rfl, Stores.full_setTag]
  by_cases h : k = j
  · simp [h]
  · rw [if_neg h, decide_eq_false h, Bool.false_or]
    rfl

theorem Stores.claim_produce {t : Stores} {a : TagAgent} {j k : SlotId} (h : k ≠ j) : (t.useSlot a .produce j).claim k = t.claim k := by
  have e : (t.useSlot a .produce j).claims = t.claims.filter (fun c => !(c.1 == j && c.2 == a)) := rfl
  rw [Stores.claim, Stores.claim, e, List.find?_filter]
  congr 2
  funext c
  by_cases hc : c.1 = k
  · simp [hc, h]
  · simp [hc]

/-- Without its repetitions a list has none. -/
theorem nodup_eraseDups {α : Type} [BEq α] [LawfulBEq α] (l : List α) : l.eraseDups.Nodup := by
  induction hn : l.length using Nat.strong_induction_on generalizing l with
  | h n ih =>
    cases l with
    | nil => exact List.nodup_nil
    | cons x l =>
      rw [List.eraseDups_cons, List.nodup_cons, List.mem_eraseDups]
      refine ⟨by simp, ih _ ?_ _ rfl⟩
      rw [← hn, List.length_cons]
      exact Nat.lt_succ_of_le (List.length_filter_le ..)

/-- Leaving out waits that pass the first test and fail the second leaves the answer. -/
theorem any_takeWhile_filter {α : Type} {p q r : α → Bool} (h : ∀ x, p x = false → q x = true ∧ r x = false) (l : List α) :
    ((l.filter p).takeWhile q).any r = (l.takeWhile q).any r := by
  induction l with
  | nil => rfl
  | cons x l ih =>
    cases hp : p x with
    | false =>
      obtain ⟨hq, hr⟩ := h x hp
      rw [List.filter_cons_of_neg (by simp [hp]), ih, List.takeWhile_cons_of_pos hq, List.any_cons, hr, Bool.false_or]
    | true =>
      rw [List.filter_cons_of_pos hp, List.takeWhile_cons, List.takeWhile_cons]
      split
      · rw [List.any_cons, List.any_cons, ih]
      · rfl

theorem tagReady_produce {t : Stores} {a : TagAgent} {j k : SlotId} (h : k ≠ j) :
    tagReady (t.useSlot a .produce j) a .produce k = tagReady t a .produce k := by
  have hsuit (b : TagAgent) (u : TagUse) : tagSuits (t.useSlot a .produce j) b u k = tagSuits t b u k := by
    cases u <;> simp [tagSuits, Stores.full_produce, Stores.claim_produce h, h]
  have hwait : (t.useSlot a .produce j).waiters = t.waiters.filter (fun x => !(x.slot == j && x.agent == a)) := rfl
  rw [tagReady, tagReady, hsuit, Stores.claim_produce h, hwait, any_takeWhile_filter]
  · simp only [hsuit]
    rfl
  · intro x hx
    simp only [Bool.not_eq_false', Bool.and_eq_true, beq_iff_eq] at hx
    simp [hx.1, Ne.symm h]

end Sys2Proof.Machine
end

section
/-! The bytes that `mfin` writes (R101, R235). -/

namespace Sys2Proof.Machine

/-! Writes that give bytes their values in any order. -/

theorem wellAddr_eq (w : WellId) (o : Nat) : wellAddr w o = wellAddr w 0 + o := by rw [← wellAddr_add, Nat.zero_add]

/-- A byte of a destination row, and of a slot. -/
def InRow (w : WellId) (x : (Nat × Nat) × List Byte) (b : Nat) : Prop := wellAddr w x.1.1 ≤ b ∧ b < wellAddr w x.1.1 + x.1.2
def InSlot (w : WellId) (k : SlotId) (b : Nat) : Prop := wellAddr w (512 * k.val) ≤ b ∧ b < wellAddr w (512 * k.val) + 512

/-- The values v are those that the rows bring. -/
def Brings (w : WellId) (rows : List ((Nat × Nat) × List Byte)) (v : Nat → Byte) : Prop :=
  ∀ x ∈ rows, x.2.length = x.1.2 ∧ ∀ j < x.1.2, x.2.getD j 0 = v (wellAddr w x.1.1 + j)

/-- Every byte is as it was, or lies in a row and has its value of v. -/
def Fills (w : WellId) (rows : List ((Nat × Nat) × List Byte)) (v : Nat → Byte) (s t : State) : Prop :=
  t.MemOk ∧ ∀ b, t.byteAt b = s.byteAt b ∨ (∃ x ∈ rows, InRow w x b) ∧ t.byteAt b = v b

section
variable {w : WellId} {rows : List ((Nat × Nat) × List Byte)} {v : Nat → Byte} {s t u : State}

theorem Fills.refl (h : s.MemOk) : Fills w rows v s s := ⟨h, fun _ => .inl rfl⟩

theorem Fills.trans (h : Fills w rows v s t) (h' : Fills w rows v t u) : Fills w rows v s u := by
  refine ⟨h'.1, fun b => ?_⟩
  rcases h'.2 b with e | e
  · rw [e]
    exact h.2 b
  · exact .inr e

theorem Fills.keeps (h : Fills w rows v s t) {b : Nat} (hb : s.byteAt b = v b) : t.byteAt b = v b := by
  rcases h.2 b with e | e
  · exact e.trans hb
  · exact e.2

theorem Fills.outside (h : Fills w rows v s t) {b : Nat} (hb : ∀ x ∈ rows, ¬ InRow w x b) : t.byteAt b = s.byteAt b := by
  rcases h.2 b with e | ⟨⟨x, hx, hxb⟩, _⟩
  · exact e
  · exact absurd hxb (hb x hx)

/-- One access of a row to a slot. -/
theorem fills_access (hv : Brings w rows v) (h : s.MemOk) {x : (Nat × Nat) × List Byte} (hx : x ∈ rows) {lo hi : Nat} (hlo : x.1.1 ≤ lo)
    (hlt : lo < hi) (hhi : hi ≤ x.1.1 + x.1.2) :
    Fills w rows v s (s.writeBytes (wellAddr w lo) ((x.2.drop (lo - x.1.1)).take (hi - lo))) ∧
      ∀ b, wellAddr w lo ≤ b → b < wellAddr w hi → (s.writeBytes (wellAddr w lo) ((x.2.drop (lo - x.1.1)).take (hi - lo))).byteAt b = v b := by
  obtain ⟨hlen, hval⟩ := hv x hx
  have hl : ((x.2.drop (lo - x.1.1)).take (hi - lo)).length = hi - lo := by
    rw [List.length_take, List.length_drop]
    omega
  have ex : wellAddr w x.1.1 = wellAddr w 0 + x.1.1 := wellAddr_eq w _
  have elo : wellAddr w lo = wellAddr w 0 + lo := wellAddr_eq w lo
  have ehi : wellAddr w hi = wellAddr w 0 + hi := wellAddr_eq w hi
  have inside (b : Nat) (h1 : wellAddr w lo ≤ b) (h2 : b < wellAddr w hi) :
      (s.writeBytes (wellAddr w lo) ((x.2.drop (lo - x.1.1)).take (hi - lo))).byteAt b = v b := by
    rw [State.byteAt_writeBytes h, hl, if_pos (by omega), ← show wellAddr w x.1.1 + (b - wellAddr w x.1.1) = b by omega,
      ← hval _ (by omega), List.getD_eq_getElem?_getD, List.getD_eq_getElem?_getD, List.getElem?_take_of_lt (by omega), List.getElem?_drop]
    congr 2
    omega
  refine ⟨⟨State.writeBytes_memOk h _ _, fun b => ?_⟩, inside⟩
  by_cases hb : wellAddr w lo ≤ b ∧ b < wellAddr w hi
  · exact .inr ⟨⟨x, hx, by omega, by omega⟩, inside b hb.1 hb.2⟩
  · exact .inl (State.byteAt_writeBytes_other h (by omega))

/-- The access of one row to a slot, where they meet. -/
theorem fills_row (hv : Brings w rows v) (h : s.MemOk) {x : (Nat × Nat) × List Byte} (hx : x ∈ rows) (k : SlotId) :
    Fills w rows v s (finSlot w [x] k s) ∧ ∀ b, InRow w x b → InSlot w k b → (finSlot w [x] k s).byteAt b = v b := by
  rw [finSlot, List.foldl_cons, List.foldl_nil]
  dsimp only
  have ex : wellAddr w x.1.1 = wellAddr w 0 + x.1.1 := wellAddr_eq w _
  have ek : wellAddr w (512 * k.val) = wellAddr w 0 + 512 * k.val := wellAddr_eq w _
  split
  case isTrue hlt =>
    obtain ⟨hf, hb⟩ := fills_access hv h hx (Nat.le_max_left ..) hlt (Nat.min_le_left ..)
    refine ⟨hf, fun b hr hk => hb b ?_ ?_⟩
    · rw [wellAddr_eq]
      simp only [InRow, InSlot] at hr hk
      omega
    · rw [wellAddr_eq]
      simp only [InRow, InSlot] at hr hk
      omega
  case isFalse hno =>
    refine ⟨.refl h, fun b hr hk => ?_⟩
    simp only [InRow, InSlot] at hr hk
    omega

/-- The accesses of all rows to one slot. -/
theorem fills_finSlot (hv : Brings w rows v) (h : s.MemOk) (k : SlotId) : Fills w rows v s (finSlot w rows k s) ∧
    ∀ x ∈ rows, ∀ b, InRow w x b → InSlot w k b → (finSlot w rows k s).byteAt b = v b := by
  have walk (l : List ((Nat × Nat) × List Byte)) (hl : ∀ x ∈ l, x ∈ rows) (s : State) (h : s.MemOk) :
      Fills w rows v s (finSlot w l k s) ∧ ∀ x ∈ l, ∀ b, InRow w x b → InSlot w k b → (finSlot w l k s).byteAt b = v b := by
    induction l generalizing s with
    | nil => exact ⟨.refl h, fun _ hx => absurd hx List.not_mem_nil⟩
    | cons x l ih =>
      obtain ⟨hf, hb⟩ := fills_row hv h (hl x List.mem_cons_self) k
      obtain ⟨hf', hb'⟩ := ih (fun y hy => hl y (List.mem_cons_of_mem _ hy)) (finSlot w [x] k s) hf.1
      refine ⟨hf.trans hf', fun y hy b hr hk => ?_⟩
      rcases List.mem_cons.mp hy with rfl | hy
      · exact hf'.keeps (hb b hr hk)
      · exact hb' y hy b hr hk
  exact walk rows (fun _ hx => hx) s h

theorem finSlot_keeps (w : WellId) (rows : List ((Nat × Nat) × List Byte)) (k : SlotId) (s : State) :
    (finSlot w rows k s).wells = s.wells ∧ besideTiles w (finSlot w rows k s) = besideTiles w s :=
  ⟨foldl_keeps State.wells _ (fun s x => by dsimp only; split <;> rfl) _ _, foldl_keeps (besideTiles w) _ (fun s x => by dsimp only; split <;> rfl) _ _⟩

/-- In tag service a slot that has been written is full (R239, R245). -/
def usedSlot (w : WellId) (k : SlotId) (s : State) : State :=
  if s.wells[w].st.scoreboard then s else s.modSt w (fun t => t.useSlot .millrace .produce k)

theorem usedSlot_keeps (w : WellId) (k : SlotId) (s : State) : (usedSlot w k s).wells[w].st =
      (if s.wells[w].st.scoreboard then s.wells[w].st else s.wells[w].st.useSlot .millrace .produce k) ∧
    besideTiles w (usedSlot w k s) = besideTiles w s ∧ (usedSlot w k s).mem = s.mem := by
  unfold usedSlot
  split
  · exact ⟨rfl, rfl, rfl⟩
  · exact ⟨by simp, besideTiles_modSt w s _, rfl⟩

/-- A slot that is ready, or tags that are off, let the writing go on (R101, R245). -/
theorem finSlots_cons {w : WellId} {k : SlotId} {s : State} (rows : List ((Nat × Nat) × List Byte)) (l : List SlotId)
    (hr : s.wells[w].st.scoreboard = true ∨ tagReady s.wells[w].st .millrace .produce k = true) :
    finSlots w rows (k :: l) s = (let z := finSlots w rows l (usedSlot w k (finSlot w rows k s)); (z.1, z.2.1 + 1, z.2.2)) := by
  have hgo : (!s.wells[w].st.scoreboard && !tagReady s.wells[w].st .millrace .produce k) = false := by
    rcases hr with hr | hr
    · rw [hr]; rfl
    · rw [hr]; exact Bool.and_false _
  rw [finSlots, hgo, if_neg Bool.false_ne_true, usedSlot, (finSlot_keeps w rows k s).1]

/-- The accesses to the slots in order: none waits, every byte of a row that lies in one of the slots has its value, and in tag service the
slots are full. -/
theorem fills_finSlots (hv : Brings w rows v) (l : List SlotId) (hl : l.Nodup) {s : State} (h : s.MemOk)
    (hr : s.wells[w].st.scoreboard = true ∨ ∀ k ∈ l, tagReady s.wells[w].st .millrace .produce k = true) :
    ∃ n t, finSlots w rows l s = (none, n, t) ∧ Fills w rows v s t ∧ besideTiles w t = besideTiles w s ∧
      (∀ k ∈ l, ∀ x ∈ rows, ∀ b, InRow w x b → InSlot w k b → t.byteAt b = v b) ∧
      (s.wells[w].st.scoreboard = false → ∀ k, (k ∈ l ∨ s.wells[w].st.full k = true) → t.wells[w].st.full k = true) := by
  induction l generalizing s with
  | nil => exact ⟨0, s, rfl, .refl h, rfl, fun _ hk => absurd hk List.not_mem_nil, fun _ k hk => hk.resolve_left List.not_mem_nil⟩
  | cons k l ih =>
    obtain ⟨hkl, hnd⟩ := List.nodup_cons.mp hl
    obtain ⟨hf, hb⟩ := fills_finSlot hv h k
    obtain ⟨hw, hbes⟩ := finSlot_keeps w rows k s
    have heq := finSlots_cons rows l (hr.imp_right fun hr => hr k List.mem_cons_self)
    obtain ⟨hst, hbes', hmem⟩ := usedSlot_keeps w k (finSlot w rows k s)
    rw [hw] at hst
    have hf2 : Fills w rows v (finSlot w rows k s) (usedSlot w k (finSlot w rows k s)) :=
      ⟨show memWf _ = true from hmem ▸ hf.1, fun b => .inl (congrArg (memRead · b) hmem)⟩
    have hr2 : (usedSlot w k (finSlot w rows k s)).wells[w].st.scoreboard = true ∨
        ∀ j ∈ l, tagReady (usedSlot w k (finSlot w rows k s)).wells[w].st .millrace .produce j = true := by
      rw [hst]
      cases hsb : s.wells[w].st.scoreboard with
      | true => exact .inl (by rw [if_pos rfl, hsb])
      | false =>
        refine .inr fun j hj => ?_
        have hjk : j ≠ k := fun e => hkl (e ▸ hj)
        rw [if_neg Bool.false_ne_true, tagReady_produce hjk]
        exact (hr.resolve_left (by rw [hsb]; decide)) j (List.mem_cons_of_mem _ hj)
    obtain ⟨n, t, hz, hft, hbt, hbyte, htag⟩ := ih hnd hf2.1 hr2
    refine ⟨n + 1, t, by rw [heq, hz], (hf.trans hf2).trans hft, hbt.trans (hbes'.trans hbes), fun j hj x hx b hxb hjb => ?_, fun hsb j hj => ?_⟩
    · rcases List.mem_cons.mp hj with rfl | hj
      · exact hft.keeps (hf2.keeps (hb x hx b hxb hjb))
      · exact hbyte j hj x hx b hxb hjb
    · have hsb2 : (usedSlot w k (finSlot w rows k s)).wells[w].st = s.wells[w].st.useSlot .millrace .produce k := by
        rw [hst, hsb, if_neg Bool.false_ne_true]
      refine htag (by rw [hsb2]; exact hsb) j ?_
      rw [hsb2, Stores.full_produce]
      rcases hj with hj | hj
      · rcases List.mem_cons.mp hj with rfl | hj
        · exact .inr (by rw [decide_eq_true rfl, Bool.true_or])
        · exact .inl hj
      · exact .inr (by rw [hj, Bool.or_true])

end

end Sys2Proof.Machine
end

section
/-! `mfin` as a whole (R101): the rows of results that it brings, and what it leaves. -/

namespace Sys2Proof.Machine

theorem length_flatMap_const {α β : Type} {f : α → List β} {k : Nat} {l : List α} (hf : ∀ x ∈ l, (f x).length = k) :
    (l.flatMap f).length = l.length * k := by
  rw [List.length_flatMap, List.map_congr_left (g := fun _ => k) hf, List.map_const', List.sum_replicate, smul_eq_mul]

/-- Chunk r of a concatenation of chunks of one length. -/
theorem flatMap_chunk {α β : Type} {f : α → List β} {k : Nat} (l : List α) (hf : ∀ x ∈ l, (f x).length = k) {r : Nat} (hr : r < l.length) :
    ((l.flatMap f).drop (k * r)).take k = f l[r] := by
  have hlen : ((l.take r).flatMap f).length = k * r := by
    rw [length_flatMap_const fun x hx => hf x (List.mem_of_mem_take hx), List.length_take_of_le (Nat.le_of_lt hr), Nat.mul_comm]
  have hsplit : (l.flatMap f).drop (k * r) = (l.drop r).flatMap f := by
    conv_lhs => rw [← List.take_append_drop r l, List.flatMap_append]
    exact List.drop_left' hlen
  rw [hsplit, List.drop_eq_getElem_cons hr, List.flatMap_cons]
  exact List.take_left' (hf _ (List.getElem_mem hr))

/-- The cells of row r. -/
theorem tileCells_row {n r : Nat} (hr : r < n) : ((tileCells n).drop (128 * r)).take 128 = (List.range 128).map (fun c => (r, c)) := by
  rw [tileCells, flatMap_chunk (k := 128) (List.range n) (fun _ _ => by simp) (by simpa using hr), List.getElem_range]

/-- The bytes of row r of the results. -/
def mfinBytes (w : WellId) (e : MrEntry) (a : Nat) (x : Tile) (s : State) (r : Nat) : List Byte :=
  (List.range 128).flatMap (fun c => toBytes ((dfmtOf e.word).bits / 8) (finishElem w e a x s (r, c)).1)

/-- The destination rows with their bytes. -/
def mfinRows (w : WellId) (e : MrEntry) (a : Nat) (x : Tile) (s : State) : List ((Nat × Nat) × List Byte) :=
  (List.range (opA x.mode.toNat e.s1).rows).map (fun r =>
    ((fieldN e.s1 0 24 + r * (opA x.mode.toNat e.s1).stride, 128 * ((dfmtOf e.word).bits / 8)), mfinBytes w e a x s r))

/-- Their slots, once each. -/
def mfinSlots (x : Tile) (e : MrEntry) : List SlotId :=
  ((mfinWrites x.mode.toNat e.word e.s1).flatMap (fun r => slotsOf r.1 r.2)).eraseDups

theorem finishElem_congr {w : WellId} {s u : State} (h : u.mem = s.mem) (e : MrEntry) (a : Nat) (x : Tile) (rc : Nat × Nat) :
    finishElem w e a x u rc = finishElem w e a x s rc := by
  unfold finishElem
  rw [readAcc_congr rfl fun b _ => congrArg (memRead · b) h]

/-- The model's rows are these. -/
theorem mfinRows_eq (w : WellId) (e : MrEntry) (a : Nat) (x : Tile) (s u : State) (h : u.mem = s.mem) :
    (mfinWrites x.mode.toNat e.word e.s1).zip ((List.range (opA x.mode.toNat e.s1).rows).map (fun r =>
      ((((tileCells (opA x.mode.toNat e.s1).rows).map (fun rc => (rc, finishElem w e a x u rc))).drop (128 * r)).take 128).flatMap
        (fun c => toBytes ((dfmtOf e.word).bits / 8) c.2.1))) = mfinRows w e a x s := by
  rw [mfinWrites, mfinRows, List.zip_map']
  refine List.map_congr_left fun r hr => ?_
  rw [← List.map_drop, ← List.map_take, tileCells_row (List.mem_range.mp hr), List.map_map, List.flatMap_map]
  simp only [Function.comp_apply, finishElem_congr h]
  rfl

theorem runMfin_eq {w : WellId} {e : MrEntry} {s : State} {a : Nat} {x : Tile} (hau : mrTile e.word = a)
    (hx : s.wells[w].mr.tiles[Fin.ofNat 16 a] = x) (hfd : s.wells[w].mr.finDone = 0) (ha : tileSound w a s)
    (hh : (opA x.mode.toNat e.s1).rows ≤ tileHeight x.mode.toNat) {n : Nat} {t : State}
    (hz : finSlots w (mfinRows w e a x s) (mfinSlots x e) (tileEcc w x a 0 (opA x.mode.toNat e.s1).rows s).2 = (none, n, t)) :
    ∃ fl f, runMfin w e s = mrComplete w e fl (modTile w a f t) := by
  obtain ⟨hm, -, hmr⟩ := tileEcc_keeps w x a 0 (opA x.mode.toNat e.s1).rows s
  have hrows := mfinRows_eq w e a x s _ hm
  have hlen : (mfinWrites x.mode.toNat e.word e.s1).length = (opA x.mode.toNat e.s1).rows := by simp [mfinWrites]
  subst hau hx
  have hecc := tileEcc_fst (w := w) ha hh
  unfold runMfin
  dsimp only
  rw [hecc]
  dsimp only
  rw [List.take_of_length_le (Nat.le_of_eq hlen), List.drop_of_length_le (Nat.le_of_eq hlen), hrows, hmr, hfd, List.drop_zero]
  rw [List.flatMap_nil, List.filter_eq_self.mpr fun k _ => by rw [List.contains_nil]; rfl]
  unfold mfinSlots at hz
  rw [hz]
  exact ⟨_, _, rfl⟩

/-- The value that each byte of the destination has in the end. -/
def mfinByte (w : WellId) (e : MrEntry) (a : Nat) (x : Tile) (s : State) (b : Nat) : Byte :=
  let o := b - wellAddr w (fieldN e.s1 0 24)
  (mfinBytes w e a x s (o / (opA x.mode.toNat e.s1).stride)).getD (o % (opA x.mode.toNat e.s1).stride) 0

theorem mfinBytes_length (w : WellId) (e : MrEntry) (a : Nat) (x : Tile) (s : State) (r : Nat) :
    (mfinBytes w e a x s r).length = 128 * ((dfmtOf e.word).bits / 8) := by
  rw [mfinBytes, length_flatMap_const fun _ _ => toBytes_length _ _, List.length_range]

/-- Element c of a row has its own bytes of the row. -/
theorem mfinBytes_elem (w : WellId) (e : MrEntry) (a : Nat) (x : Tile) (s : State) (r : Nat) {c j : Nat} (hc : c < 128)
    (hj : j < (dfmtOf e.word).bits / 8) : (mfinBytes w e a x s r).getD (c * ((dfmtOf e.word).bits / 8) + j) 0 =
      (toBytes ((dfmtOf e.word).bits / 8) (finishElem w e a x s (r, c)).1).getD j 0 := by
  have h := flatMap_chunk (f := fun c => toBytes ((dfmtOf e.word).bits / 8) (finishElem w e a x s (r, c)).1) (List.range 128)
    (fun c _ => toBytes_length _ _) (by simpa using hc)
  rw [List.getElem_range] at h
  rw [← h, List.getD_eq_getElem?_getD, List.getD_eq_getElem?_getD, List.getElem?_take_of_lt hj, List.getElem?_drop, Nat.mul_comm]
  rfl

/-- Rows a stride apart bring the bytes of the destination. -/
theorem mfinRows_brings (w : WellId) (e : MrEntry) (a : Nat) (x : Tile) (s : State)
    (hst : 128 * ((dfmtOf e.word).bits / 8) ≤ (opA x.mode.toNat e.s1).stride) : Brings w (mfinRows w e a x s) (mfinByte w e a x s) := by
  intro y hy
  obtain ⟨r, -, rfl⟩ := List.mem_map.mp hy
  refine ⟨mfinBytes_length w e a x s r, fun j hj => ?_⟩
  dsimp only at hj ⊢
  have ho : wellAddr w (fieldN e.s1 0 24 + r * (opA x.mode.toNat e.s1).stride) + j - wellAddr w (fieldN e.s1 0 24) =
      j + (opA x.mode.toNat e.s1).stride * r := by
    rw [wellAddr_add, Nat.mul_comm]
    omega
  have hjs : j < (opA x.mode.toNat e.s1).stride := Nat.lt_of_lt_of_le hj hst
  rw [mfinByte, ho, Nat.add_mul_div_left _ _ (by omega), Nat.add_mul_mod_self_left, Nat.mod_eq_of_lt hjs, Nat.div_eq_of_lt hjs, Nat.zero_add]

/-- Every byte of a range lies in one of its slots. -/
theorem slotsOf_covers {o n i : Nat} (w : WellId) (hi : i < n) (hb : o + n ≤ 0x700000) : ∃ k ∈ slotsOf o n, InSlot w k (wellAddr w (o + i)) := by
  have hk : (slotOf (o + i)).val = (o + i) / 512 := Nat.mod_eq_of_lt (by omega)
  refine ⟨slotOf (o + i), ?_, ?_⟩
  · rw [slotsOf, if_neg (by omega), List.mem_map]
    refine ⟨(o + i) / 512 - o / 512, List.mem_range.mpr (by omega), ?_⟩
    rw [slotOf, slotOf]
    congr 1
    omega
  · rw [InSlot, hk, wellAddr_eq w (512 * ((o + i) / 512)), wellAddr_eq w (o + i)]
    omega

theorem mem_mfinSlots {x : Tile} {e : MrEntry} {k : SlotId} : k ∈ mfinSlots x e ↔ ∃ r < (opA x.mode.toNat e.s1).rows,
    k ∈ slotsOf (fieldN e.s1 0 24 + r * (opA x.mode.toNat e.s1).stride) (128 * ((dfmtOf e.word).bits / 8)) := by
  rw [mfinSlots, List.mem_eraseDups, mfinWrites]
  simp [List.mem_flatMap]

section
variable {w : WellId} {e : MrEntry} {q : List MrEntry} {s : State} {a : Nat} {x : Tile} (h : s.MemOk) (hau : mrTile e.word = a)
  (hx : s.wells[w].mr.tiles[Fin.ofNat 16 a] = x) (hfd : s.wells[w].mr.finDone = 0) (ha : tileSound w a s)
include h hau hx hfd ha

/-- The outcome of `mfin` whose slots are ready. -/
theorem runMfin_leaves (hst : 128 * ((dfmtOf e.word).bits / 8) ≤ (opA x.mode.toNat e.s1).stride)
    (hh : (opA x.mode.toNat e.s1).rows ≤ tileHeight x.mode.toNat)
    (hin : ∀ r, r < (opA x.mode.toNat e.s1).rows →
      fieldN e.s1 0 24 + r * (opA x.mode.toNat e.s1).stride + 128 * ((dfmtOf e.word).bits / 8) ≤ 0x700000)
    (hr : s.wells[w].st.scoreboard = true ∨ ∀ r, r < (opA x.mode.toNat e.s1).rows →
      ∀ k ∈ slotsOf (fieldN e.s1 0 24 + r * (opA x.mode.toNat e.s1).stride) (128 * ((dfmtOf e.word).bits / 8)),
        tagReady s.wells[w].st .millrace .produce k = true) :
    let g := opA x.mode.toNat e.s1
    let z := (dfmtOf e.word).bits / 8
    let at_ (r c : Nat) : Nat := wellAddr w (fieldN e.s1 0 24 + r * g.stride + c * z)
    let t := runMfin w e s
    (∃ fl, headLeaves w e fl s t) ∧
      (∀ r, r < g.rows → ∀ c, c < 128 → t.readBytes (at_ r c) z = toBytes z (finishElem w e a x s (r, c)).1) ∧
      (∀ b, (∀ r, r < g.rows → b < at_ r 0 ∨ at_ r 0 + 128 * z ≤ b) → t.byteAt b = s.byteAt b) ∧
      (s.wells[w].st.scoreboard = false →
        ∀ r, r < g.rows → ∀ k ∈ slotsOf (fieldN e.s1 0 24 + r * g.stride) (128 * z), t.wells[w].st.full k = true) := by
  intro g z at_ t
  obtain ⟨ces, cnt, el, hu⟩ := tileEcc_snd w x a 0 g.rows s
  have hst0 : (tileEcc w x a 0 g.rows s).2.wells[w].st = { s.wells[w].st with cecnt := cnt, elast := el } := by
    rw [hu]
    simp
  have hm0 : (tileEcc w x a 0 g.rows s).2.mem = s.mem := (tileEcc_keeps w x a 0 g.rows s).1
  have hok : (tileEcc w x a 0 g.rows s).2.MemOk := show memWf _ = true from hm0 ▸ h
  have hr0 : (tileEcc w x a 0 g.rows s).2.wells[w].st.scoreboard = true ∨
      ∀ k ∈ mfinSlots x e, tagReady (tileEcc w x a 0 g.rows s).2.wells[w].st .millrace .produce k = true := by
    rw [hst0]
    refine hr.imp id fun hr k hk => ?_
    obtain ⟨r, hrr, hk⟩ := mem_mfinSlots.mp hk
    exact hr r hrr k hk
  obtain ⟨n, u, hz, hfill, hbes, hbyte, htag⟩ := fills_finSlots (mfinRows_brings w e a x s hst) (mfinSlots x e) (nodup_eraseDups _)
    (s := (tileEcc w x a 0 g.rows s).2) hok hr0
  obtain ⟨fl, f, ht⟩ := runMfin_eq hau hx hfd ha hh hz
  have hmem : t.mem = u.mem := by
    rw [show t = _ from ht, mrComplete_mem]
    rfl
  have hbyteEq (b : Nat) : t.byteAt b = u.byteAt b := congrArg (memRead · b) hmem
  have row {r : Nat} (hr : r < g.rows) : ((fieldN e.s1 0 24 + r * g.stride, 128 * z), mfinBytes w e a x s r) ∈ mfinRows w e a x s :=
    List.mem_map.mpr ⟨r, List.mem_range.mpr hr, rfl⟩
  have filled (r : Nat) (hr : r < g.rows) (j : Nat) (hj : j < 128 * z) :
      u.byteAt (wellAddr w (fieldN e.s1 0 24 + r * g.stride) + j) = (mfinBytes w e a x s r).getD j 0 := by
    obtain ⟨k, hk, hkb⟩ := slotsOf_covers w hj (hin r hr)
    rw [wellAddr_add] at hkb
    rw [hbyte k (mem_mfinSlots.mpr ⟨r, hr, hk⟩) _ (row hr) _ ⟨Nat.le_add_right .., Nat.add_lt_add_left hj _⟩ hkb]
    exact ((mfinRows_brings w e a x s hst _ (row hr)).2 j hj).symm
  refine ⟨⟨fl, ?_⟩, fun r hr c hc => ?_, fun b hb => ?_,
    fun hsb r hr k hk => ?_⟩
  · rw [show t = _ from ht]
    exact mrComplete_headLeaves fl (by rw [besideTiles_modTile, hbes, besideTiles_tileEcc])
  · have hread := State.readBytes_eq (s := t) (x := at_ r c) (bs := toBytes z (finishElem w e a x s (r, c)).1) fun j hj => ?_
    · rwa [toBytes_length] at hread
    · rw [toBytes_length] at hj
      have hcz : c * z + j < 128 * z := by
        have := Nat.mul_le_mul_right z (Nat.le_sub_one_of_lt hc)
        omega
      rw [hbyteEq, show at_ r c + j = wellAddr w (fieldN e.s1 0 24 + r * g.stride) + (c * z + j) from
          (congrArg (· + j) (wellAddr_add w _ _)).trans (Nat.add_assoc ..),
        filled r hr _ hcz, mfinBytes_elem w e a x s r hc hj]
  · rw [hbyteEq, hfill.outside fun y hy hyb => ?_, State.byteAt, hm0]
    · rfl
    · obtain ⟨r, hr, rfl⟩ := List.mem_map.mp hy
      have hb' := hb r (List.mem_range.mp hr)
      simp only [at_, g, z, Nat.zero_mul, Nat.add_zero] at hb'
      simp only [InRow] at hyb
      omega
  · have htst : t.wells[w].st = u.wells[w].st := by
      rw [show t = _ from ht, mrComplete_st]
      simp [modTile]
    rw [htst]
    exact htag (by rw [hst0]; exact hsb) k (.inl (mem_mfinSlots.mpr ⟨r, hr, hk⟩))

end

end Sys2Proof.Machine
end

section
/-! The statement about the head of the queue and sideband writes, from what each instruction leaves. -/

namespace Sys2Proof.Machine

/-- Two changes that agree on the tile are the same change. -/
theorem modTile_congr {w : WellId} {n : Nat} {s : State} {f g : Tile → Tile}
    (h : f s.wells[w].mr.tiles[Fin.ofNat 16 n] = g s.wells[w].mr.tiles[Fin.ofNat 16 n]) :
    modTile w n f s = modTile w n g s := by
  unfold modTile State.modMr
  exact State.modWell_congr (congrArg (fun y => { s.wells[w.val] with
    mr := { s.wells[w.val].mr with tiles := s.wells[w.val].mr.tiles.set (Fin.ofNat 16 n) y } }) h)

/-- A write to a special-bit plane of a tile that takes it (R110). -/
theorem writeSideband_plane {w : WellId} {o n k : Nat} (v : W64) {s : State} (hlo : 0xF08000 ≤ o) (hhi : o < 0xF18000)
    (hn : (o - 0xF08000) / 0x1000 = n) (hk : o % 0x1000 / 8 = k) (h : SidebandTakes s.wells[w].mr n) (h8 : 8 ≤ k) (h392 : k < 392) :
    let x := s.wells[w].mr.tiles.getD n Tile.reset
    let plane (old new : BitVec 8192) (j : Nat) : Prop :=
      ∀ b, b < 8192 → new.getLsbD b = if 64 * j ≤ b ∧ b < 64 * j + 64 then v.getLsbD (b - 64 * j) else old.getLsbD b
    ∃ p, writeSideband w o v s = modTile w n (fun t => if k < 136 then { t with nan := p } else if k < 264 then { t with posInf := p }
        else { t with negInf := p }) s ∧
      (k < 136 → plane x.nan p (k - 8)) ∧ (136 ≤ k → k < 264 → plane x.posInf p (k - 136)) ∧ (264 ≤ k → plane x.negInf p (k - 264)) := by
  intro x plane
  have hn16 : n < 16 := by omega
  have hx : s.wells[w].mr.tiles[Fin.ofNat 16 n] = x := (tiles_getD _ hn16).symm
  rw [writeSideband_taken v hlo hhi hn hk h h8 h392]
  have hput (p : BitVec 8192) (j : Nat) : plane p (putPlane v p j) j := fun b hb => putPlane_getLsbD v p j hb
  rcases Nat.lt_or_ge k 136 with h1 | h1
  · refine ⟨putPlane v x.nan (k - 8), modTile_congr (by rw [hx]; simp only [h1, if_true]), fun _ => hput _ _, fun h => ?_, fun h => ?_⟩ <;> omega
  · rcases Nat.lt_or_ge k 264 with h2 | h2
    · refine ⟨putPlane v x.posInf (k - 136), modTile_congr (by rw [hx]; simp only [Nat.not_lt.mpr h1, h2, if_true, if_false]), fun h => ?_,
        fun _ _ => hput _ _, fun h => ?_⟩ <;> omega
    · refine ⟨putPlane v x.negInf (k - 264), modTile_congr (by rw [hx]; simp only [Nat.not_lt.mpr h1, Nat.not_lt.mpr h2, if_false]), fun h => ?_,
        fun _ h => ?_, fun _ => hput _ _⟩ <;> omega

/-- Settles O28: what each queued instruction leaves when it runs at the head of the queue, and what a sideband write reaches. -/
theorem millraceStartsAndSidebandWrites : Obligations.MillraceStartsAndSidebandWrites := by
  refine ⟨fun w s e q hok hq hf hw => ⟨fun code hc ho => ?_, fun hc => ?_⟩, fun w off v s hlo hhi => ⟨fun h => ?_, fun h h8 h392 => ?_⟩⟩
  · exact ⟨_, execMrInstructionStart_refused hq hf hw hc ho, mrFault_parts hq code⟩
  · obtain ⟨r1, r3, r4, r6, r7⟩ := execMrInstructionStart_runs hq hf hw hc
    refine ⟨fun ho => ⟨_, r1 ho, runMclr_leaves w e s⟩, fun ho hst hfd ha hh hin hr => ?_, fun ho => ⟨fun hy => ?_, fun hy ha hn hm hov => ?_,
      fun hy ha hn hm hxa hya hxst hae hne => ?_⟩, fun ho => ⟨_, r6 ho, runMtsave_leaves hok hq⟩, fun y ho hue hy hst hev =>
      ⟨_, r7 ho, runMtload_leaves hue hy hst hev⟩⟩
    · exact ⟨_, r3 ho, runMfin_leaves hok rfl rfl hfd ha hst hh hin hr⟩
    · exact ⟨_, (r4 ho).trans (congrArg _ (runMcomb_of_empty rfl rfl rfl rfl hy)), mrComplete_headLeaves 0 rfl,
        mrComplete_mem .., mrComplete_tiles ..⟩
    · exact ⟨_, r4 ho, runMcomb_int_leaves rfl rfl rfl rfl hc ho hy ha hn hok hm hov rfl⟩
    · exact ⟨_, r4 ho, runMcomb_float_leaves rfl rfl rfl rfl hc ho hy ha hn hok hm hxst hxa hya hae hne rfl⟩
  · exact congrArg _ (writeSideband_ignored v hlo hhi rfl rfl h)
  · obtain ⟨p, hp, hplane⟩ := writeSideband_plane v hlo hhi rfl rfl h h8 h392
    exact ⟨p, congrArg _ hp, hplane⟩

end Sys2Proof.Machine
end
